-- ==== Sys2Proof/Word.lean ====
section
/-! DEFINITION. The words the manual treats as bits: bytes of telegrams and pages, and 12-bit samples. -/

namespace Sys2Proof

/-- A byte of a telegram, a table entry or a store page. -/
abbrev Byte := BitVec 8

/-- One conversion of an analog input: 12 bits, raw values 0 to 4095 (00_scope.md section 4). -/
abbrev Sample := BitVec 12

/-- A temperature in 0.1 °C, a pressure in 0.01 bar or another value that may be ABSENT (R6): `none` is ABSENT. -/
abbrev Value := Option Int

/-- A timer that is not running, or the clock time at which it expires. The deadline is latched at the start (R21, R52). -/
abbrev Timer := Option Nat

end Sys2Proof
end

