-- ==== Sys2Proof/Syntax.lean ====
section
/-! DEFINITION. The commands of the part: one constructor per row of opcode_table.json, in the table's order.
`dt` is the time since the previous command, in clock ticks, for commands whose moment no timer of the part fixes (log 1). -/

namespace Sys2Proof

/-- The two pulse inputs (00_scope.md section 4). -/
inductive PulseLine where
  | dhwPulse
  | fanTacho
deriving DecidableEq, Repr

/-- The two gas valve relays (R43). -/
inductive Relay where
  | gas1
  | gas2
deriving DecidableEq, Repr

/-- The ways in which a reply breaks framing (R138); a length above 16 is told with the length byte, whose last bits are the line's idle time (R136). -/
inductive FramingCause where
  | stopBitDominant
  | idleBreak
  | lengthAbove16 (length : Byte)
  | overlongRun
deriving DecidableEq, Repr

/-- What one frame's scan has converted, FLAME and the pulses apart (R1), with LIMIT_IN as read at the frame (R44). -/
structure Frame where
  flowA : Sample
  flowB : Sample
  ret : Sample
  dhwOut : Sample
  coldIn : Sample
  flue : Sample
  pressure : Sample
  outdoor : Sample
  limitOpen : Bool
deriving DecidableEq, Repr

/-- One command: one row of the table. -/
inductive Instr where
  | powerOn
  | powerLoss
  | loadComplete
  | frameCompletion (f : Frame)
  | flowDisagreeTimeout
  | circulationTimeout
  | fanDeviationTimeout
  | purgeComplete
  | zoneFallbackTimeout (zone : Nat)
  | flameSample (raw : Sample)
  | inputPulse (line : PulseLine)
  | relayReadbackChange (relay : Relay) (energised : Bool) (dt : Nat)
  | mismatchTimerExpiry (relay : Relay)
  | tpchkExpiry
  | prePurgeLimitExpiry
  | tprespkExpiry
  | tsparkExpiry
  | tsafeExpiry
  | tstabExpiry
  | tpostExpiry
  | lockoutPurgeExpiry
  | tffExpiry
  | tffpostExpiry
  | valveTravelExpiry (zone : Nat)
  | dhwOverrunExpiry
  | diverterEndReached
  | antiCycleExpiry
  | pumpOverrunExpiry
  | pumpKickStart
  | pumpKickEnd
  | onPhaseExpiry
  | offPhaseExpiry
  | blockingTimerExpiry (source : Nat)
  | resetInLevelChange (low : Bool) (dt : Nat)
  | resetInPress
  | powerOnSecond
  | tsettleExpiry
  | periodTimerExpiry
  | lineCheckIdle
  | lineDominanceTimeout
  | lineCheckTimeout
  | requestSent
  | holdTimeout
  | replyStartMark (run : Nat) (dt : Nat)
  | treplyExpiry
  | trxmaxExpiry
  | replyFraming (cause : FramingCause) (dt : Nat)
  | replyReceived (check : Byte) (dt : Nat)
  | closingSent
  | tclearExpiry
  | overcurrent
  | faultTimerExpiry
  | readEntry (node : Nat) (tag table entry : Byte)
  | writeEntry (node : Nat) (tag table entry : Byte) (data : List Byte)
  | writeEntryCounters (node : Nat) (tag entry : Byte) (data : List Byte)
  | writeEntrySafetyStage (node : Nat) (tag entry : Byte) (data : List Byte)
  | commitSafety (node : Nat) (tag : Byte) (crc : BitVec 16)
  | readState (node : Nat) (tag group index part : Byte)
  | readFaults (node : Nat) (tag list direction index : Byte)
  | lockoutReset (node : Nat) (tag : Byte)
  | proxyRead (node : Nat) (tag target item : Byte)
  | clearHistory (node : Nat) (tag : Byte)
  | restart (node : Nat) (tag : Byte)
  | restartProceed
  | proxyHoldExpiry
  | pageWriteEnd (verified : Bool)
  | busLineLevelChange (dominant : Bool) (dt : Nat)
  | replyByteReceived (value : Byte) (dt : Nat)
deriving DecidableEq, Repr

end Sys2Proof
end

