-- ==== Sys2Proof/Decode.lean ====
section
/-! DEFINITION. Reading a command from the bits opcode_table.json gives its rows. No row gives any bits (every "fields" is empty and none has "fixed"), so no word spells a command (log 23). -/

namespace Sys2Proof

/-- The rows whose bits the table gives, each with its length in bits and the bits themselves: none. -/
def rowsWithBits : List (Nat × Nat × Instr) := []

/-- The command a word of the table's bits spells, or none. -/
def decodeTableWord (nbits w : Nat) : Option Instr :=
  (rowsWithBits.find? fun r => r.1 == nbits && r.2.1 == w).map fun r => r.2.2

end Sys2Proof
end

