-- ==== Sys2Proof/Config.lean ====
section
/-! DEFINITION. Lengths and limits fixed in the part, and the free values for what the manual leaves open. -/

namespace Sys2Proof.Config

/-! Clock unit: 1/24000 s, in which 1 ms and one bit time of 4800 bit/s are both whole (log 1). -/

/-- Clock ticks in one millisecond. -/
def ms : Nat := 24
/-- One bit time tBIT, 1/4800 s (R133). -/
def tBit : Nat := 5
/-- Clock ticks in one second. -/
def second : Nat := 24000
/-- Clock ticks in 0.1 s. -/
def tenth : Nat := 2400
/-- A measurement frame, 100 ms (R1). -/
def frame : Nat := 2400
/-- Spacing of flame samples, 20 ms (R1). -/
def sample : Nat := 480

/-- tPCHK, 10 s (R21). -/
def tPchk : Nat := 10 * second
/-- tFPROVE, 20 s (R21). -/
def tFprove : Nat := 20 * second
/-- tFF, 5 s (R21). -/
def tFf : Nat := 5 * second
/-- tFFPOST, 10 s (R21). -/
def tFfpost : Nat := 10 * second
/-- Relay mismatch time, 200 ms (R43). -/
def tMismatch : Nat := 200 * ms
/-- Length of a press of RESET_IN, 0.5 s (R119). -/
def tPress : Nat := 500 * ms
/-- tSETTLE, 500 ms (R131). -/
def tSettle : Nat := 500 * ms
/-- tCLEAR, 200 ms (R142). -/
def tClear : Nat := 200 * ms
/-- tFAULT, 60 s (R142). -/
def tFault : Nat := 60 * second
/-- tDOM, 50 ms (R136). -/
def tDom : Nat := 50 * ms
/-- Longest line check, 200 ms (R136). -/
def tLineCheck : Nat := 200 * ms
/-- tHOLD, 10 ms (R137). -/
def tHold : Nat := 10 * ms
/-- tREPLY, 20 ms (R138). -/
def tReply : Nat := 20 * ms
/-- tRXMAX, 200 ms (R138). -/
def tRxmax : Nat := 200 * ms
/-- Hold of a fetched proxy result, 30 s (R185). -/
def tProxy : Nat := 30 * second
/-- One page write attempt, 6 ms (R193). -/
def tPage : Nat := 6 * ms
/-- Length of a pump kick, 10 s (R77). -/
def tKick : Nat := 10 * second
/-- Idle time before a pump kick, in seconds (R77). -/
def idleLimit : Nat := 86400
/-- Power-on time without a valid DEMAND before fallback, in seconds (R56). -/
def fallbackAge : Nat := 600
/-- Age limit of the outdoor node value, in seconds (R16). -/
def outdoorAge : Nat := 600
/-- Window of the bus clear list, in seconds (R142). -/
def clearWindow : Nat := 600
/-- Window of the reset budget, in seconds (R120). -/
def resetWindow : Nat := 900
/-- Resets within the window at which the budget is used up (R120). -/
def resetBudget : Nat := 5
/-- Waiting jobs the store queue holds, the lockout page job apart (R194). -/
def queuePlaces : Nat := 16
/-- Value at which counters and power-on time are held (R200). -/
def counterMax : Nat := 4294967295

/-- FLOW_DISAGREE is raised when its timer reaches this many frames (R11). -/
def disagreeFrames : Nat := 100
/-- NO_CIRCULATION is raised when its timer reaches this many frames (R20). -/
def circFrames : Nat := 200
/-- FAN_DEVIATION is raised when its timer reaches this many frames (R47). -/
def fanDevFrames : Nat := 100

/-! Free values (log 10). Each is opaque: nothing can be proved of the value, and a claim holds whatever it is. -/

/-- The byte at an address of a page that a power loss has torn: the manual says only that some byte has been programmed (R191). -/
opaque tornByte : Nat → Nat → Byte
/-- Whether a page dropped after its second failed verify is left torn (true) or blank (false): R193 says 'torn or blank'. DESIGN CHOICE: it never keeps its old contents, as R197 would allow with 'its old or torn contents', because both attempts begin with an erase (log 10). -/
opaque dropLeavesTorn : Nat → Bool
/-- A quotient by zero, which no rule gives and no accepted write leads to. -/
opaque quotByZero : Nat → Nat
/-- The integrator preset where R88's proportional term cannot be formed because an operand is ABSENT. -/
opaque presetUnformed : Nat → Nat

end Sys2Proof.Config
end

