-- ==== Sys2Proof/Machine/Bytes.lean ====
section
/-! DEFINITION. Byte order, bit fields, clamps and the two check codes (00_scope.md section 5, R135, R179, section 10). -/

namespace Sys2Proof.Machine

/-- A number's low eight bits as a byte. -/
def byte (n : Nat) : Byte := BitVec.ofNat 8 n

/-- A mark as a byte. -/
def flagByte (b : Bool) : Byte := if b then 1 else 0

/-- Unsigned byte at an offset. -/
def u8 (l : List Byte) (i : Nat) : Nat := (l.getD i 0).toNat

/-- Unsigned two-byte field, least significant byte first. -/
def u16 (l : List Byte) (i : Nat) : Nat := u8 l i + 256 * u8 l (i + 1)

/-- Unsigned three-byte field, least significant byte first. -/
def u24 (l : List Byte) (i : Nat) : Nat := u16 l i + 65536 * u8 l (i + 2)

/-- Unsigned four-byte field, least significant byte first. -/
def u32 (l : List Byte) (i : Nat) : Nat := u16 l i + 65536 * u16 l (i + 2)

/-- A field of `w` bits read as two's complement. -/
def signed (w n : Nat) : Int := if n < 2 ^ (w - 1) then (n : Int) else (n : Int) - ((2 ^ w : Nat) : Int)

/-- Signed byte at an offset. -/
def s8 (l : List Byte) (i : Nat) : Int := signed 8 (u8 l i)

/-- Signed two-byte field. -/
def s16 (l : List Byte) (i : Nat) : Int := signed 16 (u16 l i)

/-- The bits of an integer in a field of `w` bits, two's complement. -/
def field (w : Nat) (x : Int) : Nat := (x % ((2 ^ w : Nat) : Int)).toNat

/-- `n` bits from bit `lo` of a number. -/
def bits (x lo n : Nat) : Nat := x / 2 ^ lo % 2 ^ n

/-- One bit of a number. -/
def bit (x i : Nat) : Bool := bits x i 1 == 1

/-- One byte of a number. -/
def put8 (n : Nat) : List Byte := [byte n]

/-- Two bytes, least significant first. -/
def put16 (n : Nat) : List Byte := [byte n, byte (n / 256)]

/-- Three bytes, least significant first. -/
def put24 (n : Nat) : List Byte := [byte n, byte (n / 256), byte (n / 65536)]

/-- Four bytes, least significant first. -/
def put32 (n : Nat) : List Byte := [byte n, byte (n / 256), byte (n / 65536), byte (n / 16777216)]

/-- A signed two-byte field. -/
def putInt16 (x : Int) : List Byte := put16 (field 16 x)

/-- ABSENT in a two-byte field is 0x8000 (R203). -/
def absentCode : Nat := 0x8000

/-- A value that may be ABSENT, in two bytes (R203). -/
def putValue (v : Value) : List Byte :=
  match v with
  | some x => putInt16 x
  | none => put16 absentCode

/-- A mark in one byte. -/
def putMark (b : Bool) : List Byte := [flagByte b]

/-- None is 255 in a one-byte field (section 10.4). -/
def putOpt8 (v : Option Nat) : List Byte :=
  match v with
  | some n => put8 n
  | none => [255]

/-- None is 0xFFFFFFFF in a four-byte field (section 10.4). -/
def putOpt32 (v : Option Nat) : List Byte :=
  match v with
  | some n => put32 n
  | none => put32 0xFFFFFFFF

/-- The bytes `l` with `bs` written over them from offset `off`. -/
def splice (l : List Byte) (off : Nat) (bs : List Byte) : List Byte :=
  l.take off ++ bs ++ l.drop (off + bs.length)

/-- The `n` bytes of `l` from offset `off`; a byte beyond the end reads 0. -/
def slice (l : List Byte) (off n : Nat) : List Byte :=
  (List.range n).map fun i => l.getD (off + i) 0

/-- The clamp of 00_scope.md section 5: `lo` below the range, `hi` above it, otherwise the value. -/
def clamp (lo hi x : Int) : Int := if x < lo then lo else if hi < x then hi else x

/-- The clamp of a number that is not negative. -/
def clampNat (lo hi x : Nat) : Nat := if x < lo then lo else if hi < x then hi else x

/-- Integer quotient truncated toward zero (00_scope.md section 5). -/
def quot (a b : Int) : Int := Int.tdiv a b

/-- Quotient by a setting no accepted write can make 0; by 0 it is a free value (log 10). -/
def quotNat (a b : Nat) : Nat := if b = 0 then Config.quotByZero a else a / b

/-- Quotient by 2^k to nearest, halves away from zero (R9). -/
def roundHalfAway (x : Int) (k : Nat) : Int :=
  let d : Int := ((2 ^ k : Nat) : Int)
  if x < 0 then -((2 * (-x) + d) / (2 * d)) else (2 * x + d) / (2 * d)

/-- The value of a table of points at `x`: held at the ends, and between two neighbouring points linear, the quotient truncated toward zero (R7, R82, R101). An empty table gives 0. -/
def interpolate (pts : List (Int × Int)) (x : Int) : Int :=
  match pts with
  | [] => 0
  | [p] => p.2
  | p :: q :: rest =>
    if x < p.1 then p.2
    else if x < q.1 then p.2 + quot ((x - p.1) * (q.2 - p.2)) (q.1 - p.1)
    else interpolate (q :: rest) x

/-- One bit step of the CRC-8 with generator x^8 + x^2 + x + 1 (R135). -/
def crc8Step (c : BitVec 8) : BitVec 8 := if c.msb then (c <<< 1) ^^^ 0x07 else c <<< 1

/-- The CRC-8 taking one byte, most significant bit first (R135). -/
def crc8Byte (c : BitVec 8) (b : Byte) : BitVec 8 :=
  crc8Step (crc8Step (crc8Step (crc8Step (crc8Step (crc8Step (crc8Step (crc8Step (c ^^^ b))))))))

/-- The check byte of a telegram: CRC-8 over header and payload from 0, no final inversion (R135). -/
def crc8 (bs : List Byte) : Byte := bs.foldl crc8Byte 0

/-- One bit step of the CRC-16 with generator 0x1021 (R179). -/
def crc16Step (c : BitVec 16) : BitVec 16 := if c.msb then (c <<< 1) ^^^ 0x1021 else c <<< 1

/-- The CRC-16 taking one byte, most significant bit first (R179). -/
def crc16Byte (c : BitVec 16) (b : Byte) : BitVec 16 :=
  let x := c ^^^ (b.zeroExtend 16 <<< 8)
  crc16Step (crc16Step (crc16Step (crc16Step (crc16Step (crc16Step (crc16Step (crc16Step x)))))))

/-- The CRC-16 of the safety block's bytes: initial value 0xFFFF, no final inversion (R179, R199). -/
def crc16 (bs : List Byte) : BitVec 16 := bs.foldl crc16Byte 0xFFFF

end Sys2Proof.Machine
end

