-- ==== Sys2Proof/Machine/Types.lean ====
section
/-! DEFINITION. The named values of the manual and their codes (section 10.5). Codes the manual does not list follow the order in which the owning rule lists the values (log 14). -/

namespace Sys2Proof.Machine

/-- Validity state of a channel (section 1.2). -/
inductive Validity where
  | valid
  | invalid
  | notFitted
deriving DecidableEq, Repr

/-- Code of a validity state (log 14). -/
def Validity.code : Validity → Nat
  | .valid => 0
  | .invalid => 1
  | .notFitted => 2

/-- The analog channels with a channel record, in the order of READ_STATE group CHANNEL (R187). -/
inductive Chan where
  | flowA
  | flowB
  | ret
  | dhwOut
  | coldIn
  | flue
  | pressure
  | outdoor
deriving DecidableEq, Repr

/-- Channel number, which is also the channel's detail (section 10.5). -/
def Chan.num : Chan → Nat
  | .flowA => 0
  | .flowB => 1
  | .ret => 2
  | .dhwOut => 3
  | .coldIn => 4
  | .flue => 5
  | .pressure => 6
  | .outdoor => 7

/-- Filter constant k of R9. -/
def Chan.k : Chan → Nat
  | .flowA => 1
  | .flowB => 1
  | .ret => 2
  | .dhwOut => 0
  | .coldIn => 3
  | .flue => 2
  | .pressure => 3
  | .outdoor => 4

/-- Source of the published outdoor value (R16). -/
inductive OutdoorSource where
  | wired
  | node
  | fixed
deriving DecidableEq, Repr

/-- Code of an outdoor source (log 14). -/
def OutdoorSource.code : OutdoorSource → Nat
  | .wired => 0
  | .node => 1
  | .fixed => 2

/-- Burner states (section 2.1). -/
inductive BurnerState where
  | standby
  | preCheck
  | prePurge
  | ignition
  | stabilise
  | run
  | postPurge
  | lockout
deriving DecidableEq, Repr

/-- Code of a burner state (section 10.5). -/
def BurnerState.code : BurnerState → Nat
  | .standby => 0
  | .preCheck => 1
  | .prePurge => 2
  | .ignition => 3
  | .stabilise => 4
  | .run => 5
  | .postPurge => 6
  | .lockout => 7

/-- Cause of a departure from a firing state, as BS reports it (R50). -/
inductive Cause where
  | withdrawal
  | flameLossRecycle
  | flameLoss
  | ignitionFailure
  | fault
  | fanDeviation
  | lockout
deriving DecidableEq, Repr

/-- Heat circuit (R69). -/
inductive Circuit where
  | none
  | ch
  | dhw
  | frost
deriving DecidableEq, Repr

/-- Code of a circuit (section 10.5). -/
def Circuit.code : Circuit → Nat
  | .none => 0
  | .ch => 1
  | .dhw => 2
  | .frost => 3

/-- CH or FROST: the circuits through the radiators. -/
def Circuit.heating : Circuit → Bool
  | .ch => true
  | .frost => true
  | .none => false
  | .dhw => false

/-- Draw state (R67). -/
inductive DrawState where
  | idle
  | active
  | overrun
deriving DecidableEq, Repr

/-- Code of a draw state (section 10.5). -/
def DrawState.code : DrawState → Nat
  | .idle => 0
  | .active => 1
  | .overrun => 2

/-- Call state of a zone (R53). -/
inductive CallState where
  | unknown
  | noCall
  | call
deriving DecidableEq, Repr

/-- Code of a call state (section 10.5). -/
def CallState.code : CallState → Nat
  | .unknown => 0
  | .noCall => 1
  | .call => 2

/-- Valve state of a zone (R58). -/
inductive ValveState where
  | unknown
  | closed
  | opening
  | opened
  | closing
deriving DecidableEq, Repr

/-- Code of a valve state (section 10.5). -/
def ValveState.code : ValveState → Nat
  | .unknown => 0
  | .closed => 1
  | .opening => 2
  | .opened => 3
  | .closing => 4

/-- A valve position that is desired or commanded (R59). -/
inductive Position where
  | opened
  | closed
deriving DecidableEq, Repr

/-- Position byte of a VALVE_COMMAND (section 10.2). -/
def Position.code : Position → Nat
  | .opened => 1
  | .closed => 2

/-- Diverter state (R68). -/
inductive DiverterState where
  | atCh
  | toDhw
  | atDhw
  | toCh
deriving DecidableEq, Repr

/-- Code of a diverter state (log 14). -/
def DiverterState.code : DiverterState → Nat
  | .atCh => 0
  | .toDhw => 1
  | .atDhw => 2
  | .toCh => 3

/-- Operating mode (R52). -/
inductive Mode where
  | off
  | summer
  | winter
deriving DecidableEq, Repr

/-- The mode a SETTINGS byte holds (section 10.5). A byte outside the codes, which no write stores (R176), reads OFF. -/
def Mode.ofCode (n : Nat) : Mode := if n = 2 then .winter else if n = 1 then .summer else .off

/-- State of the cycling record (section 4.6). -/
inductive CycleState where
  | inactive
  | onPhase
  | offPhase
deriving DecidableEq, Repr

/-- Code of a cycling state (log 14). -/
def CycleState.code : CycleState → Nat
  | .inactive => 0
  | .onPhase => 1
  | .offPhase => 2

/-- Fault classes; WARNING below BLOCKING below LOCKOUT (R113). -/
inductive FaultClass where
  | warning
  | blocking
  | lockout
deriving DecidableEq, Repr

/-- Code of a class (section 10.5). -/
def FaultClass.code : FaultClass → Nat
  | .warning => 0
  | .blocking => 1
  | .lockout => 2

/-- The class a FAULTCODES entry holds. A code outside the classes, which no write stores (R176), reads WARNING. -/
def FaultClass.ofCode (n : Nat) : FaultClass := if n = 2 then .lockout else if n = 1 then .blocking else .warning

/-- The 26 fault sources (R105). -/
inductive Source where
  | ignitionFailure
  | flameLoss
  | falseFlame
  | overheat
  | limitStat
  | gasRelay
  | flowDisagree
  | flowSensor
  | paramIntegrity
  | fanNotStopped
  | fanNoSpeed
  | fanDeviation
  | lowPressure
  | highPressure
  | pressureSensor
  | flueHigh
  | flueSensor
  | noCirculation
  | returnSensor
  | dhwSensor
  | coldSensor
  | outdoorSensor
  | nodeAbsent
  | zoneValve
  | busFault
  | storeFault
deriving DecidableEq, Repr

/-- Number of a source (R105). -/
def Source.num : Source → Nat
  | .ignitionFailure => 1
  | .flameLoss => 2
  | .falseFlame => 3
  | .overheat => 4
  | .limitStat => 5
  | .gasRelay => 6
  | .flowDisagree => 7
  | .flowSensor => 8
  | .paramIntegrity => 9
  | .fanNotStopped => 10
  | .fanNoSpeed => 11
  | .fanDeviation => 12
  | .lowPressure => 13
  | .highPressure => 14
  | .pressureSensor => 15
  | .flueHigh => 16
  | .flueSensor => 17
  | .noCirculation => 18
  | .returnSensor => 19
  | .dhwSensor => 20
  | .coldSensor => 21
  | .outdoorSensor => 22
  | .nodeAbsent => 23
  | .zoneValve => 24
  | .busFault => 25
  | .storeFault => 26

/-- The sources in the order of their numbers. -/
def Source.all : List Source :=
  [.ignitionFailure, .flameLoss, .falseFlame, .overheat, .limitStat, .gasRelay, .flowDisagree, .flowSensor,
   .paramIntegrity, .fanNotStopped, .fanNoSpeed, .fanDeviation, .lowPressure, .highPressure, .pressureSensor,
   .flueHigh, .flueSensor, .noCirculation, .returnSensor, .dhwSensor, .coldSensor, .outdoorSensor, .nodeAbsent,
   .zoneValve, .busFault, .storeFault]

/-- The source of a number. -/
def Source.ofNum (n : Nat) : Option Source := Source.all.find? fun s => s.num == n

/-- The nine sources of the safety set (R105). -/
def Source.safety (s : Source) : Bool := decide (s.num ≤ 9)

/-- The event sources (R105): no clear report. -/
def Source.event : Source → Bool
  | .ignitionFailure | .flameLoss | .falseFlame | .gasRelay | .fanNotStopped | .fanNoSpeed | .fanDeviation
  | .noCirculation => true
  | .overheat | .limitStat | .flowDisagree | .flowSensor | .paramIntegrity | .lowPressure | .highPressure
  | .pressureSensor | .flueHigh | .flueSensor | .returnSensor | .dhwSensor | .coldSensor | .outdoorSensor
  | .nodeAbsent | .zoneValve | .busFault | .storeFault => false

/-- tBLOCK of the four ordinary event sources, in seconds (R106). -/
def Source.blockTime : Source → Option Nat
  | .fanNotStopped | .fanNoSpeed | .fanDeviation => some 60
  | .noCirculation => some 120
  | .ignitionFailure | .flameLoss | .falseFlame | .overheat | .limitStat | .gasRelay | .flowDisagree | .flowSensor
  | .paramIntegrity | .lowPressure | .highPressure | .pressureSensor | .flueHigh | .flueSensor | .returnSensor
  | .dhwSensor | .coldSensor | .outdoorSensor | .nodeAbsent | .zoneValve | .busFault | .storeFault => none

/-- The three fan sources, whose lockout has no purge (R48). -/
def Source.fan : Source → Bool
  | .fanNotStopped | .fanNoSpeed | .fanDeviation => true
  | .ignitionFailure | .flameLoss | .falseFlame | .overheat | .limitStat | .gasRelay | .flowDisagree | .flowSensor
  | .paramIntegrity | .lowPressure | .highPressure | .pressureSensor | .flueHigh | .flueSensor | .noCirculation
  | .returnSensor | .dhwSensor | .coldSensor | .outdoorSensor | .nodeAbsent | .zoneValve | .busFault
  | .storeFault => false

/-- Detail code for no detail (section 10.5). -/
def noDetail : Nat := 63

/-- The fault source of a channel (R18). -/
def Chan.source : Chan → Source
  | .flowA => .flowSensor
  | .flowB => .flowSensor
  | .ret => .returnSensor
  | .dhwOut => .dhwSensor
  | .coldIn => .coldSensor
  | .flue => .flueSensor
  | .pressure => .pressureSensor
  | .outdoor => .outdoorSensor

/-- State of the lockout record (R116). -/
inductive LockState where
  | none
  | active
  | resetPending
deriving DecidableEq, Repr

/-- Code of a lockout state (section 10.5). -/
def LockState.code : LockState → Nat
  | .none => 0
  | .active => 1
  | .resetPending => 2

/-- Rights of a requester, each level including those before it (R171). -/
inductive Rights where
  | none
  | room
  | display
  | service
deriving DecidableEq, Repr

/-- Rank of rights, which is also their code (log 14). -/
def Rights.rank : Rights → Nat
  | .none => 0
  | .room => 1
  | .display => 2
  | .service => 3

/-- Result codes of management requests (R172). -/
inductive Result where
  | done
  | clamped
  | invalid
  | denied
  | busy
  | pending
  | noAnswer
  | nodeBusy
  | accepted
  | refusedState
  | crcMismatch
  | notLocked
  | resetPending
  | budget
  | condition
  | listEnd
deriving DecidableEq, Repr

/-- Code of a result (section 10.5). -/
def Result.code : Result → Nat
  | .done => 0
  | .clamped => 1
  | .invalid => 2
  | .denied => 3
  | .busy => 4
  | .pending => 5
  | .noAnswer => 6
  | .nodeBusy => 7
  | .accepted => 8
  | .refusedState => 9
  | .crcMismatch => 10
  | .notLocked => 11
  | .resetPending => 12
  | .budget => 13
  | .condition => 14
  | .listEnd => 15

/-- Port state (R131). -/
inductive PortState where
  | off
  | settling
  | ready
  | exchange
  | clearing
  | fault
deriving DecidableEq, Repr

/-- Code of a port state (log 14). -/
def PortState.code : PortState → Nat
  | .off => 0
  | .settling => 1
  | .ready => 2
  | .exchange => 3
  | .clearing => 4
  | .fault => 5

/-- Phase of an exchange (section 6.3). Validating takes no time and is not a phase of State. -/
inductive Phase where
  | lineCheck
  | sending
  | awaiting
  | receiving
  | closing
deriving DecidableEq, Repr

/-- Reason of a failed exchange (R141). -/
inductive Reason where
  | check
  | framing
  | noReply
  | stretch
  | mismatch
deriving DecidableEq, Repr

/-- Code of a failure reason (log 14). -/
def Reason.code : Reason → Nat
  | .check => 0
  | .framing => 1
  | .noReply => 2
  | .stretch => 3
  | .mismatch => 4

/-- Kind of a node (R147). -/
inductive NodeKind where
  | none
  | roomUnit
  | zoneModule
  | display
  | outdoorUnit
  | serviceTool
deriving DecidableEq, Repr

/-- The kind a NODES byte holds (section 10.5). A byte outside the codes, which no write stores (R148), reads NONE. -/
def NodeKind.ofCode (n : Nat) : NodeKind :=
  if n = 1 then .roomUnit else if n = 2 then .zoneModule else if n = 3 then .display
  else if n = 4 then .outdoorUnit else if n = 5 then .serviceTool else .none

/-- Rights of a node, from its kind (R147). -/
def NodeKind.rights : NodeKind → Rights
  | .roomUnit => .room
  | .display => .display
  | .serviceTool => .service
  | .none | .zoneModule | .outdoorUnit => .none

/-- Presence of a node (R147). -/
inductive Presence where
  | unknown
  | present
  | absent
deriving DecidableEq, Repr

/-- Code of a presence (log 14). -/
def Presence.code : Presence → Nat
  | .unknown => 0
  | .present => 1
  | .absent => 2

/-- Round state (R153). -/
inductive RoundState where
  | idle
  | running
  | waitingPort
deriving DecidableEq, Repr

/-- Code of a round state (log 14). -/
def RoundState.code : RoundState → Nat
  | .idle => 0
  | .running => 1
  | .waitingPort => 2

/-- Kind of a poll list entry (R151). -/
inductive PollKind where
  | demandQuery
  | valveQuery
  | outdoorQuery
  | statusPush
  | presence
  | mgmtPoll
deriving DecidableEq, Repr

/-- The kind a POLL byte holds (section 10.5). Codes 6 and 7, which no write stores (R151), read PRESENCE (log 26). -/
def PollKind.ofCode (n : Nat) : PollKind :=
  if n = 0 then .demandQuery else if n = 1 then .valveQuery else if n = 2 then .outdoorQuery
  else if n = 3 then .statusPush else if n = 5 then .mgmtPoll else .presence

/-- Telegram kind of a poll list entry's request (section 10.1). -/
def PollKind.request : PollKind → Nat
  | .demandQuery => 0x10
  | .valveQuery => 0x11
  | .outdoorQuery => 0x12
  | .statusPush => 0x13
  | .presence => 0x14
  | .mgmtPoll => 0x15

/-- Telegram kinds (section 10.1). -/
def kindValveCommand : Nat := 0x16
def kindItemQuery : Nat := 0x17
def kindAnswer : Nat := 0x18
def kindDemand : Nat := 0x20
def kindValveState : Nat := 0x21
def kindOutdoor : Nat := 0x22
def kindAck : Nat := 0x23
def kindMgmtRequest : Nat := 0x24
def kindNone : Nat := 0x25
def kindItem : Nat := 0x26

/-- Reply kinds that match a poll list entry's request (R152). -/
def PollKind.replies : PollKind → List Nat
  | .demandQuery => [kindDemand]
  | .valveQuery => [kindValveState]
  | .outdoorQuery => [kindOutdoor]
  | .statusPush => [kindAck]
  | .presence => [kindDemand, kindValveState, kindOutdoor, kindAck, kindMgmtRequest, kindNone, kindItem]
  | .mgmtPoll => [kindMgmtRequest, kindNone]

/-- State of the proxy slot (R184). -/
inductive SlotState where
  | empty
  | fetching
  | ready
deriving DecidableEq, Repr

/-- Code of a proxy slot state (log 14). -/
def SlotState.code : SlotState → Nat
  | .empty => 0
  | .fetching => 1
  | .ready => 2

/-- Commit state (chapter 8). -/
inductive CommitState where
  | none
  | committing
  | done
  | failed
deriving DecidableEq, Repr

/-- Code of a commit state (log 14). -/
def CommitState.code : CommitState → Nat
  | .none => 0
  | .committing => 1
  | .done => 2
  | .failed => 3

/-- Load outcome of the safety block (R199). -/
inductive LoadOutcome where
  | valid
  | blank
  | failed
deriving DecidableEq, Repr

/-- Code of a load outcome (log 14). -/
def LoadOutcome.code : LoadOutcome → Nat
  | .valid => 0
  | .blank => 1
  | .failed => 2

/-- Whether the part is supplied, and whether its power-up load has ended (R198). -/
inductive Power where
  | off
  | loading
  | on
deriving DecidableEq, Repr

/-- State of a page of the store memory (R191). `dropped` is a page whose write failed twice, of which the manual says that it is left torn or blank (R193): which of the two is a free value, drawn with the number (log 10). -/
inductive PageStatus where
  | blank
  | torn (stamp : Nat)
  | complete
  | dropped (stamp : Nat)
deriving DecidableEq, Repr

end Sys2Proof.Machine
end

