-- ==== Sys2Proof/Machine/Tables.lean ====
section
/-! DEFINITION. The page images of the tables and of the safety block: where each field lies (section 10.6) and what a blank page loads (R52, R53, R81, R107, R147, R151, R198). -/

namespace Sys2Proof.Machine

/-! SETTINGS, page 11. -/

def setMode (p : List Byte) : Mode := .ofCode (u8 p 0)
def setDhwEnabled (p : List Byte) : Bool := bit (u8 p 1) 0
def setFrostEnabled (p : List Byte) : Bool := bit (u8 p 1) 1
def setColdFitted (p : List Byte) : Bool := bit (u8 p 1) 2
def setOutdoorFitted (p : List Byte) : Bool := bit (u8 p 1) 3
def setDhwOverrun (p : List Byte) : Nat := u8 p 2
def setTravel (p : List Byte) : Nat := u8 p 3
def setPumpSpeed (p : List Byte) : Nat := u8 p 4
def setKp (p : List Byte) : Nat := u8 p 5
def setKi (p : List Byte) : Nat := u8 p 6
def setKr (p : List Byte) : Nat := u8 p 7
def setKd (p : List Byte) : Nat := u8 p 8
def setHoff (p : List Byte) : Nat := u8 p 9
def setAntiCycle (p : List Byte) : Nat := u16 p 10
def setPumpCh (p : List Byte) : Nat := u16 p 12
def setTdhw (p : List Byte) : Nat := u16 p 14
def setTchMin (p : List Byte) : Nat := u16 p 16
def setTchMax (p : List Byte) : Nat := u16 p 18
def setCeiling (p : List Byte) : Nat := u16 p 20
def setPc (p : List Byte) : Nat := u16 p 22
def setDhwPrimaryMax (p : List Byte) : Nat := u16 p 24
def setTcoldFix (p : List Byte) : Nat := u16 p 26
def setKpl (p : List Byte) : Nat := u16 p 28
def setToutFix (p : List Byte) : Int := s16 p 30

/-- SETTINGS as a blank page loads it: the defaults of R14, R16, R52, R81 and section 10.6. -/
def defaultSettings : List Byte :=
  [2, 0b0011, 10, 6, 70, 40, 2, 30, 20, 50] ++ put16 180 ++ put16 180 ++ put16 500 ++ put16 300 ++ put16 750
    ++ put16 800 ++ put16 600 ++ put16 800 ++ put16 100 ++ put16 450 ++ putInt16 0

/-! CURVE, page 12. -/

def curveCount (p : List Byte) : Nat := u8 p 0

/-- Point k: outdoor value in bits 0 to 11, signed; flow value in bits 12 to 23. -/
def curvePoint (p : List Byte) (k : Nat) : Int × Int :=
  let w := u24 p (1 + 3 * k)
  (signed 12 (bits w 0 12), (bits w 12 12 : Nat))

/-- The three bytes of a curve point. -/
def putCurvePoint (o t : Int) : List Byte := put24 (field 12 o + 4096 * field 12 t)

/-- The points in use (R82). -/
def curvePoints (p : List Byte) : List (Int × Int) := (List.range (min (curveCount p) 8)).map (curvePoint p)

/-- CURVE as a blank page loads it: (−200, 700), (200, 300). -/
def defaultCurve : List Byte :=
  [2] ++ putCurvePoint (-200) 700 ++ putCurvePoint 200 300 ++ List.replicate 25 0

/-! ZONES, pages 13 and 14. -/

def zoneEnabled (p : List Byte) (z : Nat) : Bool := bit (u8 p (8 * z)) 0
def zoneEndSwitch (p : List Byte) (z : Nat) : Bool := bit (u8 p (8 * z)) 1
def zoneFallbackCall (p : List Byte) (z : Nat) : Bool := bit (u8 p (8 * z)) 2
def zoneValveNode (p : List Byte) (z : Nat) : Nat := u8 p (8 * z + 1)
def zoneValveChannel (p : List Byte) (z : Nat) : Nat := u8 p (8 * z + 2)
def zoneRunTime (p : List Byte) (z : Nat) : Nat := u16 p (8 * z + 3)
def zoneOffset (p : List Byte) (z : Nat) : Int := s8 p (8 * z + 5)

/-- ZONES as blank pages load it (R53). -/
def defaultZones : List Byte :=
  ([5, 0, 0, 120, 0, 0, 0, 0] : List Byte) ++ (List.replicate 7 ([4, 0, 0, 120, 0, 0, 0, 0] : List Byte)).flatten

/-! NODES, pages 15 to 18. Addresses 1 to 15. -/

def nodeKind (p : List Byte) (a : Nat) : NodeKind := .ofCode (u8 p (8 * (a - 1)))
def nodeZone (p : List Byte) (a : Nat) : Nat := u8 p (8 * (a - 1) + 1)

/-- A NODES record: kind, zone and six reserved bytes. -/
def nodeRecord (kind zone : Byte) : List Byte := [kind, zone, 0, 0, 0, 0, 0, 0]

/-- NODES as blank pages load it (R147). -/
def defaultNodes : List Byte :=
  nodeRecord 3 255 ++ nodeRecord 1 0 ++ (List.replicate 12 (nodeRecord 0 255)).flatten ++ nodeRecord 5 255
    ++ List.replicate 8 0

/-- The addresses of the nodes. -/
def addresses : List Nat := [1, 2, 3, 4, 5, 6, 7, 8, 9, 10, 11, 12, 13, 14, 15]

/-- The zones. -/
def zoneNumbers : List Nat := [0, 1, 2, 3, 4, 5, 6, 7]

/-! POLL, pages 19 to 22. -/

def pollPeriod (p : List Byte) : Nat := u8 p 0

/-- Offset of poll list entry e in the POLL image. -/
def pollOffset (e : Nat) : Nat := 32 * (e / 10) + 1 + 3 * (e % 10)

/-- A poll list entry as PE holds it (R151). -/
structure PollEntry where
  node : Nat
  divider : Nat
  kind : PollKind
  chain : Bool
  skipOnModifier : Bool
  continue' : Bool
  block : Nat
deriving DecidableEq, Repr

/-- Entry e of the POLL image. -/
def pollEntry (p : List Byte) (e : Nat) : PollEntry :=
  let o := pollOffset e
  { node := bits (u8 p o) 0 4, divider := bits (u8 p o) 4 4, kind := .ofCode (bits (u8 p (o + 1)) 0 3)
    chain := bit (u8 p (o + 1)) 3, skipOnModifier := bit (u8 p (o + 1)) 4, continue' := bit (u8 p (o + 1)) 5
    block := u8 p (o + 2) }

/-- An empty entry of the default POLL (R151). -/
def emptyPoll : List Byte := [0x10, 0, 0]

/-- POLL as blank pages load it (R151). DESIGN CHOICE: the block field of entries 1 and 2, for which the default table has a dash, is 0, as in the empty entries (log 41). -/
def defaultPoll : List Byte :=
  [10, 0x11, 0x0B, 0, 0x11, 0x0D, 0, 0x12, 0, 0] ++ (List.replicate 7 emptyPoll).flatten ++ [0]
    ++ ([0] ++ (List.replicate 10 emptyPoll).flatten ++ [0])
    ++ ([0] ++ (List.replicate 10 emptyPoll).flatten ++ [0])
    ++ ([0] ++ (List.replicate 2 emptyPoll).flatten ++ List.replicate 25 0)

/-! FAULTCODES, pages 23 to 26. -/

def fcCode (p : List Byte) (s : Source) : Nat := bits (u16 p (4 * (s.num - 1))) 0 10
def fcClass (p : List Byte) (s : Source) : FaultClass := .ofCode (bits (u16 p (4 * (s.num - 1))) 10 2)
def fcCount (p : List Byte) (s : Source) : Nat := u8 p (4 * (s.num - 1) + 2)
def fcWindow (p : List Byte) (s : Source) : Nat := bits (u8 p (4 * (s.num - 1) + 3)) 0 7
def fcHistory (p : List Byte) (s : Source) : Bool := bit (u8 p (4 * (s.num - 1) + 3)) 7

/-- A FAULTCODES entry with window 24 h and the history flag set. -/
def fcEntry (code : Nat) (c : FaultClass) (count : Nat) : List Byte :=
  put16 (code + 1024 * c.code) ++ put8 count ++ [24 + 128]

/-- FAULTCODES as blank pages load it (R107). -/
def defaultFaultCodes : List Byte :=
  fcEntry 101 .lockout 0 ++ fcEntry 102 .lockout 0 ++ fcEntry 103 .lockout 0 ++ fcEntry 110 .lockout 0
    ++ fcEntry 111 .lockout 0 ++ fcEntry 104 .lockout 0 ++ fcEntry 112 .lockout 0 ++ fcEntry 113 .lockout 0
    ++ fcEntry 120 .lockout 0 ++ fcEntry 130 .blocking 0 ++ fcEntry 131 .blocking 3 ++ fcEntry 132 .blocking 3
    ++ fcEntry 140 .blocking 0 ++ fcEntry 141 .warning 0 ++ fcEntry 142 .blocking 0 ++ fcEntry 150 .blocking 3
    ++ fcEntry 151 .blocking 0 ++ fcEntry 160 .blocking 5 ++ fcEntry 170 .warning 0 ++ fcEntry 171 .warning 0
    ++ fcEntry 172 .warning 0 ++ fcEntry 173 .warning 0 ++ fcEntry 180 .warning 0 ++ fcEntry 181 .warning 0
    ++ fcEntry 182 .warning 0 ++ fcEntry 190 .warning 0 ++ List.replicate 24 0

/-! The safety block, pages 0 to 7, 256 bytes. Times of entries 0 to 3 are in 0.1 s, of entries 4 and 5 in s. -/

def sbPurge (b : List Byte) : Nat := u16 b 0
def sbPrespk (b : List Byte) : Nat := u16 b 2
def sbSafe (b : List Byte) : Nat := u16 b 4
def sbSpark (b : List Byte) : Nat := u16 b 6
def sbStab (b : List Byte) : Nat := u16 b 8
def sbPost (b : List Byte) : Nat := u16 b 10
def sbNatt (b : List Byte) : Nat := u16 b 12
def sbNrec (b : List Byte) : Nat := u16 b 14
def sbPurgeSpeed (b : List Byte) : Nat := u16 b 16
def sbPostSpeed (b : List Byte) : Nat := u16 b 18
def sbPrated (b : List Byte) : Nat := u16 b 20
def sbMmin (b : List Byte) : Nat := u16 b 22
def sbPign (b : List Byte) : Nat := u16 b 24
def sbTlimit (b : List Byte) : Nat := u16 b 26
def sbFs (b : List Byte) : Nat := u16 b 28
def sbFe (b : List Byte) : Nat := u16 b 30
def sbFl (b : List Byte) : Nat := u16 b 32
def sbFlameOn (b : List Byte) : Nat := u16 b 34
def sbFlameOff (b : List Byte) : Nat := u16 b 36
def sbLowP (b : List Byte) : Nat := u16 b 38
def sbRecoverP (b : List Byte) : Nat := u16 b 40
def sbFanCount (b : List Byte) : Nat := u16 b 122
def sbCrc (b : List Byte) : Nat := u16 b 254

/-- The 16 NTC points. -/
def sbNtc (b : List Byte) : List (Int × Int) :=
  (List.range 16).map fun k => ((u16 b (42 + 4 * k) : Int), s16 b (44 + 4 * k))

/-- The 4 pressure points. -/
def sbPressure (b : List Byte) : List (Int × Int) :=
  (List.range 4).map fun k => ((u16 b (106 + 4 * k) : Int), (u16 b (108 + 4 * k) : Int))

/-- Fan map point k. -/
def sbFanPoint (b : List Byte) (k : Nat) : Int × Int := ((u16 b (124 + 4 * k) : Int), (u16 b (126 + 4 * k) : Int))

/-- The fan map points in use (R101). -/
def sbFanMap (b : List Byte) : List (Int × Int) := (List.range (min (sbFanCount b) 8)).map (sbFanPoint b)

/-- A safety page taken as blank: every byte erased but the reserved bytes 156 to 253, which are 0 (R198). -/
def blankSafetyPage (p : Nat) : List Byte :=
  (List.range 32).map fun i => if 156 ≤ 32 * p + i ∧ 32 * p + i ≤ 253 then 0 else 255

/-- The safety block with every page blank. -/
def blankSafety : List Byte := ((List.range 8).map blankSafetyPage).flatten

/-- Built-in NTC characteristic (R8). -/
def defaultNtc : List (Int × Int) :=
  [(120, 1300), (200, 1100), (300, 950), (420, 830), (560, 730), (720, 640), (900, 560), (1100, 490),
   (1330, 420), (1580, 350), (1860, 280), (2160, 210), (2480, 140), (2820, 60), (3200, -50), (3700, -250)]

/-- Built-in pressure characteristic (R8). -/
def defaultPressure : List (Int × Int) := [(410, 0), (1229, 100), (2867, 300), (3686, 400)]

/-- Built-in fan map (R81). -/
def defaultFanMap : List (Int × Int) := [(150, 1500), (500, 3600), (1000, 6000)]

end Sys2Proof.Machine
end

