-- ==== Sys2Proof/Machine/State.lean ====
section
/-! DEFINITION. The state of the part as plain data: every piece of state the manual names, block by block, the store memory, the plant lines, and the queue of waiting commands. -/

namespace Sys2Proof.Machine

/-- The part has no machine fault: no rule of the manual makes a command stop it. Nobody raises this constructor; the type stands for the host's interface. Safe. -/
inductive Fault where
  /-- Raised by nothing. Safe. -/
  | unreachable
deriving DecidableEq, Repr

/-- The part refuses no command. -/
inductive Refusal where
  /-- A command that the model gives no meaning yet. Raised by an arm of exec only; safe. No arm is left that raises it. -/
  | notModelled (mnemonic : String)
deriving DecidableEq, Repr

/-! ### Time and lines -/

/-- The clock, in ticks of 1/24000 s, with the times of the last frame completion, flame sample and power-on second (log 1). -/
structure Clock where
  now : Nat := 0
  frameAt : Nat := 0
  sampleAt : Nat := 0
  secondAt : Nat := 0
deriving DecidableEq, Repr

/-- Levels of the plant lines and of the bus line, as last told (log 7). -/
structure Lines where
  relay1Fb : Bool := false
  relay2Fb : Bool := false
  limitOpen : Bool := false
  resetLow : Bool := false
  busDominant : Bool := false
  busSince : Nat := 0
deriving DecidableEq, Repr

/-- The table images as of the last frame completion: what MP and MU work with until the next (R8, R52, R81; log 16); of ZONES, the offsets (R57). -/
structure Latch where
  settings : List Byte := defaultSettings
  curve : List Byte := defaultCurve
  zones : List Byte := defaultZones
  safety : List Byte := blankSafety
  valid : Bool := false
deriving DecidableEq, Repr

/-! ### Measurement path -/

/-- A channel record (R2, R4). -/
structure Channel where
  raw : Nat := 0
  validity : Validity := .invalid
  unproven : Bool := true
  outRun : Nat := 0
  inRun : Nat := 0
  fault : Bool := false
  filtered : Value := none
deriving DecidableEq, Repr

/-- The flame record (R12, R13). -/
structure Flame where
  current : Nat := 0
  present : Bool := false
  onRun : Nat := 0
  offRun : Nat := 0
deriving DecidableEq, Repr

/-- The published values that are not a channel's own (R2). -/
structure Published where
  flowCtl : Value := none
  flowLim : Value := none
  flameCurrent : Nat := 0
  flamePresent : Bool := false
  q : Nat := 0
  fanSpeed : Nat := 0
  outdoor : Int := 0
  outdoorSource : OutdoorSource := .fixed
deriving DecidableEq, Repr

/-- Measurement path. -/
structure Mp where
  flowA : Channel := {}
  flowB : Channel := {}
  ret : Channel := {}
  dhwOut : Channel := {}
  coldIn : Channel := { validity := .notFitted, unproven := false }
  flue : Channel := {}
  pressure : Channel := {}
  outdoor : Channel := { validity := .notFitted, unproven := false }
  flame : Flame := {}
  dhwCount : Nat := 0
  tachoCount : Nat := 0
  dhwRing : List Nat := List.replicate 10 0
  tachoRing : List Nat := List.replicate 10 0
  disagree : Nat := 0
  circ : Nat := 0
  lowP : Bool := false
  highP : Bool := false
  flueHigh : Bool := false
  firstFrame : Bool := false
  pub : Published := {}
deriving DecidableEq, Repr

/-! ### Burner sequencer -/

/-- The start-inhibit set (R24). -/
structure Inhibit where
  blocking : Bool := false
  commitHold : Bool := false
  startUp : Bool := true
  antiCycle : Bool := false
deriving DecidableEq, Repr

/-- A purge timer that is running: time proven so far, and its length, both in 0.1 s (R29). -/
structure Purge where
  done : Nat
  length : Nat
deriving DecidableEq, Repr

/-- Burner sequencer. -/
structure Bs where
  state : BurnerState := .standby
  gas1 : Bool := false
  gas2 : Bool := false
  spark : Bool := false
  tPchk : Timer := none
  purgeLimit : Timer := none
  purge : Option Purge := none
  tPrespk : Timer := none
  tSafe : Timer := none
  tSpark : Timer := none
  tStab : Timer := none
  tPost : Timer := none
  lockPurge : Timer := none
  attempts : Nat := 0
  recycles : Nat := 0
  retry : Bool := false
  inhibit : Inhibit := {}
  falseFlame : Timer := none
  postGas : Timer := none
  ffRaised : Bool := false
  mismatch1 : Timer := none
  mismatch2 : Timer := none
  mark1 : Bool := false
  mark2 : Bool := false
  limitMark : Bool := false
  overheatMark : Bool := false
  fanDev : Nat := 0
  fanTarget : Nat := 0
  fanDuty : Nat := 0
deriving DecidableEq, Repr

/-! ### Demand block -/

/-- Live part of a zone record (R53), with the desired position DM holds for the zone's valve (R59). -/
structure Zone where
  setpoint : Int := 200
  temp : Value := none
  call : CallState := .unknown
  fallback : Bool := false
  lastDemand : Nat := 0
  valve : ValveState := .unknown
  travel : Timer := none
  travelLength : Nat := 0
  ack : Bool := false
  overrun : Bool := false
  desired : Position := .closed
deriving DecidableEq, Repr

/-- DHW draw record (R67). -/
structure Draw where
  state : DrawState := .idle
  startRun : Nat := 0
  endRun : Nat := 0
  overrun : Timer := none
deriving DecidableEq, Repr

/-- Diverter record (R68): `pos` is the position in clock ticks at the time `since`; `travel` is T. -/
structure Diverter where
  state : DiverterState := .toCh
  pos : Nat := 0
  travel : Nat := 0
  since : Nat := 0
deriving DecidableEq, Repr

/-- Demand block. -/
structure Dm where
  zones : List Zone := List.replicate 8 {}
  draw : Draw := {}
  diverter : Diverter := {}
  frost : Bool := false
  circuit : Circuit := .none
  active : Bool := false
  chStop : Bool := false
  offPhase : Bool := false
  dhwStop : Bool := false
  burn : Circuit := .none
  lastDeparture : Option Cause := none
  antiCycle : Timer := none
  pumpOverrun : Timer := none
  kick : Timer := none
  idle : Nat := 0
deriving DecidableEq, Repr

/-! ### Modulation unit -/

/-- Cycling record (section 4.6): lengths in s, time remaining in ms. -/
structure Cycle where
  state : CycleState := .inactive
  onLen : Nat := 0
  offLen : Nat := 0
  pendOn : Nat := 0
  pendOff : Nat := 0
  remain : Nat := 0
deriving DecidableEq, Repr

/-- Modulation unit. -/
structure Mu where
  ts : Value := none
  tz : List Value := List.replicate 8 none
  e : Value := none
  p : Value := none
  iAcc : Nat := 0
  uRaw : Option Nat := none
  ceiling : Option Nat := none
  ceilItem : Option Nat := none
  uC : Option Nat := none
  uS : Option Nat := none
  uOut : Nat := 0
  uPrev : Nat := 0
  fanOut : Nat := 0
  cyc : Cycle := {}
deriving DecidableEq, Repr

/-! ### Fault manager -/

/-- A record of the active fault list (R110). -/
structure Record where
  source : Source
  detail : Nat
  cls : FaultClass
  count : Nat
  first : Nat
  last : Nat
deriving DecidableEq, Repr

/-- Lockout record (R116). -/
structure Lockout where
  state : LockState := .none
  source : Option Source := none
  code : Nat := 0
  time : Nat := 0
deriving DecidableEq, Repr

/-- Where a reset request came from (R119). -/
inductive Origin where
  | node (a : Nat)
  | resetIn
deriving DecidableEq, Repr

/-- Last reset result (R119). -/
structure LastReset where
  result : Result
  rights : Rights
  origin : Origin
  time : Nat
deriving DecidableEq, Repr

/-- Entry of the fault history (R126). -/
structure Hist where
  seq : Nat
  source : Source
  code : Nat
  cls : FaultClass
  detail : Nat
  hours : Nat
  count : Nat
deriving DecidableEq, Repr

/-- Fault manager. Blocking timers hold the power-on time at which they expire; `cond` lists the sources whose condition mark is set; `esc` has one list per source number. -/
structure Fm where
  active : List Record := []
  cond : List Source := []
  blockNotStopped : Timer := none
  blockNoSpeed : Timer := none
  blockDeviation : Timer := none
  blockCirculation : Timer := none
  esc : List (List Nat) := List.replicate 26 []
  lockout : Lockout := {}
  writeOut : Bool := false
  resets : List Nat := []
  lastReset : Option LastReset := none
  ring : List (Option Hist) := List.replicate 32 none
  nextSlot : Nat := 0
  nextSeq : Nat := 0
  reLock : Bool := false
  reHist : Bool := false
  rePages : List Bool := List.replicate 8 false
  press : Timer := none
  armed : Bool := false
deriving DecidableEq, Repr

/-! ### Zone bus port -/

/-- Exchange in flight (R132 to R140). `out` are the bytes being sent, `sent` the bit timer's ticks at the time `sentAt`, `hold` the start of a hold. -/
structure Exchange where
  node : Nat
  kind : Nat
  replies : List Nat
  phase : Phase
  out : List Byte
  sent : Nat := 0
  sentAt : Nat := 0
  hold : Option Nat := none
  checkAt : Nat := 0
  reply : Timer := none
  replyExpired : Bool := false
  rxMax : Timer := none
  gap : Timer := none
deriving DecidableEq, Repr

/-- Last failure record (R141). -/
structure LastFail where
  reason : Reason
  node : Nat
  kind : Nat
  time : Nat
deriving DecidableEq, Repr

/-- Zone bus port. -/
structure Zp where
  port : PortState := .off
  settle : Timer := none
  clear : Timer := none
  fault : Timer := none
  exch : Option Exchange := none
  rx : List Byte := []
  rxCheck : Byte := 0
  clears : List Nat := []
  busFault : Bool := false
  lastFail : Option LastFail := none
deriving DecidableEq, Repr

/-! ### Poll engine -/

/-- Live part of a node record (R147). -/
structure NodeLive where
  presence : Presence := .unknown
  miss : Nat := 0
  lastGood : Option Nat := none
deriving DecidableEq, Repr

/-- An entry as read, with its status group (R155, R157): `blocks` are the head's and the joined entries' blocks, `final` the number of the group's last entry, `last` whether it is the round's last. -/
structure Taken where
  num : Nat
  entry : PollEntry
  blocks : List Nat
  final : Nat
  last : Bool
deriving DecidableEq, Repr

/-- Which request of PE's is in flight. -/
inductive InFlight where
  | entry
  | servicePoll
  | valve (zone : Nat) (pos : Position)
  | proxy
deriving DecidableEq, Repr

/-- An urgent service in progress (R168): the zones of the fixed set not yet sent, and whether the first LOW entry is still to be sent. -/
structure Service where
  zones : List Nat
  low : Bool
deriving DecidableEq, Repr

/-- Round record with the entry fault record (R153, R157). -/
structure Round where
  state : RoundState := .idle
  number : Nat := 0
  period : Timer := none
  cur : Option Taken := none
  pre : Option Taken := none
  passDone : Bool := false
  service : Option Service := none
  inFlight : Option InFlight := none
  faultsNow : Nat := 0
  faultsLast : Nat := 0
  lastFaultEntry : Option Nat := none
  lastFaultRound : Nat := 0
deriving DecidableEq, Repr

/-- What an urgent entry carries (R167). -/
inductive UrgentItem where
  | valve (zone : Nat) (pos : Position)
  | proxy (target item : Nat)
deriving DecidableEq, Repr

/-- An entry of the urgent queue, marked while its exchange is in flight. -/
structure Urgent where
  item : UrgentItem
  inFlight : Bool := false
deriving DecidableEq, Repr

/-- Poll engine. -/
structure Pe where
  nodes : List NodeLive := List.replicate 15 {}
  round : Round := {}
  urgent : List Urgent := []
  outdoor : Value := none
  outdoorAt : Option Nat := none
  leadCode : Nat := 0
  portReady : Bool := false
deriving DecidableEq, Repr

/-! ### Management unit -/

/-- The proxy slot (R184). `delivering` is set between a delivery and its closing outcome (R186). -/
structure Slot where
  state : SlotState := .empty
  target : Nat := 0
  item : Nat := 0
  result : Result := .done
  data : List Byte := []
  hold : Timer := none
  delivering : Bool := false
deriving DecidableEq, Repr

/-- An ANSWER formed, with the node it is for (R172). -/
structure Answer where
  node : Nat
  payload : List Byte
deriving DecidableEq, Repr

/-- Management unit. -/
structure Mg where
  slot : Slot := {}
  staging : List Byte := blankSafety
  modified : Bool := false
  commit : CommitState := .none
  failedPage : Option Nat := none
  inconsistent : Bool := false
  restart : Bool := false
  reSettings : Bool := false
  answer : Option Answer := none
deriving DecidableEq, Repr

/-! ### Store -/

/-- A waiting job (R194); `commit` marks a job of a commit sequence (R196). -/
structure Job where
  page : Nat
  commit : Bool
deriving DecidableEq, Repr

/-- The write in progress (R193): the copy taken at its start, the attempt, the end of its 6 ms; for pages 8 and 9 the slot (true is B) and write number; for page 8 the state the copy carries. -/
structure Write where
  page : Nat
  copy : List Byte
  attempt : Nat
  due : Nat
  commit : Bool
  slotB : Bool
  number : Nat
  carried : LockState
deriving DecidableEq, Repr

/-- Store, with the RAM images of the pages (R191). The images of pages 8, 9 and 27 to 34 are FM's. -/
structure St where
  safety : List Byte := blankSafety
  settings : List Byte := defaultSettings
  curve : List Byte := defaultCurve
  zones : List Byte := defaultZones
  nodes : List Byte := defaultNodes
  poll : List Byte := defaultPoll
  faultCodes : List Byte := defaultFaultCodes
  counters : List Nat := List.replicate 7 0
  jobs : List Job := []
  lockJob : Bool := false
  write : Option Write := none
  storeFault : Bool := false
  lastDrop : Option Nat := none
  dropAt : Option Nat := none
  countersPending : Bool := false
  loaded : LoadOutcome := .blank
  paramFault : Bool := false
deriving DecidableEq, Repr

/-- The non-volatile store memory (R191, R192). `cells` holds (address, byte) with address 32 × physical page + offset, rising, no byte equal to an erased one; `status` holds (physical page, status), rising, none blank; `slotNo` the write numbers of slots 8A, 9A, 8B, 9B. Physical pages 128 and 129 are slots B of pages 8 and 9 (log 20). -/
structure Memory where
  cells : List Host.Cell := []
  status : List (Nat × PageStatus) := []
  slotNo : List Nat := [0, 0, 0, 0]
deriving DecidableEq, Repr

/-! ### The whole -/

/-- The state of the part. -/
structure State where
  pending : List Instr := []
  power : Power := .loading
  clock : Clock := {}
  lines : Lines := {}
  latch : Latch := {}
  mp : Mp := {}
  bs : Bs := {}
  dm : Dm := {}
  mu : Mu := {}
  fm : Fm := {}
  zp : Zp := {}
  pe : Pe := {}
  mg : Mg := {}
  st : St := {}
  nv : Memory := {}
  free : Nat := 0
deriving DecidableEq, Repr

/-- The part right after power-on of a new part: every volatile state at its power-on value (R3, R51, R79, R104, R130, R146, R170, R190, R201), the store memory blank, the power-up load not yet ended, no command waiting (log 5). -/
def State.reset : State := {}

/-- What a loss of power or a RESTART leaves: the queue of commands, the lines, the store memory and the free-value counter; everything else at its power-on value (R189, R195, R198). -/
def State.volatileReset (s : State) (p : Power) : State :=
  { pending := s.pending, power := p, clock := s.clock, lines := s.lines, nv := s.nv, free := s.free }

end Sys2Proof.Machine
end

