-- ==== Sys2Proof/Machine/Ops.lean ====
section
/-! DEFINITION. Operations shared by the blocks: block updates, the clock, the store memory, the store queue, counters and parameters. -/

namespace Sys2Proof.Machine

/-! ### Updates of one block -/

def State.onClock (s : State) (f : Clock → Clock) : State := { s with clock := f s.clock }
def State.onLines (s : State) (f : Lines → Lines) : State := { s with lines := f s.lines }
def State.onMp (s : State) (f : Mp → Mp) : State := { s with mp := f s.mp }
def State.onBs (s : State) (f : Bs → Bs) : State := { s with bs := f s.bs }
def State.onDm (s : State) (f : Dm → Dm) : State := { s with dm := f s.dm }
def State.onMu (s : State) (f : Mu → Mu) : State := { s with mu := f s.mu }
def State.onFm (s : State) (f : Fm → Fm) : State := { s with fm := f s.fm }
def State.onZp (s : State) (f : Zp → Zp) : State := { s with zp := f s.zp }
def State.onPe (s : State) (f : Pe → Pe) : State := { s with pe := f s.pe }
def State.onMg (s : State) (f : Mg → Mg) : State := { s with mg := f s.mg }
def State.onSt (s : State) (f : St → St) : State := { s with st := f s.st }
def State.onRound (s : State) (f : Round → Round) : State := s.onPe fun p => { p with round := f p.round }
def State.onCyc (s : State) (f : Cycle → Cycle) : State := s.onMu fun m => { m with cyc := f m.cyc }

/-! ### Clock and timers -/

/-- The clock after `dt` ticks. -/
def State.advance (s : State) (dt : Nat) : State := s.onClock fun c => { c with now := c.now + dt }

/-- The clock brought forward to a time; it never goes back. -/
def State.reach (s : State) (t : Nat) : State := s.onClock fun c => { c with now := max c.now t }

/-- The deadline of a timer started now. -/
def State.deadline (s : State) (len : Nat) : Timer := some (s.clock.now + len)

/-- Milliseconds left on a timer; 0 when it is not running (section 10.4). -/
def State.left (s : State) (t : Timer) : Nat :=
  match t with
  | some d => (d - s.clock.now) / Config.ms
  | none => 0

/-- The expiry of a timer: when it runs, the clock is at its deadline and `f` is taken; when it does not run, nothing happens (log 2). -/
def State.expire (s : State) (t : Timer) (f : State → State) : State :=
  match t with
  | some d => f (s.reach d)
  | none => s

/-- Power-on time, in seconds: the power-on seconds counter (R200). -/
def State.time (s : State) : Nat := s.st.counters.getD 0 0

/-- Time `t` lies within the last `w` seconds at `now`; a time later than now does too (R114, R120). -/
def withinLast (now w t : Nat) : Bool := decide (now < t ∨ now - t < w)

/-! ### Lists by index -/

/-- A list with the element at `i` changed by `f`; unchanged beyond its end. -/
def updateAt {α : Type} : List α → Nat → (α → α) → List α
  | [], _, _ => []
  | x :: r, 0, f => f x :: r
  | x :: r, i + 1, f => x :: updateAt r i f

/-- Live record of zone z. -/
def State.zone (s : State) (z : Nat) : Zone := s.dm.zones.getD z {}

/-- Zone z's live record changed by `f`. -/
def State.onZone (s : State) (z : Nat) (f : Zone → Zone) : State :=
  s.onDm fun d => { d with zones := updateAt d.zones z f }

/-- Live record of the node at address a. -/
def State.nodeLive (s : State) (a : Nat) : NodeLive := s.pe.nodes.getD (a - 1) {}

/-- The live record of the node at address a changed by `f`. -/
def State.onNode (s : State) (a : Nat) (f : NodeLive → NodeLive) : State :=
  s.onPe fun p => { p with nodes := updateAt p.nodes (a - 1) f }

/-! ### Store memory (R191, R192) -/

/-- An erased byte (R191). -/
def erasedByte : Byte := 0xFF

/-- The byte listed at an address; an unlisted address reads erased. -/
def cellRead : List Host.Cell → Nat → Byte
  | [], _ => erasedByte
  | (a, b) :: r, x => if x = a then b else if x < a then erasedByte else cellRead r x

/-- The cells with a byte written; an erased byte is not listed. -/
def cellWrite : List Host.Cell → Nat → Byte → List Host.Cell
  | [], x, v => if v = erasedByte then [] else [(x, v)]
  | (a, b) :: r, x, v =>
    if x < a then (if v = erasedByte then (a, b) :: r else (x, v) :: (a, b) :: r)
    else if x = a then (if v = erasedByte then r else (a, v) :: r)
    else (a, b) :: cellWrite r x v

/-- The cells with bytes written from an address on. -/
def cellsWrite : List Host.Cell → Nat → List Byte → List Host.Cell
  | m, _, [] => m
  | m, x, v :: vs => cellsWrite (cellWrite m x v) (x + 1) vs

/-- The status listed for a physical page; an unlisted page is blank. -/
def statusRead : List (Nat × PageStatus) → Nat → PageStatus
  | [], _ => .blank
  | (a, b) :: r, x => if x = a then b else if x < a then .blank else statusRead r x

/-- The statuses with one physical page's status set; a blank page is not listed. -/
def statusWrite : List (Nat × PageStatus) → Nat → PageStatus → List (Nat × PageStatus)
  | [], x, v => if v = .blank then [] else [(x, v)]
  | (a, b) :: r, x, v =>
    if x < a then (if v = .blank then (a, b) :: r else (x, v) :: (a, b) :: r)
    else if x = a then (if v = .blank then r else (a, v) :: r)
    else (a, b) :: statusWrite r x v

/-- Cells strictly rising in address above `lo` (all addresses ≥ `lo`), none erased. -/
def cellsWf : Nat → List Host.Cell → Bool
  | _, [] => true
  | lo, (a, b) :: r => decide (lo ≤ a) && decide (b ≠ erasedByte) && cellsWf (a + 1) r

/-- Statuses strictly rising in page, none blank. -/
def statusWf : Nat → List (Nat × PageStatus) → Bool
  | _, [] => true
  | lo, (a, b) :: r => decide (lo ≤ a) && decide (b ≠ .blank) && statusWf (a + 1) r

/-- The canonical form of the store memory. -/
def Memory.wf (m : Memory) : Bool := cellsWf 0 m.cells && statusWf 0 m.status

/-- Whether a physical page is torn (R191); of a dropped page this is a free value (R193, log 10). -/
def Memory.torn (m : Memory) (page : Nat) : Bool :=
  match statusRead m.status page with
  | .torn _ => true
  | .dropped k => Config.dropLeavesTorn k
  | .blank => false
  | .complete => false

/-- Whether a physical page is complete (R191). -/
def Memory.complete (m : Memory) (page : Nat) : Bool :=
  match statusRead m.status page with
  | .complete => true
  | .torn _ => false
  | .dropped _ => false
  | .blank => false

/-- One byte of the store memory. The bytes of a torn page are free values (log 10). -/
def Memory.read (m : Memory) (a : Nat) : Byte :=
  match statusRead m.status (a / 32) with
  | .torn k => Config.tornByte k a
  | .dropped k => if Config.dropLeavesTorn k then Config.tornByte k a else erasedByte
  | .blank => cellRead m.cells a
  | .complete => cellRead m.cells a

/-- The 32 bytes of a physical page. -/
def Memory.readPage (m : Memory) (page : Nat) : List Byte := (List.range 32).map fun i => m.read (32 * page + i)

/-- The memory with a physical page erased, programmed with 32 bytes and its completion flag set (R191, R193). -/
def Memory.program (m : Memory) (page : Nat) (bs : List Byte) : Memory :=
  { m with cells := cellsWrite m.cells (32 * page) (bs.take 32), status := statusWrite m.status page .complete }

/-- The memory with a physical page whose contents are lost, of the given status. -/
def Memory.spoil (m : Memory) (page : Nat) (v : PageStatus) : Memory :=
  { m with cells := cellsWrite m.cells (32 * page) (List.replicate 32 erasedByte), status := statusWrite m.status page v }

/-- Physical page of a page's slot: pages other than 8 and 9 have one slot; slots B are the model's pages 128 and 129 (R192, log 20). -/
def physPage (page : Nat) (slotB : Bool) : Nat :=
  if (page = 8 ∨ page = 9) ∧ slotB then 120 + page else page

/-- Index of a slot's write number. -/
def slotIndex (page : Nat) (slotB : Bool) : Nat := (page - 8) + (if slotB then 2 else 0)

/-- The write number of a slot of page 8 or 9. -/
def Memory.slotNumber (m : Memory) (page : Nat) (slotB : Bool) : Nat := m.slotNo.getD (slotIndex page slotB) 0

/-- The slot holding the newest complete copy of page 8 or 9 (R192): none, or whether it is slot B. -/
def Memory.newest (m : Memory) (page : Nat) : Option Bool :=
  match m.complete (physPage page false), m.complete (physPage page true) with
  | false, false => none
  | true, false => some false
  | false, true => some true
  | true, true =>
    if m.slotNumber page false = (m.slotNumber page true + 1) % 256 then some false
    else if m.slotNumber page true = (m.slotNumber page false + 1) % 256 then some true
    else some false

/-- The slot and write number that a write of page 8 or 9 goes to (R192). -/
def Memory.target (m : Memory) (page : Nat) : Bool × Nat :=
  match m.newest page with
  | none => (false, 0)
  | some b => (!b, (m.slotNumber page b + 1) % 256)

/-! ### Store queue (R194) -/

/-- Whether a job for the page is waiting. -/
def State.jobWaiting (s : State) (page : Nat) : Bool :=
  if page = 8 then s.st.lockJob else s.st.jobs.any fun j => j.page == page

/-- Free places of the store queue. -/
def State.freePlaces (s : State) : Nat := Config.queuePlaces - s.st.jobs.length

/-- Whether an offer of a job for the page is TAKEN; otherwise it is FULL. -/
def State.canTake (s : State) (page : Nat) : Bool :=
  decide (page = 8) || s.jobWaiting page || decide (s.st.jobs.length < Config.queuePlaces)

/-- An offer of a job: merged, added, or, when FULL, without effect. -/
def State.offer (s : State) (page : Nat) : State :=
  if page = 8 then s.onSt fun t => { t with lockJob := true }
  else if s.jobWaiting page || !s.canTake page then s
  else s.onSt fun t => { t with jobs := t.jobs ++ [{ page := page, commit := false }] }

/-- An offer of the counters job by ST or FM: FULL sets the counters-pending mark (R200). DESIGN CHOICE: an offer that is taken leaves a mark that stands, until the re-offer at the end of a write (log 34). -/
def State.offerCounters (s : State) : State :=
  if s.canTake 10 then s.offer 10 else s.onSt fun t => { t with countersPending := true }

/-- Counter `i` increased by 1, held at its largest value (R200). -/
def State.bump (s : State) (i : Nat) : State :=
  s.onSt fun t => { t with counters := updateAt t.counters i fun n => min Config.counterMax (n + 1) }

/-! ### Parameters -/

/-- Whether the live safety block is valid: it loaded VALID, or a commit has completed since (R8, R199). -/
def State.liveValid (s : State) : Bool := !s.st.paramFault

/-- BS's overheat limit: T_limit, or the built-in 950 while the live block is not valid (R21). -/
def State.tLimit (s : State) : Nat := if s.liveValid then sbTlimit s.st.safety else 950

/-- MU's parameters of the safety block, or the built-in ones of R81. -/
def State.mMin (s : State) : Nat := if s.latch.valid then sbMmin s.latch.safety else 150
def State.pIgn (s : State) : Nat := if s.latch.valid then sbPign s.latch.safety else 300
def State.prated (s : State) : Nat := if s.latch.valid then sbPrated s.latch.safety else 30000
def State.fs (s : State) : Nat := if s.latch.valid then sbFs s.latch.safety else 800
def State.fe (s : State) : Nat := if s.latch.valid then sbFe s.latch.safety else 950
def State.fanMapPoints (s : State) : List (Int × Int) :=
  if s.latch.valid then sbFanMap s.latch.safety else defaultFanMap

/-- MP's characteristics and thresholds, or the built-in ones of R8. -/
def State.ntc (s : State) : List (Int × Int) := if s.latch.valid then sbNtc s.latch.safety else defaultNtc
def State.pressureTable (s : State) : List (Int × Int) := if s.latch.valid then sbPressure s.latch.safety else defaultPressure
def State.flameOn (s : State) : Nat := if s.latch.valid then sbFlameOn s.latch.safety else 15
def State.flameOff (s : State) : Nat := if s.latch.valid then sbFlameOff s.latch.safety else 8
def State.lowPressure (s : State) : Nat := if s.latch.valid then sbLowP s.latch.safety else 50
def State.recoverPressure (s : State) : Nat := if s.latch.valid then sbRecoverP s.latch.safety else 70
def State.flueLimit (s : State) : Nat := if s.latch.valid then sbFl s.latch.safety else 1000

/-- map(u) of a fan map (R101). -/
def fanMap (pts : List (Int × Int)) (u : Nat) : Nat := (interpolate pts u).toNat

/-- BS's map(p_ign), from the live safety block (R31). -/
def State.ignitionSpeed (s : State) : Nat := fanMap (sbFanMap s.st.safety) (sbPign s.st.safety)

/-! ### Nodes and zones -/

/-- Kind of the node at an address; an address that does not exist has none. -/
def State.kindOf (s : State) (a : Nat) : NodeKind := if 1 ≤ a ∧ a ≤ 15 then nodeKind s.st.nodes a else .none

/-- Rights of the node at an address (R147). -/
def State.rightsOf (s : State) (a : Nat) : Rights := (s.kindOf a).rights

/-- Whether a record of the NODES image is a room unit naming the zone. -/
def namesZone (nodes : List Byte) (z a : Nat) : Bool := nodeKind nodes a == .roomUnit && nodeZone nodes a == z

/-- Whether a zone has a room unit, under the given images (R53). -/
def hasRoomUnit (zones nodes : List Byte) (z : Nat) : Bool := zoneEnabled zones z && addresses.any (namesZone nodes z)

/-- Whether zone z has a valve (R58). -/
def State.hasValve (s : State) (z : Nat) : Bool := zoneValveNode s.st.zones z != 0

/-- A channel's published value: ABSENT unless VALID (R2). -/
def Channel.value (c : Channel) : Value := if c.validity = .valid then c.filtered else none

/-! ### Comparisons with values that may be ABSENT (R6) -/

/-- v < x; not satisfied when v is ABSENT. -/
def Value.lt (v : Value) (x : Int) : Bool :=
  match v with
  | some y => decide (y < x)
  | none => false

/-- v ≥ x; not satisfied when v is ABSENT. -/
def Value.ge (v : Value) (x : Int) : Bool :=
  match v with
  | some y => decide (x ≤ y)
  | none => false

/-- v > x; not satisfied when v is ABSENT. -/
def Value.gt (v : Value) (x : Int) : Bool :=
  match v with
  | some y => decide (x < y)
  | none => false

/-- The difference of two values; ABSENT when either is. -/
def Value.minus (v w : Value) : Value :=
  match v, w with
  | some x, some y => some (x - y)
  | _, _ => none

/-! ### Outputs that follow from the state -/

/-- The lead fault's record: of the highest class, the one standing earliest (R113). -/
def leadOf (l : List Record) : Option Record :=
  match l.find? fun r => r.cls == .lockout with
  | some r => some r
  | none =>
    match l.find? fun r => r.cls == .blocking with
    | some r => some r
    | none => l.head?

/-- The record of a source in the active fault list. -/
def State.record (s : State) (src : Source) : Option Record := s.fm.active.find? fun r => r.source == src

/-- Reasons other than a kick for the pump to run (R75, R77). -/
def State.pumpWanted (s : State) : Bool :=
  s.dm.circuit.heating || s.dm.draw.state != .idle || s.dm.pumpOverrun.isSome

/-- PUMP_EN (R75). -/
def State.pumpEn (s : State) : Bool :=
  (s.pumpWanted || s.dm.kick.isSome) && (s.record .lowPressure).isNone

/-- PUMP_PWM in percent (R75). -/
def State.pumpPwm (s : State) : Nat :=
  if s.pumpEn then (if s.dm.draw.state = .idle then setPumpSpeed s.st.settings else 100) else 0

/-- DIV_A and DIV_B (R68). The drive to CH begins at the load-complete report: before it, and without power, both are off. -/
def State.divA (s : State) : Bool := s.power == .on && s.dm.diverter.state == .toDhw
def State.divB (s : State) : Bool := s.power == .on && s.dm.diverter.state == .toCh

/-- Bus supply (R131). -/
def State.busSupply (s : State) : Bool :=
  s.zp.port == .settling || s.zp.port == .ready || s.zp.port == .exchange

/-- Target of the heat request record (R71): Tdhw as MU holds it from the last frame (R81). DESIGN CHOICE: the Ts that stage 1 forms at a change to CH between frames (R88) is delivered at once, where R84 names the frames only (log 30). -/
def State.target (s : State) : Value :=
  match s.dm.circuit with
  | .ch => s.mu.ts
  | .frost => s.mu.ts
  | .dhw => some (setTdhw s.latch.settings)
  | .none => none

/-- The active field of the heat request record (R71). -/
def activeOf (d : Dm) : Bool :=
  d.circuit != .none && !(d.circuit == .ch && (d.chStop || d.offPhase)) && !(d.circuit == .dhw && d.dhwStop)

/-- A burner state is firing while the gas is open (R22). -/
def firing (b : Bs) : Bool :=
  (b.state == .ignition && b.gas1 && b.gas2) || b.state == .stabilise || b.state == .run

end Sys2Proof.Machine
end

