-- ==== Sys2Proof/Machine/Flags.lean ====
section
/-! DEFINITION. The start-inhibit set (R24, R25) and the marks that BS, FM and MP keep as conditions. -/

namespace Sys2Proof.Machine

/-- BLOCKING added or removed (R24, R109). -/
def State.setBlocking (s : State) (v : Bool) : State := s.onBs fun b => { b with inhibit := { b.inhibit with blocking := v } }

/-- COMMIT_HOLD added or removed (R24). -/
def State.setCommitHold (s : State) (v : Bool) : State := s.onBs fun b => { b with inhibit := { b.inhibit with commitHold := v } }

/-- START_UP added or removed (R24). -/
def State.setStartUp (s : State) (v : Bool) : State := s.onBs fun b => { b with inhibit := { b.inhibit with startUp := v } }

/-- ANTI_CYCLE added or removed (R24). -/
def State.setAntiCycle (s : State) (v : Bool) : State := s.onBs fun b => { b with inhibit := { b.inhibit with antiCycle := v } }

/-- Whether some reason of the set applies to the heat request (R25). -/
def State.inhibited (s : State) : Bool :=
  s.bs.inhibit.blocking || s.bs.inhibit.commitHold || s.bs.inhibit.startUp
    || (s.bs.inhibit.antiCycle && s.dm.circuit.heating && !s.bs.retry)

/-- The set as one byte, a bit for each member in listed order (R24, section 10.4). -/
def Inhibit.code (i : Inhibit) : Nat :=
  (if i.blocking then 1 else 0) + (if i.commitHold then 2 else 0) + (if i.startUp then 4 else 0)
    + (if i.antiCycle then 8 else 0)

/-- FM's condition mark of a source set (R106). -/
def State.setCond (s : State) (src : Source) : State :=
  s.onFm fun f => { f with cond := if f.cond.contains src then f.cond else f.cond ++ [src] }

/-- FM's condition mark of a source cleared (R106). -/
def State.clearCond (s : State) (src : Source) : State := s.onFm fun f => { f with cond := f.cond.filter fun x => x != src }

/-- The blocking timer of a source, in power-on time (R106). -/
def Fm.blockTimer (f : Fm) (src : Source) : Timer :=
  match src with
  | .fanNotStopped => f.blockNotStopped
  | .fanNoSpeed => f.blockNoSpeed
  | .fanDeviation => f.blockDeviation
  | .noCirculation => f.blockCirculation
  | .ignitionFailure | .flameLoss | .falseFlame | .overheat | .limitStat | .gasRelay | .flowDisagree | .flowSensor
  | .paramIntegrity | .lowPressure | .highPressure | .pressureSensor | .flueHigh | .flueSensor | .returnSensor
  | .dhwSensor | .coldSensor | .outdoorSensor | .nodeAbsent | .zoneValve | .busFault | .storeFault => none

/-- The blocking timer of a source set or stopped; the other sources have none. -/
def Fm.setBlockTimer (f : Fm) (src : Source) (t : Timer) : Fm :=
  match src with
  | .fanNotStopped => { f with blockNotStopped := t }
  | .fanNoSpeed => { f with blockNoSpeed := t }
  | .fanDeviation => { f with blockDeviation := t }
  | .noCirculation => { f with blockCirculation := t }
  | .ignitionFailure | .flameLoss | .falseFlame | .overheat | .limitStat | .gasRelay | .flowDisagree | .flowSensor
  | .paramIntegrity | .lowPressure | .highPressure | .pressureSensor | .flueHigh | .flueSensor | .returnSensor
  | .dhwSensor | .coldSensor | .outdoorSensor | .nodeAbsent | .zoneValve | .busFault | .storeFault => f

end Sys2Proof.Machine
end

