-- ==== Sys2Proof/Machine/Modulation.lean ====
section
/-! DEFINITION. The modulation unit's computations (chapter 4): stages 1 to 4, the integrator presets, and what MU does at BS's reports. MU works with the tables as of the last frame (R81). -/

namespace Sys2Proof.Machine

/-! ### Stage 1: flow target -/

/-- A zone contributes to the CH target (R83). -/
def State.contributes (s : State) (z : Nat) : Bool :=
  zoneEnabled s.st.zones z && (s.zone z).call == .call && (s.zone z).valve == .opened

/-- The room correction of a zone (R83). -/
def roomCorrection (kr : Nat) (z : Zone) : Int :=
  match z.temp with
  | some t => if z.fallback then 0 else clamp (-150) 150 (quot (kr * (z.setpoint - t)) 10)
  | none => 0

/-- Tz of a zone: ABSENT when it does not contribute (R83). The offset is that of the last frame, so that a changed one is read from the next (R57), also where the change to CH computes stage 1 between frames (R88). -/
def State.zoneTarget (s : State) (z : Nat) : Value :=
  if s.contributes z then
    some (interpolate (curvePoints s.latch.curve) s.mp.pub.outdoor + zoneOffset s.latch.zones z
      + roomCorrection (setKr s.latch.settings) (s.zone z))
  else none

/-- The largest of the values that are not ABSENT. -/
def largest : List Value → Value
  | [] => none
  | none :: r => largest r
  | some x :: r =>
    match largest r with
    | some y => some (max x y)
    | none => some x

/-- Stage 1 for the selected circuit (R82 to R84). With CH and no contributing zone Ts keeps its value. -/
def muStage1 (s : State) : State :=
  let tz := zoneNumbers.map s.zoneTarget
  match s.dm.circuit with
  | .ch =>
    s.onMu fun m =>
      { m with
        tz := tz
        ts := match largest tz with
          | some t => some (clamp (setTchMin s.latch.settings) (setTchMax s.latch.settings) t)
          | none => m.ts }
  | .frost => s.onMu fun m => { m with tz := tz, ts := some 300 }
  | .dhw => s
  | .none => s

/-! ### Stage 3: ceiling -/

/-- The flue derate (R91, item 2). -/
def State.flueItem (s : State) : Int :=
  match s.mp.flue.value with
  | none => s.mMin
  | some f =>
    if f < s.fs then 1000
    else if f < s.fe then 1000 - quot ((f - s.fs) * (1000 - s.mMin)) (s.fe - s.fs)
    else s.mMin

/-- The four limits of the ceiling, in item order (R91). -/
def State.ceilingItems (s : State) : List Int :=
  let dhw := s.dm.circuit == .dhw
  [ if dhw then 1000 else (setCeiling s.latch.settings : Int),
    s.flueItem,
    if dhw && (s.mp.pub.flowCtl.isNone || Value.ge s.mp.pub.flowCtl (setDhwPrimaryMax s.latch.settings))
      then (s.mMin : Int) else 1000,
    if s.dm.diverter.state = (if dhw then DiverterState.atDhw else DiverterState.atCh) then 1000 else (s.mMin : Int) ]

/-- The smallest item with its number, the lowest-numbered of equals; items are numbered from `n`. -/
def smallestItem : Nat → List Int → Option (Int × Nat)
  | _, [] => none
  | n, x :: r =>
    match smallestItem (n + 1) r with
    | some (y, k) => if y < x then some (y, k) else some (x, n)
    | none => some (x, n)

/-- The ceiling, never below m_min, with the item that set it (R91). -/
def State.ceilingOf (s : State) : Nat × Nat :=
  match smallestItem 1 s.ceilingItems with
  | some (x, k) => (max s.mMin x.toNat, k)
  | none => (s.mMin, 0)

/-! ### Stage 2: raw output -/

/-- e = Ts − flow_ctl, clamped; ABSENT when either is (R86). -/
def State.errorOf (s : State) : Value :=
  match Value.minus s.mu.ts s.mp.pub.flowCtl with
  | some d => some (clamp (-500) 500 d)
  | none => none

/-- P = Kp × e / 10 (R86). -/
def State.proportional (s : State) (e : Int) : Int := quot (setKp s.latch.settings * e) 10

/-- The integration step of a frame (R87). -/
def State.integrate (s : State) (e : Int) (ceiling : Nat) : Nat :=
  let sum := s.proportional e + quot s.mu.iAcc 100
  if s.bs.state != .run || s.dm.circuit != .ch || s.mu.cyc.state == .offPhase
      || (decide ((ceiling : Int) ≤ sum) && decide (0 < e)) || (decide (sum ≤ 0) && decide (e < 0)) then s.mu.iAcc
  else (clamp 0 100000 (s.mu.iAcc + setKi s.latch.settings * e)).toNat

/-- The raw output for DHW (R89). -/
def State.dhwOutput (s : State) : Nat :=
  let set := s.latch.settings
  let tdhw : Int := setTdhw set
  let cold : Int := match s.mp.coldIn.value with
    | some c => c
    | none => setTcoldFix set
  let dT := (clamp 0 700 (tdhw - cold)).toNat
  let pW := (s.mp.pub.q * dT * 4186 + 3000) / 6000
  let ff := quotNat (pW * 1000 + s.prated / 2) s.prated
  let trim : Int := match s.mp.dhwOut.value with
    | some t => quot (setKd set * (tdhw - t)) 10
    | none => 0
  (clamp 0 1000 (ff + trim)).toNat

/-- Stages 1 to 4 of the frame (R80). Stage 3's limits use no stage 2 result, so the ceiling is formed first (R87). DESIGN CHOICE: a value whose stage did not run in this frame keeps its last one, as R104 keeps the stage values: u_s outside RUN, e and P in a DHW or FROST frame (log 30). -/
def muCompute (s0 : State) : State :=
  let s := muStage1 s0
  let c := s.ceilingOf
  let e := if s.dm.circuit = .ch then s.errorOf else none
  let p := e.map s.proportional
  let iAcc := match e with
    | some x => s.integrate x c.1
    | none => s.mu.iAcc
  let uRaw := match s.dm.circuit with
    | .ch =>
      match p with
      | some x => (clamp 0 1000 (x + quot iAcc 100)).toNat
      | none => s.mMin
    | .dhw => s.dhwOutput
    | .frost => s.mMin
    | .none => s.mMin
  let uC := min uRaw c.1
  s.onMu fun m =>
    { m with
      e := if s.dm.circuit = .ch then e else m.e
      p := if s.dm.circuit = .ch then p else m.p
      iAcc := iAcc
      ceiling := some c.1
      ceilItem := some c.2
      uRaw := some uRaw
      uC := some uC
      uS := if s.bs.state = .run then some (min uC (m.uPrev + 20)) else m.uS }

/-! ### Stage 5: lengths of the low-load cycle -/

/-- Pending on length for a raw output (R95), in s. -/
def pendingOn (pc mMin uRaw : Nat) : Nat :=
  if uRaw < mMin then min pc (max 60 (pc * uRaw / mMin)) else pc

/-- The pending lengths recomputed from the frame's raw output (R95). -/
def muPending (s : State) : State :=
  let pc := setPc s.latch.settings
  let on := pendingOn pc s.mMin (s.mu.uRaw.getD 0)
  s.onCyc fun c => { c with pendOn := on, pendOff := pc - on }

/-- The record enters ON_PHASE with the pending lengths latched (R95, R97). -/
def onPhaseStart (s : State) : State :=
  s.onCyc fun c => { c with state := .onPhase, onLen := c.pendOn, offLen := c.pendOff, remain := 1000 * c.pendOn }

/-- The record enters OFF_PHASE with the latched off length (R96). -/
def offPhaseStart (s : State) : State := s.onCyc fun c => { c with state := .offPhase, remain := 1000 * c.offLen }

/-- The record becomes INACTIVE (R98). -/
def cycleInactive (s : State) : State := s.onCyc fun c => { c with state := .inactive }

/-! ### Presets and reports of BS -/

/-- The preset of I_acc from an output (R88). When P cannot be formed the result is a free value (log 10). -/
def muPreset (u : Nat) (s : State) : State :=
  match s.errorOf with
  | some e =>
    s.onMu fun m => { m with iAcc := (clamp 0 100000 (((u : Int) - s.proportional e) * 100)).toNat }
  | none =>
    { s.onMu (fun m => { m with iAcc := clampNat 0 100000 (Config.presetUnformed s.free) }) with free := s.free + 1 }

/-- The fan speed target set; a target of 0 sets the duty to 0 (R46). -/
def setFanTarget (t : Nat) (s : State) : State :=
  s.onBs fun b => { b with fanTarget := t, fanDuty := if t = 0 then 0 else b.fanDuty }

/-- The entry output delivered at a RUN entry (R93). DEDUCED: it is u_out too, as the low-load table of section 4.9 shows at 623.0 s (log 30). -/
def entryOutput (u : Nat) (s : State) : State :=
  setFanTarget (fanMap s.fanMapPoints u)
    (s.onMu fun m => { m with uPrev := u, uOut := u, fanOut := fanMap s.fanMapPoints u })

/-- MU at BS's report of a RUN entry (R88, R93, R97). Before any frame has been computed there is no ceiling, and the entry output is p_ign. -/
def muRunEntry (s : State) : State :=
  let ordinary := min s.pIgn (s.mu.ceiling.getD s.pIgn)
  match s.mu.cyc.state with
  | .offPhase =>
    if 0 < s.mu.cyc.pendOff then entryOutput s.mMin (onPhaseStart s)
    else entryOutput ordinary (cycleInactive s)
  | .inactive =>
    if s.dm.circuit = .ch then entryOutput ordinary (muPreset s.pIgn s) else entryOutput ordinary s
  | .onPhase => entryOutput ordinary s

/-- MU at BS's report of a STABILISE entry (R93). -/
def muStabiliseEntry (s : State) : State := s.onMu fun m => { m with uPrev := s.pIgn }

/-- MU at BS's report of a return to STANDBY or POST_PURGE (R98, R104). -/
def muReturn (s : State) : State :=
  if s.mu.cyc.state = .offPhase then s.onMu fun m => { m with uPrev := 0, uOut := 0 }
  else cycleInactive (s.onMu fun m => { m with iAcc := 0, uPrev := 0, uOut := 0 })

/-- MU at BS's report of an entry to LOCKOUT: it releases the OFF_PHASE mark if it is set (R98, R104). A release can only make the request active. -/
def muLockout (s : State) : State :=
  let s := if s.mu.cyc.state = .inactive then s else s.onDm fun d => { d with offPhase := false }
  let s := s.onDm fun d => { d with active := activeOf d || d.active }
  cycleInactive (s.onMu fun m => { m with iAcc := 0, uPrev := 0, uOut := 0 })

/-- MU at a change of the selected circuit from `old`, the new circuit standing in the record (R98, R103). -/
def muCircuit (old : Circuit) (s : State) : State :=
  let inRun := s.bs.state == .run
  match old, s.dm.circuit with
  | .ch, _ => if inRun then cycleInactive s else cycleInactive (s.onMu fun m => { m with iAcc := 0 })
  | .dhw, .ch => if inRun then muPreset s.mu.uPrev (muStage1 s) else s
  | .frost, .ch => if inRun then muPreset s.mu.uPrev (muStage1 s) else s
  | _, .none => if inRun then s else cycleInactive (s.onMu fun m => { m with iAcc := 0 })
  | _, _ => s

end Sys2Proof.Machine
end

