-- ==== Sys2Proof/Machine/Burner.lean ====
section
/-! DEFINITION. The burner sequencer's operations (chapter 2): safe-off, changes of burner state with their reports to DM and MU (R50), fault stop, lockout entry and withdrawal. -/

namespace Sys2Proof.Machine

/-! ### Relays -/

/-- A relay's command. -/
def Bs.command (b : Bs) (r : Relay) : Bool :=
  match r with
  | .gas1 => b.gas1
  | .gas2 => b.gas2

/-- A relay's readback. -/
def Lines.readback (l : Lines) (r : Relay) : Bool :=
  match r with
  | .gas1 => l.relay1Fb
  | .gas2 => l.relay2Fb

def Bs.mismatch (b : Bs) (r : Relay) : Timer :=
  match r with
  | .gas1 => b.mismatch1
  | .gas2 => b.mismatch2

def Bs.mark (b : Bs) (r : Relay) : Bool :=
  match r with
  | .gas1 => b.mark1
  | .gas2 => b.mark2

/-- A relay's mismatch timer and mark set. -/
def setMismatch (r : Relay) (t : Timer) (m : Bool) (s : State) : State :=
  s.onBs fun b =>
    match r with
    | .gas1 => { b with mismatch1 := t, mark1 := m }
    | .gas2 => { b with mismatch2 := t, mark2 := m }

/-- A relay's readback compared with its command (R43): agreement stops the timer and clears the mark; a disagreement that begins starts the timer. -/
def mismatchSync (r : Relay) (s : State) : State :=
  if s.lines.readback r = s.bs.command r then setMismatch r none false s
  else if s.bs.mark r || (s.bs.mismatch r).isSome then s
  else setMismatch r (s.deadline Config.tMismatch) false s

/-- Both relays compared. -/
def relaySync (s : State) : State := mismatchSync .gas2 (mismatchSync .gas1 s)

/-! ### Safe-off -/

/-- Safe-off (R22). A safe-off that closes the gas of a firing state opens the post-gas window, during which the false-flame timer is held at 0 (R42). -/
def safeOff (s : State) : State :=
  let s := if firing s.bs then s.onBs fun b => { b with postGas := s.deadline Config.tFfpost, falseFlame := none } else s
  relaySync (s.onBs fun b => { b with gas1 := false, gas2 := false, spark := false })

/-! ### Reports to DM and MU -/

/-- Anti-cycle started with t_anticycle latched (R73). A length of 0 leaves no timer running and the reason absent (log 12). -/
def antiCycleStart (s : State) : State :=
  let len := setAntiCycle s.st.settings
  if len = 0 then (s.onDm fun d => { d with antiCycle := none }).setAntiCycle false
  else (s.onDm fun d => { d with antiCycle := s.deadline (len * Config.second) }).setAntiCycle true

/-- The CH pump overrun started with t_pump_ch latched (R76). -/
def pumpOverrunStart (s : State) : State :=
  let len := setPumpCh s.st.settings
  s.onDm fun d => { d with pumpOverrun := if len = 0 then none else s.deadline (len * Config.second) }

/-- DM at the report of a departure from a firing state (R73, R76). `byOff` tells a withdrawal that the OFF_PHASE mark caused. -/
def dmDeparture (cause : Cause) (byOff : Bool) (s : State) : State :=
  let s := s.onDm fun d => { d with lastDeparture := some cause }
  if s.dm.burn.heating then
    let s := pumpOverrunStart s
    if cause = .withdrawal ∧ byOff = false then antiCycleStart s else s
  else s

/-- DM at the report of an entry into a firing state (R72). -/
def dmFiring (s : State) : State :=
  if s.dm.circuit = .none then s else s.onDm fun d => { d with burn := d.circuit }

/-- The change of burner state reported to DM and MU (R50). -/
def bsReport (was : Bool) (cause : Cause) (byOff : Bool) (s : State) : State :=
  let s := if was && !firing s.bs then dmDeparture cause byOff s else s
  let s := if firing s.bs then dmFiring s else s
  match s.bs.state with
  | .stabilise => muStabiliseEntry s
  | .run => muRunEntry s
  | .standby => muReturn s
  | .postPurge => muReturn s
  | .lockout => muLockout s
  | .preCheck => s
  | .prePurge => s
  | .ignition => s

/-- The phase timers stopped. -/
def stopPhase (b : Bs) : Bs :=
  { b with
    tPchk := none, purgeLimit := none, purge := none, tPrespk := none, tSafe := none, tSpark := none
    tStab := none, tPost := none, lockPurge := none }

/-- The burner goes to a state: safe-off unless the state fires, the phase timers of the state left stopped, the fan deviation timer 0 outside RUN, and the change reported (R22, R47, R50). -/
def bsMove (st : BurnerState) (cause : Cause) (byOff : Bool) (s : State) : State :=
  let was := firing s.bs
  let s := if st = .stabilise ∨ st = .run then s else safeOff s
  let s := s.onBs fun b => { stopPhase b with state := st, fanDev := if st = .run then b.fanDev else 0 }
  bsReport was cause byOff s

/-- The burner goes to STANDBY with fan target 0. -/
def toStandby (cause : Cause) (s : State) : State := setFanTarget 0 (bsMove .standby cause false s)

/-- The burner goes to POST_PURGE (R39), with or without the retry mark. -/
def toPostPurge (cause : Cause) (byOff retry : Bool) (s : State) : State :=
  let s := bsMove .postPurge cause byOff s
  let s := setFanTarget (sbPostSpeed s.st.safety) s
  s.onBs fun b => { b with tPost := s.deadline (sbPost s.st.safety * Config.second), retry := retry }

/-- The fault stop (R23). -/
def faultStop (s : State) : State :=
  match s.bs.state with
  | .stabilise => toPostPurge .fault false false s
  | .run => toPostPurge .fault false false s
  | .ignition => if firing s.bs then toPostPurge .fault false false s else toStandby .fault s
  | .preCheck => toStandby .fault s
  | .prePurge => toStandby .fault s
  | .standby => s
  | .postPurge => s
  | .lockout => s

/-- The LOCKOUT entry at a lockout declaration naming a source (R48); in LOCKOUT a declaration changes nothing (R49). DESIGN CHOICE: of a burn that it ends BS makes one report, with the cause lockout of R50, where R23 has the fault stop taken first reported as ended for a fault (log 37). -/
def lockoutEntry (src : Source) (s : State) : State :=
  if s.bs.state = .lockout then s
  else
    let purge := (firing s.bs || s.bs.state == .postPurge) && !src.fan
    let s := bsMove .lockout .lockout false s
    let s := s.onBs fun b => { b with retry := false }
    if purge then
      setFanTarget (sbPostSpeed s.st.safety)
        (s.onBs fun b => { b with lockPurge := s.deadline (sbPost s.st.safety * Config.second) })
    else setFanTarget 0 s

/-- The withdrawal of the heat request, taken by BS and by DM (R28, R30, R34, R38, R40, R73). `byOff` tells a withdrawal that the OFF_PHASE mark caused. -/
def withdraw (byOff : Bool) (s : State) : State :=
  let s :=
    if s.bs.state = .postPurge ∧ byOff = false ∧ s.dm.burn.heating
        ∧ (s.dm.lastDeparture = some .flameLossRecycle ∨ s.dm.lastDeparture = some .ignitionFailure)
      then antiCycleStart s else s
  let s := s.onBs fun b => { b with attempts := 0, recycles := 0, retry := false }
  match s.bs.state with
  | .preCheck => toStandby .withdrawal s
  | .prePurge => toStandby .withdrawal s
  | .ignition => if firing s.bs then toPostPurge .withdrawal byOff false s else toStandby .withdrawal s
  | .stabilise => toPostPurge .withdrawal byOff false s
  | .run => toPostPurge .withdrawal byOff false s
  | .standby => s
  | .postPurge => s
  | .lockout => s

/-- The heat request record delivered after a change of circuit or of a mark (R71): a fall of the active field is a withdrawal. -/
def deliverRecord (byOff : Bool) (s : State) : State :=
  let was := s.dm.active
  let s := s.onDm fun d => { d with active := activeOf d }
  if was && !s.dm.active then withdraw byOff s else s

/-! ### Timed phases -/

/-- PRE_PURGE entered (R29). -/
def toPrePurge (s : State) : State :=
  let s := bsMove .prePurge .fault false s
  let s := setFanTarget (sbPurgeSpeed s.st.safety) s
  s.onBs fun b => { b with purgeLimit := s.deadline (sbPurge s.st.safety * Config.tenth + Config.tFprove) }

/-- IGNITION entered, in its pre-spark wait (R31). -/
def toIgnition (s : State) : State :=
  let s := bsMove .ignition .fault false s
  let s := setFanTarget s.ignitionSpeed s
  s.onBs fun b => { b with spark := true, tPrespk := s.deadline (sbPrespk s.st.safety * Config.tenth) }

/-- The gas opened (R31), reported to DM as an entry into a firing state (R50). -/
def openGas (s : State) : State :=
  let s := s.onBs fun b =>
    { b with
      gas1 := true, gas2 := true, tPrespk := none, falseFlame := none
      tSafe := s.deadline (sbSafe s.st.safety * Config.tenth)
      tSpark := s.deadline (sbSpark s.st.safety * Config.tenth) }
  bsReport false .fault false (relaySync s)

/-- RUN entered (R35). -/
def toRun (s : State) : State := bsMove .run .fault false s

/-- The flame established (R32, R35): STABILISE entered, and with tSTAB of 0 passed through. -/
def establishFlame (s : State) : State :=
  let s := s.onBs fun b => { b with spark := false, attempts := 0 }
  let s := (bsMove .stabilise .fault false s).bump 2
  let s := setFanTarget s.ignitionSpeed s
  if sbStab s.st.safety = 0 then toRun s
  else s.onBs fun b => { b with tStab := s.deadline (sbStab s.st.safety * Config.second) }

/-- A frame's step of the purge timer (R29): time proven, or the timer returned to not started. The frame at which it reaches its length completes the purge. -/
def purgeStep (s : State) : State :=
  let target := s.bs.fanTarget
  let actual := s.mp.pub.fanSpeed
  let off := if actual ≤ target then target - actual else actual - target
  if off ≤ target / 10 then
    match s.bs.purge with
    | none => s.onBs fun b => { b with purge := some { done := 0, length := sbPurge s.st.safety } }
    | some p =>
      if p.length ≤ p.done + 1 then toIgnition s
      else s.onBs fun b => { b with purge := some { p with done := p.done + 1 } }
  else s.onBs fun b => { b with purge := none }

/-- The fan speed controller at a frame completion (R46). -/
def fanControl (s : State) : State :=
  s.onBs fun b =>
    { b with
      fanDuty := if b.fanTarget = 0 then 0
        else (clamp 0 1000 (b.fanDuty + quot ((b.fanTarget : Int) - s.mp.pub.fanSpeed) 8)).toNat }

/-- Whether the fan deviates from its target by more than a fifth (R47). -/
def fanDeviates (s : State) : Bool :=
  let target := s.bs.fanTarget
  let actual := s.mp.pub.fanSpeed
  decide (target / 5 < (if actual ≤ target then target - actual else actual - target))

end Sys2Proof.Machine
end

