-- ==== Sys2Proof/Machine/Faults.lean ====
section
/-! DEFINITION. The fault manager's operations (chapter 5): raisings and clear reports, escalation, the lockout path, the reset request and the history ring. -/

namespace Sys2Proof.Machine

/-! ### List, lead fault, BLOCKING -/

/-- The display code of a source, read from FAULTCODES (R107). -/
def State.codeOf (s : State) (src : Source) : Nat := fcCode s.st.faultCodes src

/-- The lead fault's display code, 0 for an empty list (R113). -/
def State.leadCode (s : State) : Nat :=
  match leadOf s.fm.active with
  | some r => s.codeOf r.source
  | none => 0

/-- The lead fault determined and its code delivered to PE (R113). -/
def fmLead (s : State) : State := s.onPe fun p => { p with leadCode := s.leadCode }

/-- Whether the list holds a BLOCKING record. -/
def State.hasBlocking (s : State) : Bool := s.fm.active.any fun r => r.cls == .blocking

/-- The BLOCKING reason brought into step with the list (R109); when it enters the set BS takes a fault stop (R25). -/
def fmSync (s : State) : State :=
  if s.hasBlocking then
    (if s.bs.inhibit.blocking then s else faultStop (s.setBlocking true))
  else s.setBlocking false

/-! ### History (R126, R127) -/

/-- An offer of a history page's job: a refusal sets the page's re-offer mark (R125). DESIGN CHOICE: an offer that is taken leaves a mark that stands, until the re-offer at a report (log 34). -/
def offerHistory (page : Nat) (s : State) : State :=
  if s.canTake page then s.offer page
  else s.onFm fun f => { f with rePages := updateAt f.rePages (page - 27) fun _ => true }

/-- An entry appended to the ring. DESIGN CHOICE: the power-on hours are kept whole here and in READ_FAULTS; only the page image holds them at 131,071, so that a later load reads that (section 10.7, log 31). -/
def histAppend (r : Record) (s : State) : State :=
  let slot := s.fm.nextSlot
  let h : Hist :=
    { seq := s.fm.nextSeq, source := r.source, code := s.codeOf r.source, cls := r.cls, detail := r.detail
      hours := s.time / 3600, count := r.count }
  let s := s.onFm fun f =>
    { f with ring := updateAt f.ring slot (fun _ => some h), nextSlot := (slot + 1) % 32, nextSeq := (f.nextSeq + 1) % 65536 }
  offerHistory (27 + slot / 4) s

/-! ### The lockout path (R118) -/

/-- The lockout page job queued, with the write-outstanding mark (R116). -/
def queueLockoutPage (s : State) : State := (s.onFm fun f => { f with writeOut := true }).offer 8

/-- The lockout record made ACTIVE with a source. -/
def lockActive (src : Source) (s : State) : State :=
  s.onFm fun f => { f with lockout := { state := .active, source := some src, code := s.codeOf src, time := s.time } }

/-- The lockout path. In ACTIVE a further declaration to BS changes nothing (R49). -/
def lockoutPath (src : Source) (s : State) : State :=
  match s.fm.lockout.state with
  | .none => lockoutEntry src (queueLockoutPage (lockActive src s)).offerCounters
  | .active => lockoutEntry src s
  | .resetPending => queueLockoutPage (lockActive src s)

/-! ### Raisings (R111) -/

/-- A time added to an escalation list: at most 7, the oldest dropped (R114). -/
def escAdd (t : Nat) (l : List Nat) : List Nat :=
  let l' := l ++ [t]
  if 7 < l'.length then l'.drop 1 else l'

/-- Step 1 of R111. -/
def raiseEscalation (src : Source) (s : State) : State :=
  if !src.safety && decide (0 < fcCount s.st.faultCodes src) then
    s.onFm fun f => { f with esc := updateAt f.esc (src.num - 1) (escAdd s.time) }
  else s

/-- The effective class of a new record (R108). -/
def State.newClass (s : State) (src : Source) : FaultClass :=
  if src.safety then .lockout else fcClass s.st.faultCodes src

/-- Step 2 of R111: the record created, with a history entry where the flag says so, or counted up. -/
def raiseRecord (src : Source) (detail : Nat) (s : State) : State :=
  match s.record src with
  | none =>
    let r : Record := { source := src, detail := detail, cls := s.newClass src, count := 1, first := s.time, last := s.time }
    let s' := s.onFm fun f => { f with active := f.active ++ [r] }
    if fcHistory s.st.faultCodes src then histAppend r s' else s'
  | some _ =>
    s.onFm fun f =>
      { f with
        active := f.active.map fun r =>
          if r.source = src then { r with detail := detail, last := s.time, count := min 255 (r.count + 1) } else r }

/-- Step 3 of R111: the condition mark of a level source, the blocking timer of an ordinary event source. -/
def raiseCondition (src : Source) (s : State) : State :=
  if src.event then
    match src.blockTime with
    | some b => s.onFm fun f => f.setBlockTimer src (some (s.time + b))
    | none => s
  else s.setCond src

/-- The number of a source's raise times within its window (R114, R115). -/
def State.escCount (s : State) (src : Source) : Nat :=
  ((s.fm.esc.getD (src.num - 1) []).filter (withinLast s.time (3600 * fcWindow s.st.faultCodes src))).length

/-- Whether a record of the source that is not LOCKOUT escalates now (R115). -/
def State.escalates (s : State) (src : Source) : Bool :=
  let n := fcCount s.st.faultCodes src
  decide (0 < n) && decide (n ≤ s.escCount src)

/-- The record of a source made LOCKOUT, keeping its place (R115). -/
def escalateRecord (src : Source) (s : State) : State :=
  s.onFm fun f => { f with active := f.active.map fun r => if r.source = src then { r with cls := .lockout } else r }

/-- Steps 4 and 5 of R111 for the record as step 2 left it: escalation or not, then the lockout path of a LOCKOUT record. -/
def raiseClass (src : Source) (s : State) : State :=
  match s.record src with
  | none => s
  | some r =>
    if r.cls = .lockout then lockoutPath src s
    else if s.escalates src then lockoutPath src (histAppend { r with cls := .lockout } (escalateRecord src s))
    else s

/-- A raising of a source with a detail, at the current power-on time (R111). The lead code is delivered when the list has changed (R113). -/
def fmRaise (src : Source) (detail : Nat) (s : State) : State :=
  let s1 := raiseCondition src (raiseRecord src detail (raiseEscalation src s))
  let s2 := fmSync (raiseClass src s1)
  if s2.fm.active.map (fun r => (r.source, r.cls)) = s.fm.active.map (fun r => (r.source, r.cls)) then s2 else fmLead s2

/-- The record of a source removed unless it is LOCKOUT; then BLOCKING brought into step and the lead fault determined (R112). -/
def removeRecord (src : Source) (s : State) : State :=
  match s.record src with
  | none => s
  | some r =>
    if r.cls = .lockout then s
    else fmLead (fmSync (s.onFm fun f => { f with active := f.active.filter fun x => x.source != src }))

/-- A clear report (R112). -/
def fmClear (src : Source) (s : State) : State := removeRecord src (s.clearCond src)

/-! ### Lockout reset (R119 to R124) -/

/-- The budget count (R120). -/
def State.budgetCount (s : State) : Nat := (s.fm.resets.filter (withinLast s.time Config.resetWindow)).length

/-- Both flow channels VALID and their difference above 50 (R11). -/
def Mp.flowsDisagree (m : Mp) : Bool :=
  match m.flowA.value, m.flowB.value with
  | some a, some b => decide (50 < (a - b).natAbs)
  | _, _ => false

/-- Whether the condition of a LOCKOUT record is present (R122). -/
def State.conditionPresent (s : State) (src : Source) : Bool :=
  match src with
  | .overheat => s.bs.overheatMark
  | .limitStat => s.lines.limitOpen
  | .gasRelay => s.lines.relay1Fb || s.lines.relay2Fb
  | .flowSensor => s.mp.flowA.fault || s.mp.flowB.fault
  | .flowDisagree => s.mp.flowsDisagree
  | .paramIntegrity => !s.liveValid
  | .ignitionFailure => false
  | .flameLoss => false
  | .falseFlame => false
  | .fanNotStopped | .fanNoSpeed | .fanDeviation | .noCirculation => (s.fm.blockTimer src).isSome
  | .lowPressure | .highPressure | .pressureSensor | .flueHigh | .flueSensor | .returnSensor | .dhwSensor
  | .coldSensor | .outdoorSensor | .nodeAbsent | .zoneValve | .busFault | .storeFault => s.fm.cond.contains src

/-- The first LOCKOUT record, in list order, whose condition is present. -/
def State.holding (s : State) : Option Record :=
  s.fm.active.find? fun r => r.cls == .lockout && s.conditionPresent r.source

/-- A time added to the reset history: at most 5, the oldest dropped (R120). -/
def resetAdd (t : Nat) (l : List Nat) : List Nat :=
  let l' := l ++ [t]
  if 5 < l'.length then l'.drop 1 else l'

/-- An offer of the reset history page's job: a refusal sets the re-offer mark (R125), and a taken one leaves it (log 34). -/
def offerResets (s : State) : State :=
  if s.canTake 9 then s.offer 9 else s.onFm fun f => { f with reHist := true }

/-- Acceptance of a reset (R123). The lockout page's re-offer mark is cleared as its job is queued (R125). -/
def resetAccept (rights : Rights) (s : State) : State :=
  let s := s.onFm fun f => { f with lockout := { f.lockout with state := .resetPending }, reLock := false }
  let s := queueLockoutPage (if rights = .service then s else s.onFm fun f => { f with resets := resetAdd s.time f.resets })
  if rights = .service then s else offerResets s

/-- The result of a reset request (R121), with the holding source of a CONDITION. -/
def State.resetResult (s : State) (rights : Rights) : Result × Option Source :=
  match s.fm.lockout.state with
  | .none => (.notLocked, none)
  | .resetPending => (.resetPending, none)
  | .active =>
    if rights ≠ .service ∧ Config.resetBudget ≤ s.budgetCount then (.budget, none)
    else
      match s.holding with
      | some r => (.condition, some r.source)
      | none => (.accepted, none)

/-- A reset request taken (R119, R121): its effect, and the last reset result kept. -/
def fmReset (rights : Rights) (origin : Origin) (s : State) : State :=
  let r := s.resetResult rights
  let s' :=
    if r.1 = .accepted then resetAccept rights s
    else if r.1 = .resetPending ∧ s.fm.writeOut = false then queueLockoutPage s
    else s
  s'.onFm fun f => { f with lastReset := some { result := r.1, rights := rights, origin := origin, time := s.time } }

/-- The completion of a reset (R124), reported to BS, which returns its counts to 0 and goes to STANDBY (R49). -/
def resetComplete (s : State) : State :=
  let s := s.onFm fun f =>
    { f with lockout := {}, active := f.active.filter (fun r => r.cls != .lockout), esc := List.replicate 26 [] }
  let s := toStandby .lockout (s.onBs fun b => { b with attempts := 0, recycles := 0 })
  fmLead (fmSync s)

/-! ### Reads of the lists (R128) -/

/-- The history's entries, oldest first (R128). DESIGN CHOICE: their order is that of the slots from the next slot on, also where a load leaves runs of sequence numbers that do not follow one another (log 38). -/
def Fm.history (f : Fm) : List Hist := ((f.ring.drop f.nextSlot) ++ (f.ring.take f.nextSlot)).filterMap id

/-- Seconds left on a source's blocking timer; 0 without one (section 10.4). -/
def State.blockingLeft (s : State) (src : Source) : Nat :=
  match s.fm.blockTimer src with
  | some d => d - s.time
  | none => 0

/-- Bytes 0 to 4 of a record or entry (section 10.4). -/
def recordHead (code listCount : Nat) (src : Source) (cls : FaultClass) (detail count : Nat) : List Byte :=
  put16 (code + 1024 * listCount) ++ put8 (src.num + 32 * cls.code) ++ put8 detail ++ put8 count

/-- An active record as READ_FAULTS carries it. DESIGN CHOICE: a restored lockout record raised again below its stored time, so that the difference would be negative, carries 0 (log 31). -/
def State.recordBytes (s : State) (r : Record) : List Byte :=
  recordHead (s.codeOf r.source) s.fm.active.length r.source r.cls r.detail r.count
    ++ put8 (s.blockingLeft r.source) ++ put32 r.first ++ put24 (min 16777215 (r.last - r.first))

/-- A history entry as READ_FAULTS carries it. -/
def histBytes (listCount : Nat) (h : Hist) : List Byte :=
  recordHead h.code listCount h.source h.cls h.detail h.count ++ put16 h.seq ++ put24 h.hours

/-- The answer to a READ_FAULTS (R128): list 0 ACTIVE or 1 HISTORY, direction 0 OLDEST_FIRST or 1 NEWEST_FIRST. -/
def readFaultsAnswer (list direction index : Nat) (s : State) : Result × List Byte :=
  if list = 0 then
    let l := if direction = 0 then s.fm.active else s.fm.active.reverse
    match l[index]? with
    | some r => (.done, s.recordBytes r)
    | none => (.listEnd, put8 l.length)
  else
    let l := if direction = 0 then s.fm.history else s.fm.history.reverse
    match l[index]? with
    | some h => (.done, histBytes l.length h)
    | none => (.listEnd, put8 l.length)

/-- The eight history pages. -/
def historyPages : List Nat := [27, 28, 29, 30, 31, 32, 33, 34]

/-- CLEAR_HISTORY (R129): whether ST can take the jobs, and the ring emptied. -/
def canClearHistory (s : State) : Bool :=
  decide ((historyPages.filter fun p => !s.jobWaiting p).length ≤ s.freePlaces)

def clearRing (s : State) : State :=
  let s := s.onFm fun f =>
    { f with ring := List.replicate 32 none, nextSlot := 0, rePages := List.replicate 8 false }
  historyPages.foldl State.offer s

end Sys2Proof.Machine
end

