-- ==== Sys2Proof/Machine/Demand.lean ====
section
/-! DEFINITION. The demand block's operations (chapter 3): circuit selection, zone valves and their commands, zone records, draw, diverter, frost mark and anti-cycle. -/

namespace Sys2Proof.Machine

/-! ### Circuit selection (R69, R71, R72) -/

/-- The selected circuit: NONE before the first frame completion, then the first case of R69 that holds. The mode acts from the frame completion after its write (R52). -/
def State.selected (s : State) : Circuit :=
  if s.mp.firstFrame = false then .none
  else if s.dm.draw.state = .active then .dhw
  else if setMode s.latch.settings = .winter ∧ s.dm.draw.state ≠ .overrun ∧ zoneNumbers.any s.contributes then .ch
  else if s.dm.frost then .frost
  else .none

/-- The withholding marks of a circuit released at a change away from it (R71). -/
def releaseMarks (old : Circuit) (d : Dm) : Dm :=
  match old with
  | .ch => { d with chStop := false, offPhase := false }
  | .dhw => { d with dhwStop := false }
  | .frost => d
  | .none => d

/-- A change of the selected circuit (R71, R72, R103): the marks released, the burn circuit kept in step while the burner fires, the change reported to MU, and the record delivered. -/
def changeCircuit (new : Circuit) (s : State) : State :=
  if new = s.dm.circuit then s
  else
    let old := s.dm.circuit
    let s := s.onDm fun d => { releaseMarks old d with circuit := new }
    let s := if firing s.bs then dmFiring s else s
    deliverRecord false (muCircuit old s)

/-- The circuit selected afresh. -/
def select (s : State) : State := changeCircuit s.selected s

/-! ### Urgent queue entries of DM (R167) -/

/-- Whether an urgent entry is a VALVE_COMMAND for a zone. -/
def Urgent.forZone (u : Urgent) (z : Nat) : Bool :=
  match u.item with
  | .valve y _ => y == z
  | .proxy _ _ => false

/-- Whether an urgent entry is HIGH. -/
def Urgent.high (u : Urgent) : Bool :=
  match u.item with
  | .valve _ _ => true
  | .proxy _ _ => false

/-- Whether the zone's command is in flight. -/
def State.commandInFlight (s : State) (z : Nat) : Bool := s.pe.urgent.any fun u => u.forZone z && u.inFlight

/-- Whether a command for the zone is queued or in flight. -/
def State.commandQueued (s : State) (z : Nat) : Bool := s.pe.urgent.any fun u => u.forZone z

/-- A VALVE_COMMAND placed (R167): replaced in place when one is queued, otherwise added at the end of the HIGH entries. -/
def placeValve (z : Nat) (p : Position) (s : State) : State :=
  s.onPe fun pe =>
    { pe with
      urgent :=
        if s.commandQueued z then pe.urgent.map fun u => if u.forZone z then { u with item := .valve z p } else u
        else pe.urgent.filter Urgent.high ++ [{ item := .valve z p }] ++ pe.urgent.filter fun u => !u.high }

/-! ### Valve state -/

/-- The overrun mark of a zone cleared; the clear of ZONE_VALVE reported when no zone's mark remains (R65). -/
def clearOverrun (z : Nat) (s : State) : State :=
  if (s.zone z).overrun then
    let s := s.onZone z fun r => { r with overrun := false }
    if s.dm.zones.any fun r => r.overrun then s else fmClear .zoneValve s
  else s

/-- A zone's valve state set, its travel timer stopped and its acknowledged and overrun marks cleared. -/
def setValve (z : Nat) (v : ValveState) (s : State) : State :=
  clearOverrun z (s.onZone z fun r => { r with valve := v, travel := none, ack := false })

/-- A position commanded for a zone (R60): with a command in flight nothing is placed. -/
def commandValve (z : Nat) (p : Position) (s : State) : State :=
  if s.commandInFlight z then s
  else
    setValve z (match p with
      | .opened => .opening
      | .closed => .closing) (placeValve z p s)

/-- The comparison of R60, for a zone with a valve. -/
def compareValve (z : Nat) (s : State) : State :=
  if !s.hasValve z then s
  else
    match (s.zone z).valve, (s.zone z).desired with
    | .opened, .closed => commandValve z .closed s
    | .opening, .closed => commandValve z .closed s
    | .closed, .opened => commandValve z .opened s
    | .closing, .opened => commandValve z .opened s
    | _, _ => s

/-- The desired position of a zone outside DHW (R59). -/
def State.desiredOf (s : State) (z : Nat) : Position :=
  if !zoneEnabled s.st.zones z then .closed
  else if (s.zone z).call = .call ∧ setMode s.latch.settings = .winter then .opened
  else if s.dm.circuit = .frost then .opened
  else .closed

/-- The desired position of a zone evaluated (R59): kept while the circuit is DHW; a change is compared with the valve state. -/
def evaluateZone (s : State) (z : Nat) : State :=
  if s.dm.circuit = .dhw ∨ (s.zone z).desired = s.desiredOf z then s
  else compareValve z (s.onZone z fun r => { r with desired := s.desiredOf z })

/-- After any change of a call state, valve state, enabled field, draw state, frost mark or mode: the circuit selected and every desired position evaluated (R59, R69). A command makes no contributing valve leave OPEN, so the circuit stands. DESIGN CHOICE: the zones are taken in ascending number (log 32). -/
def refresh (s : State) : State := zoneNumbers.foldl evaluateZone (select s)

/-- The valve states a position report or an expiry ends in, compared and selected on (R60, R62, R63). DESIGN CHOICE: the zone's own comparison comes before the selection and the evaluation of all zones, so that its command can precede those of lower-numbered zones (log 32). -/
def valveArrived (z : Nat) (v : ValveState) (s : State) : State := refresh (compareValve z (setValve z v s))

/-! ### Results and reports (R61, R62) -/

/-- Result of a VALVE_COMMAND exchange as PE returns it (R169). -/
inductive ValveResult where
  | ack
  | failed
  | dropped
deriving DecidableEq, Repr

/-- DM takes the result of a command that carried a position (R61). DESIGN CHOICE: the zone's own comparison comes before the selection, as in `valveArrived` (log 32). -/
def valveResult (z : Nat) (p : Position) (r : ValveResult) (s : State) : State :=
  if !s.hasValve z then s
  else
    let s :=
      match r with
      | .ack =>
        if (s.zone z).valve = (match p with
            | .opened => ValveState.opening
            | .closed => ValveState.closing) then
          let len := (if zoneEndSwitch s.st.zones z then 2 else 1) * zoneRunTime s.st.zones z
          s.onZone z fun q => { q with ack := true, travel := s.deadline (len * Config.second), travelLength := len }
        else s
      | .failed => setValve z .unknown s
      | .dropped => s
    refresh (compareValve z s)

/-- DM takes a VALVE_STATE position for a zone (R62): 1 OPEN, 2 CLOSED; others have no effect. -/
def valveReport (z node pos : Nat) (s : State) : State :=
  if !s.hasValve z || !zoneEndSwitch s.st.zones z || zoneValveNode s.st.zones z != node then s
  else if pos = 1 then
    match (s.zone z).valve with
    | .opening => if (s.zone z).ack then valveArrived z .opened s else s
    | .closed => valveArrived z .opened s
    | .unknown => valveArrived z .opened s
    | .opened => s
    | .closing => s
  else if pos = 2 then
    match (s.zone z).valve with
    | .closing => if (s.zone z).ack then valveArrived z .closed s else s
    | .opened => valveArrived z .closed s
    | .unknown => valveArrived z .closed s
    | .closed => s
    | .opening => s
  else s

/-- The expiry of a zone's travel timer (R62, R63, R65). -/
def travelExpired (z : Nat) (s : State) : State :=
  if zoneEndSwitch s.st.zones z then
    fmRaise .zoneValve z (s.onZone z fun r => { r with travel := none, overrun := true })
  else
    match (s.zone z).valve with
    | .opening => valveArrived z .opened s
    | .closing => valveArrived z .closed s
    | .unknown | .closed | .opened => s.onZone z fun r => { r with travel := none }

/-- The reconciliation of one zone at a round end (R64). -/
def reconcileZone (s : State) (z : Nat) : State :=
  if s.hasValve z ∧ (s.zone z).valve = .unknown ∧ s.commandQueued z = false then
    commandValve z (s.zone z).desired s
  else s

/-- The reconciliation at a round end (R64). DESIGN CHOICE: zones commanded in one event are taken in ascending number, here and in `refresh`, which is their order in the urgent queue (log 32). -/
def reconcile (s : State) : State := zoneNumbers.foldl reconcileZone s

/-! ### Call state and fallback -/

/-- The call state of a zone's fallback (R53). -/
def State.fallbackCall (s : State) (z : Nat) : CallState := if zoneFallbackCall s.st.zones z then .call else .noCall

/-- A zone enters fallback (R56). The setpoint is kept. -/
def enterFallback (z : Nat) (s : State) : State :=
  s.onZone z fun r => { r with fallback := true, temp := none, call := s.fallbackCall z }

/-- The call state after a valid DEMAND (R55), of a record with the new setpoint and temperature and the mark not yet cleared. -/
def callAfter (r : Zone) (flag : Bool) : CallState :=
  let own := if flag then CallState.call else .noCall
  match r.temp with
  | none => own
  | some t =>
    if t ≤ r.setpoint - 3 then .call
    else if r.setpoint + 2 ≤ t then .noCall
    else if r.call = .unknown ∨ r.fallback then own
    else r.call

/-- A DEMAND applied to a zone (R54). -/
def applyDemand (z : Nat) (setpoint : Int) (temp : Value) (flag : Bool) (s : State) : State :=
  let s := s.onZone z fun r =>
    let r := { r with setpoint := clamp 50 300 setpoint, temp := temp, lastDemand := s.time }
    { r with call := callAfter r flag, fallback := false }
  refresh s

/-- A DEMAND reply handed by PE (R54): applied when the node is a room unit naming an enabled zone. -/
def takeDemand (node : Nat) (setpoint : Int) (temp : Value) (flag : Bool) (s : State) : State :=
  let z := nodeZone s.st.nodes node
  if s.kindOf node = .roomUnit ∧ z < 8 ∧ zoneEnabled s.st.zones z then applyDemand z setpoint temp flag s else s

/-- PE's report that a room unit has become ABSENT (R56, R149). -/
def roomUnitAbsent (node : Nat) (s : State) : State :=
  let z := nodeZone s.st.nodes node
  if s.kindOf node = .roomUnit ∧ z < 8 ∧ zoneEnabled s.st.zones z then refresh (enterFallback z s) else s

/-- Whether a zone's room unit has been silent for 600 s (R56). -/
def State.fallbackDue (s : State) (z : Nat) : Bool :=
  hasRoomUnit s.st.zones s.st.nodes z && !(s.zone z).fallback
    && decide (Config.fallbackAge ≤ s.time - (s.zone z).lastDemand)

/-! ### Writes of ZONES and NODES (R57, R66) -/

/-- Valve state of a zone whose valve is taken anew: OPEN without a valve, otherwise UNKNOWN (R66). -/
def renewValve (z : Nat) (s : State) : State := setValve z (if s.hasValve z then .unknown else .opened) s

/-- DM takes a ZONES write of zone z, the old image being given (R56, R57, R66). -/
def zoneWritten (old : List Byte) (z : Nat) (s : State) : State :=
  let new := s.st.zones
  let s :=
    if zoneEnabled new z && !zoneEnabled old z then
      let s := s.onZone z fun r => { r with call := .unknown, temp := none, setpoint := 200, lastDemand := s.time }
      let s := if hasRoomUnit new s.st.nodes z then s
        else s.onZone z fun r => { r with fallback := true, call := s.fallbackCall z }
      renewValve z s
    else if !zoneEnabled new z && zoneEnabled old z then
      clearOverrun z (s.onZone z fun r => { r with call := .noCall, fallback := false, temp := none })
    else s
  let s :=
    if zoneValveNode old z != zoneValveNode new z || zoneValveChannel old z != zoneValveChannel new z
        || zoneEndSwitch old z != zoneEndSwitch new z then renewValve z s else s
  let s :=
    if (s.zone z).fallback && zoneFallbackCall old z != zoneFallbackCall new z then
      s.onZone z fun r => { r with call := s.fallbackCall z }
    else s
  refresh s

/-- One zone's part in a NODES write, the old image being given (R57). -/
def nodeWrittenZone (old : List Byte) (s : State) (z : Nat) : State :=
  let had := hasRoomUnit s.st.zones old z
  let has := hasRoomUnit s.st.zones s.st.nodes z
  if has && !had then s.onZone z fun r => { r with lastDemand := s.time }
  else if had && !has then enterFallback z s
  else s

/-- DM takes a NODES write (R57). -/
def nodesWritten (old : List Byte) (s : State) : State := refresh (zoneNumbers.foldl (nodeWrittenZone old) s)

/-! ### Draw, diverter, frost, anti-cycle -/

/-- The draw record after a frame with flow q (R67). `on` tells that draws may be detected. -/
def drawStep (on : Bool) (q overrunTime : Nat) (start : Timer) (d : Draw) : Draw :=
  match d.state with
  | .idle =>
    if 20 ≤ q ∧ on then
      (if 3 ≤ d.startRun + 1 then { d with state := .active, startRun := 0, endRun := 0 }
        else { d with startRun := d.startRun + 1 })
    else { d with startRun := 0 }
  | .active =>
    if !on then { d with state := .idle, startRun := 0, endRun := 0 }
    else if q < 15 then
      (if 5 ≤ d.endRun + 1 then
        (if overrunTime = 0 then { d with state := .idle, endRun := 0, overrun := none }
          else { d with state := .overrun, endRun := 0, overrun := start })
        else { d with endRun := d.endRun + 1 })
    else { d with endRun := 0 }
  | .overrun =>
    if !on then { d with state := .idle, startRun := 0, endRun := 0, overrun := none }
    else if 20 ≤ q then
      (if 3 ≤ d.startRun + 1 then { d with state := .active, startRun := 0, endRun := 0, overrun := none }
        else { d with startRun := d.startRun + 1 })
    else { d with startRun := 0 }

/-- The diverter's position now, in ticks (R68). -/
def Diverter.posAt (d : Diverter) (now : Nat) : Nat :=
  match d.state with
  | .atCh => 0
  | .atDhw => d.travel
  | .toDhw => min d.travel (d.pos + (now - d.since))
  | .toCh => d.pos - (now - d.since)

/-- The diverter brought to drive towards its wanted end (R68). -/
def divertSync (s : State) : State :=
  let wantDhw := s.dm.draw.state != .idle
  let d := s.dm.diverter
  let now := s.clock.now
  let travel := setTravel s.st.settings * Config.second
  let d' : Diverter :=
    match d.state with
    | .atCh => if wantDhw then { state := .toDhw, pos := 0, travel := travel, since := now } else d
    | .toDhw => if wantDhw then d else { d with state := .toCh, pos := d.posAt now, since := now }
    | .atDhw => if wantDhw then d else { state := .toCh, pos := travel, travel := travel, since := now }
    | .toCh => if wantDhw then { d with state := .toDhw, pos := d.posAt now, since := now } else d
  s.onDm fun m => { m with diverter := d' }

/-- The time at which a travelling diverter reaches its end. -/
def Diverter.arrival (d : Diverter) : Timer :=
  match d.state with
  | .atCh => none
  | .atDhw => none
  | .toDhw => some (d.since + (d.travel - d.pos))
  | .toCh => some (d.since + d.pos)

/-- The travel's end (R68). -/
def diverterArrived (d : Diverter) : Diverter :=
  match d.state with
  | .toDhw => { d with state := .atDhw, pos := d.travel }
  | .toCh => { d with state := .atCh, pos := 0 }
  | .atCh => d
  | .atDhw => d

/-- The frost mark after a frame (R70). -/
def frostStep (enabled : Bool) (flowCtl ret : Value) (mark : Bool) : Bool :=
  if mark then !(Value.ge flowCtl 150 || !enabled)
  else enabled && (Value.lt flowCtl 70 || Value.lt ret 70)

/-- Fallback of one zone at a frame (R56). -/
def frameFallback (s : State) (z : Nat) : State := if s.fallbackDue z then enterFallback z s else s

/-- DM at a frame completion, before MU (R56, R67 to R70, R80). -/
def dmFrame (s : State) : State :=
  let s := zoneNumbers.foldl frameFallback s
  let set := s.latch.settings
  let on := setDhwEnabled set && setMode set != .off
  let overrunTime := setDhwOverrun s.st.settings
  let s := s.onDm fun d =>
    { d with
      draw := drawStep on s.mp.pub.q overrunTime (s.deadline (overrunTime * Config.second)) d.draw
      frost := frostStep (setFrostEnabled set) s.mp.pub.flowCtl s.mp.ret.value d.frost }
  refresh (divertSync s)

/-- Anti-cycle ended (R74). -/
def antiCycleEnd (s : State) : State := (s.onDm fun d => { d with antiCycle := none }).setAntiCycle false

/-- The cancellation check of R74, after MU has delivered its flow target of the frame. -/
def antiCycleCheck (s : State) : State :=
  let low : Bool :=
    match s.target, s.mp.pub.flowCtl with
    | some t, some f => decide (f < t - 100)
    | _, _ => false
  if s.dm.antiCycle.isSome && s.dm.circuit.heating && low then antiCycleEnd s else s

/-- DM at a bus port reset (R66): every valve UNKNOWN, timers stopped, marks cleared, the clear of ZONE_VALVE reported if it was raised. -/
def dmBusReset (s : State) : State :=
  let raised := s.dm.zones.any fun r => r.overrun
  let one (s : State) (z : Nat) : State :=
    if s.hasValve z then
      s.onZone z fun r => { r with valve := .unknown, travel := none, ack := false, overrun := false }
    else s.onZone z fun r => { r with travel := none, ack := false, overrun := false }
  let s := zoneNumbers.foldl one s
  refresh (if raised then fmClear .zoneValve s else s)

end Sys2Proof.Machine
end

