-- ==== Sys2Proof/Machine/Operands.lean ====
section
/-! DEFINITION. What a command's operands name: the channel records and the frame's samples, and the bytes of FM's and ST's pages (section 10.6, 10.7). -/

namespace Sys2Proof.Machine

/-- The channels in the order of their numbers. -/
def channels : List Chan := [.flowA, .flowB, .ret, .dhwOut, .coldIn, .flue, .pressure, .outdoor]

/-- A frame's sample of a channel. -/
def sampleOf (f : Frame) (c : Chan) : Nat :=
  match c with
  | .flowA => f.flowA.toNat
  | .flowB => f.flowB.toNat
  | .ret => f.ret.toNat
  | .dhwOut => f.dhwOut.toNat
  | .coldIn => f.coldIn.toNat
  | .flue => f.flue.toNat
  | .pressure => f.pressure.toNat
  | .outdoor => f.outdoor.toNat

/-- A channel's record. -/
def Mp.chan (m : Mp) (c : Chan) : Channel :=
  match c with
  | .flowA => m.flowA
  | .flowB => m.flowB
  | .ret => m.ret
  | .dhwOut => m.dhwOut
  | .coldIn => m.coldIn
  | .flue => m.flue
  | .pressure => m.pressure
  | .outdoor => m.outdoor

/-- Every channel record changed by `f`. -/
def Mp.mapChan (m : Mp) (f : Chan → Channel → Channel) : Mp :=
  { m with
    flowA := f .flowA m.flowA, flowB := f .flowB m.flowB, ret := f .ret m.ret, dhwOut := f .dhwOut m.dhwOut
    coldIn := f .coldIn m.coldIn, flue := f .flue m.flue, pressure := f .pressure m.pressure
    outdoor := f .outdoor m.outdoor }

/-- Whether SETTINGS marks a channel fitted; only COLD_IN and OUTDOOR can be NOT_FITTED (R5). -/
def fitted (settings : List Byte) (c : Chan) : Bool :=
  match c with
  | .coldIn => setColdFitted settings
  | .outdoor => setOutdoorFitted settings
  | .flowA | .flowB | .ret | .dhwOut | .flue | .pressure => true

/-! ### Pages kept by FM and ST -/

/-- Fill to 32 bytes with the reserved value 0 (R202). -/
def pad32 (l : List Byte) : List Byte := (l ++ List.replicate 32 0).take 32

/-- The lockout record as its page carries it: NONE while RESET_PENDING (R116). -/
def Lockout.image (l : Lockout) : Lockout :=
  match l.state with
  | .resetPending => {}
  | .none => l
  | .active => l

/-- Page 8 (section 10.6). -/
def lockoutPage (l : Lockout) : List Byte :=
  pad32 (put8 l.image.state.code ++ put8 (match l.image.source with
    | some s => s.num
    | none => 0) ++ put16 l.image.code ++ put32 l.image.time)

/-- The lockout record a page 8 holds; a stored ACTIVE or RESET_PENDING is restored as ACTIVE (R117). -/
def lockoutOfPage (p : List Byte) : Lockout :=
  if u8 p 0 = 1 ∨ u8 p 0 = 2 then
    { state := .active, source := Source.ofNum (u8 p 1), code := u16 p 2, time := u32 p 4 }
  else {}

/-- Page 9 (section 10.6). -/
def resetsPage (l : List Nat) : List Byte := pad32 (put8 l.length ++ (l.map put32).flatten)

/-- The reset history a page 9 holds: at most 5 times. -/
def resetsOfPage (p : List Byte) : List Nat := (List.range (min 5 (u8 p 0))).map fun i => u32 p (1 + 4 * i)

/-- Page 10 (section 10.6). -/
def countersPage (l : List Nat) : List Byte := pad32 (l.map put32).flatten

/-- The seven counters a page 10 holds. -/
def countersOfPage (p : List Byte) : List Nat := (List.range 7).map fun i => u32 p (4 * i)

/-- A history slot's 8 bytes (section 10.7); an empty slot has source 0. -/
def slotBytes (h : Option Hist) : List Byte :=
  match h with
  | none => List.replicate 8 0
  | some h =>
    put16 h.seq ++ put8 h.count ++ put16 (h.code + 1024 * h.detail)
      ++ put24 (min 131071 h.hours + 131072 * h.source.num + 4194304 * h.cls.code)

/-- The history slot at an offset of a page (section 10.7). -/
def slotOfBytes (p : List Byte) (o : Nat) : Option Hist :=
  let w := u24 p (o + 5)
  match Source.ofNum (bits w 17 5) with
  | none => none
  | some s =>
    some
      { seq := u16 p o, count := u8 p (o + 2), code := bits (u16 p (o + 3)) 0 10, detail := bits (u16 p (o + 3)) 10 6
        hours := bits w 0 17, source := s, cls := .ofCode (bits w 22 2) }

/-- A history page: four slots (R126). -/
def historyPage (ring : List (Option Hist)) (page : Nat) : List Byte :=
  (((List.range 4).map fun i => slotBytes (ring.getD (4 * (page - 27) + i) none)).flatten)

/-- The RAM image of a page (R191); pages 0 to 7 are the live safety block's. -/
def State.pageImage (s : State) (page : Nat) : List Byte :=
  if page < 8 then slice s.st.safety (32 * page) 32
  else if page = 8 then lockoutPage s.fm.lockout
  else if page = 9 then resetsPage s.fm.resets
  else if page = 10 then countersPage s.st.counters
  else if page = 11 then s.st.settings
  else if page = 12 then s.st.curve
  else if page < 15 then slice s.st.zones (32 * (page - 13)) 32
  else if page < 19 then slice s.st.nodes (32 * (page - 15)) 32
  else if page < 23 then slice s.st.poll (32 * (page - 19)) 32
  else if page < 27 then slice s.st.faultCodes (32 * (page - 23)) 32
  else historyPage s.fm.ring page

end Sys2Proof.Machine
end

