-- ==== Sys2Proof/Machine/Measure.lean ====
section
/-! DEFINITION. The measurement path's operations (chapter 1): range check, characteristic, filter, published values, threshold events and flame state. -/

namespace Sys2Proof.Machine

/-- A sample short or open (R4). -/
def outOfRange (raw : Nat) : Bool := decide (raw < 40) || decide (4050 < raw)

/-- The characteristic of a channel (R7, R8). -/
def State.convert (s : State) (c : Chan) (raw : Nat) : Int :=
  match c with
  | .pressure => interpolate s.pressureTable raw
  | .flowA | .flowB | .ret | .dhwOut | .coldIn | .flue | .outdoor => interpolate s.ntc raw

/-- The filter step (R9). -/
def filterStep (k : Nat) (y x : Int) : Int := y + roundHalfAway (x - y) k

/-- A change of the fitted flag (R5). -/
def fittedStep (fit : Bool) (r : Channel) : Channel :=
  if !fit then
    (if r.validity = .notFitted then r
      else { r with validity := .notFitted, unproven := false, outRun := 0, inRun := 0, fault := false, filtered := none })
  else if r.validity = .notFitted then
    { r with validity := .invalid, unproven := true, outRun := 0, inRun := 0, fault := false, filtered := none }
  else r

/-- The range check of one sample (R4): `x` is the sample's converted value. -/
def rangeStep (k raw : Nat) (x : Int) (r0 : Channel) : Channel :=
  let r := { r0 with raw := raw }
  match r.validity with
  | .notFitted => r
  | .valid =>
    if outOfRange raw then
      (if 3 ≤ r.outRun + 1 then
        { r with validity := .invalid, outRun := 3, inRun := 0, fault := true, filtered := none }
      else { r with outRun := r.outRun + 1 })
    else
      { r with
        outRun := 0
        filtered := match r.filtered with
          | some y => some (filterStep k y x)
          | none => some x }
  | .invalid =>
    if outOfRange raw then
      let n := min 3 (r.outRun + 1)
      { r with outRun := n, inRun := if r.unproven then r.inRun else 0, fault := r.fault || decide (3 ≤ n) }
    else if r.unproven then
      { r with validity := .valid, unproven := false, outRun := 0, inRun := 0, fault := false, filtered := some x }
    else if 3 ≤ r.inRun + 1 then
      { r with validity := .valid, inRun := 3, outRun := 0, fault := false, filtered := some x }
    else { r with inRun := r.inRun + 1, outRun := 0 }

/-- One channel at a frame completion (R4, R5, R7, R9). -/
def channelStep (s : State) (f : Frame) (c : Chan) (r : Channel) : Channel :=
  let raw := sampleOf f c
  rangeStep c.k raw (s.convert c raw) (fittedStep (fitted s.latch.settings c) r)

/-- The frame count put in the place of the oldest of the ten (R14, R15). -/
def ringStep (ring : List Nat) (n : Nat) : List Nat := ring.drop 1 ++ [n]

/-- q from the ring (R14). -/
def flowOf (ring : List Nat) (kpl : Nat) : Nat := min 250 (quotNat (ring.sum * 600) kpl)

/-- Fan speed from the ring (R15). -/
def fanSpeedOf (ring : List Nat) : Nat := min 9000 (ring.sum * 30)

/-- flow_ctl of the two flow values (R10). -/
def flowCtlOf (a b : Value) : Value :=
  match a, b with
  | some x, some y => some (quot (x + y) 2)
  | some x, none => some x
  | none, some y => some y
  | none, none => none

/-- flow_lim of the two flow values (R10). -/
def flowLimOf (a b : Value) : Value :=
  match a, b with
  | some x, some y => some (max x y)
  | some x, none => some x
  | none, some y => some y
  | none, none => none

/-- The published outdoor value with its source (R16). -/
def State.outdoorOf (s : State) (wired : Value) : Int × OutdoorSource :=
  match wired with
  | some x => (x, .wired)
  | none =>
    match s.pe.outdoor, s.pe.outdoorAt with
    | some x, some t =>
      if s.time - t ≤ Config.outdoorAge then (x, .node) else (setToutFix s.latch.settings, .fixed)
    | _, _ => (setToutFix s.latch.settings, .fixed)

/-- Steps 1 to 4 of a frame completion (R1): samples closed, channels taken, values published. -/
def measure (f : Frame) (s : State) : State :=
  let m := s.mp.mapChan (channelStep s f)
  let dhw := ringStep m.dhwRing m.dhwCount
  let tacho := ringStep m.tachoRing m.tachoCount
  let out := s.outdoorOf m.outdoor.value
  s.onMp fun _ =>
    { m with
      dhwRing := dhw, tachoRing := tacho, dhwCount := 0, tachoCount := 0
      pub :=
        { flowCtl := flowCtlOf m.flowA.value m.flowB.value
          flowLim := flowLimOf m.flowA.value m.flowB.value
          flameCurrent := m.flame.current
          flamePresent := m.flame.present
          q := flowOf dhw (setKpl s.latch.settings)
          fanSpeed := fanSpeedOf tacho
          outdoor := out.1
          outdoorSource := out.2 } }

/-! ### Threshold events (R11, R17 to R20) -/

/-- The event of one channel's fault marker, its state before the frame being given (R17, R18): FLOW_SENSOR is cleared when neither flow marker remains set. -/
def channelEvent (old : Mp) (s : State) (c : Chan) : State :=
  let was := (old.chan c).fault
  let now := (s.mp.chan c).fault
  if now && !was then fmRaise c.source c.num s
  else if was && !now then
    (if c.source = .flowSensor ∧ (s.mp.flowA.fault ∨ s.mp.flowB.fault) then s else fmClear c.source s)
  else s

/-- FLOW_DISAGREE raised as its timer reaches 100 frames (R11). -/
def disagreeReached (s : State) : State :=
  fmRaise .flowDisagree noDetail (s.onMp fun m => { m with disagree := Config.disagreeFrames })

/-- The flow disagreement timer at a frame (R11). -/
def disagreeStep (s : State) : State :=
  if s.mp.flowsDisagree then
    (if s.mp.disagree + 1 = Config.disagreeFrames then disagreeReached s
      else if Config.disagreeFrames ≤ s.mp.disagree then s
      else s.onMp fun m => { m with disagree := m.disagree + 1 })
  else
    let s' := s.onMp fun m => { m with disagree := 0 }
    if Config.disagreeFrames ≤ s.mp.disagree then fmClear .flowDisagree s' else s'

/-- LOW_PRESSURE (R19). -/
def lowPressureStep (s : State) : State :=
  let p := s.mp.pressure.value
  if Value.lt p s.lowPressure && !s.mp.lowP then
    fmRaise .lowPressure noDetail (s.onMp fun m => { m with lowP := true })
  else if Value.ge p s.recoverPressure && s.mp.lowP then
    fmClear .lowPressure (s.onMp fun m => { m with lowP := false })
  else s

/-- HIGH_PRESSURE (R19). -/
def highPressureStep (s : State) : State :=
  let p := s.mp.pressure.value
  if Value.gt p 280 && !s.mp.highP then
    fmRaise .highPressure noDetail (s.onMp fun m => { m with highP := true })
  else if Value.lt p 260 && s.mp.highP then
    fmClear .highPressure (s.onMp fun m => { m with highP := false })
  else s

/-- FLUE_HIGH, with its stop demand to BS (R19). -/
def flueHighStep (s : State) : State :=
  let v := s.mp.flue.value
  if Value.ge v s.flueLimit && !s.mp.flueHigh then
    fmRaise .flueHigh noDetail (faultStop (s.onMp fun m => { m with flueHigh := true }))
  else if Value.lt v ((s.flueLimit : Int) - 100) && s.mp.flueHigh then
    fmClear .flueHigh (s.onMp fun m => { m with flueHigh := false })
  else s

/-- NO_CIRCULATION with its stop demand, the timer returned to 0 (R20). -/
def circulationReached (s : State) : State :=
  fmRaise .noCirculation noDetail (faultStop (s.onMp fun m => { m with circ := 0 }))

/-- The conditions of the circulation timer (R20). -/
def State.noCirculation (s : State) : Bool :=
  (s.bs.state == .stabilise || s.bs.state == .run)
    && Value.gt (Value.minus s.mp.pub.flowCtl s.mp.ret.value) 400

/-- The circulation timer at a frame (R20). -/
def circulationStep (s : State) : State :=
  if s.noCirculation then
    (if Config.circFrames ≤ s.mp.circ + 1 then circulationReached s
      else s.onMp fun m => { m with circ := m.circ + 1 })
  else s.onMp fun m => { m with circ := 0 }

/-- Step 5 of a frame completion (R1): the threshold events on the values just published. DESIGN CHOICE: the rules give MP's events of one frame no order; here come the channel faults by number, FLOW_DISAGREE, LOW_PRESSURE, HIGH_PRESSURE, FLUE_HIGH, and the circulation timer, which so sees the burner after FLUE_HIGH's stop (log 8). -/
def measureEvents (old : Mp) (s : State) : State :=
  circulationStep (flueHighStep (highPressureStep (lowPressureStep (disagreeStep
    (channels.foldl (channelEvent old) s)))))

/-! ### Flame (R12, R13) -/

/-- What a flame sample gives BS. -/
inductive FlameEvent where
  | none
  | on
  | loss
deriving DecidableEq, Repr

/-- One flame sample of current `i` against the thresholds (R13). -/
def flameStep (on off i : Nat) (f : Flame) : Flame × FlameEvent :=
  let g := { f with current := i }
  if f.present then
    (if i < off then
      (if 3 ≤ f.offRun + 1 then ({ g with present := false, onRun := 0, offRun := 0 }, .loss)
        else ({ g with offRun := f.offRun + 1 }, .none))
    else ({ g with onRun := 0, offRun := 0 }, .none))
  else if on ≤ i then
    (if 3 ≤ f.onRun + 1 then ({ g with present := true, onRun := 0, offRun := 0 }, .on)
      else ({ g with onRun := f.onRun + 1 }, .none))
  else ({ g with onRun := 0, offRun := 0 }, .none)

/-- A flame-on event at BS (R31, R32, R41, R42). -/
def flameOnEvent (s : State) : State :=
  if firing s.bs then (if s.bs.state = .ignition then establishFlame s else s)
  else if s.bs.ffRaised || s.bs.postGas.isSome then s
  else s.onBs fun b => { b with falseFlame := s.deadline Config.tFf }

/-- A flame-loss event at BS (R37, R41). -/
def flameLossEvent (s : State) : State :=
  let s := s.onBs fun b => { b with falseFlame := none, ffRaised := false }
  if s.bs.state = .stabilise ∨ s.bs.state = .run then
    if s.bs.recycles < sbNrec s.st.safety then
      let s := (s.onBs fun b => { b with recycles := b.recycles + 1 }).bump 4
      toPostPurge .flameLossRecycle false true s
    else fmRaise .flameLoss noDetail (toPostPurge .flameLoss false false s)
  else s

end Sys2Proof.Machine
end

