-- ==== Sys2Proof/Machine/ModFrame.lean ====
section
/-! DEFINITION. The modulation unit at a frame completion (R80): stages 1 to 4, the cycling record, the overshoot stops, the final output and its delivery. -/

namespace Sys2Proof.Machine

/-- flow_ctl has reached Ts + Hoff (R96, R99); not satisfied when either is ABSENT. -/
def State.chOvershoot (s : State) : Bool :=
  Value.ge (Value.minus s.mp.pub.flowCtl s.mu.ts) (setHoff s.latch.settings)

/-- flow_ctl has fallen below Ts (R99). -/
def State.chBelow (s : State) : Bool := Value.lt (Value.minus s.mp.pub.flowCtl s.mu.ts) 0

/-- The OFF_PHASE mark set: the record stands in OFF_PHASE and the record of the request is delivered, the withdrawal being caused by the mark (R96, R73). -/
def endOnPhase (s : State) : State :=
  deliverRecord true ((offPhaseStart s).onDm fun d => { d with offPhase := true })

/-- The OFF_PHASE mark released, the record staying in OFF_PHASE (R97). -/
def endOffPhase (s : State) : State := deliverRecord false (s.onDm fun d => { d with offPhase := false })

/-- 100 ms off the time remaining in the phase (R96, R97). -/
def countPhase (s : State) : State := s.onCyc fun c => { c with remain := c.remain - 100 }

/-- ON_PHASE at a frame completion (R96); `count` tells that the phase was running before this frame. -/
def onPhaseFrame (count : Bool) (s : State) : State :=
  let s := if count then countPhase s else s
  if (count && s.mu.cyc.remain == 0) || s.chOvershoot then endOnPhase s else s

/-- OFF_PHASE at a frame completion (R97). -/
def offPhaseFrame (s : State) : State :=
  if s.mu.cyc.remain = 0 then s
  else
    let s := countPhase s
    if s.mu.cyc.remain = 0 then endOffPhase s else s

/-- The CH overshoot stop at a frame completion (R99). -/
def chStopFrame (s : State) : State :=
  if s.dm.chStop then
    (if s.chBelow then deliverRecord false (s.onDm fun d => { d with chStop := false }) else s)
  else if s.chOvershoot then deliverRecord false (s.onDm fun d => { d with chStop := true })
  else s

/-- The DHW overshoot stop at a frame completion (R100). -/
def dhwStopFrame (s : State) : State :=
  let t := setTdhw s.latch.settings
  let v := s.mp.dhwOut.value
  if s.dm.dhwStop then
    (if Value.lt v ((t : Int) + 20) then deliverRecord false (s.onDm fun d => { d with dhwStop := false }) else s)
  else if Value.ge v ((t : Int) + 150) then deliverRecord false (s.onDm fun d => { d with dhwStop := true })
  else s

/-- The entry to ON_PHASE from INACTIVE in RUN with u_raw below m_min (R95). -/
def State.entersOnPhase (s : State) : Bool :=
  s.mu.cyc.state == .inactive && s.bs.state == .run && decide (s.mu.uRaw.getD 0 < s.mMin)

/-- The cycling record and the stop conditions of a CH frame (R95 to R97, R99). An entry to ON_PHASE is taken before the overshoot is looked at (log 11). -/
def chCycleFrame (s : State) : State :=
  let s := muPending s
  match s.mu.cyc.state with
  | .onPhase => onPhaseFrame true s
  | .offPhase => offPhaseFrame s
  | .inactive => if s.entersOnPhase then onPhaseFrame false (onPhaseStart s) else chStopFrame s

/-- Whether any withholding mark stands that did not stand before (R80). -/
def marksSet (old new : Dm) : Bool :=
  (new.chStop && !old.chStop) || (new.offPhase && !old.offPhase) || (new.dhwStop && !old.dhwStop)

/-- The final output in RUN (R94). -/
def State.finalOutput (s : State) : Nat :=
  if s.mu.cyc.state = .onPhase then s.mMin else max (s.mu.uS.getD 0) s.mMin

/-- Stages 5 (floor) and 6: the output formed and delivered to BS (R94, R102). -/
def deliverOutput (s : State) : State :=
  let u := s.finalOutput
  let r := fanMap s.fanMapPoints u
  setFanTarget r (s.onMu fun m => { m with uOut := u, uPrev := u, fanOut := r })

/-- MU at a frame completion (R80). With circuit NONE it computes nothing. -/
def muFrame (s0 : State) : State :=
  if s0.dm.circuit = .none then s0
  else
    let s := muCompute s0
    let s :=
      match s.dm.circuit with
      | .ch => chCycleFrame s
      | .dhw => dhwStopFrame s
      | .frost => s
      | .none => s
    if s.bs.state = .run ∧ marksSet s0.dm s.dm = false then deliverOutput s else s

end Sys2Proof.Machine
end

