-- ==== Sys2Proof/Machine/Frame.lean ====
section
/-! DEFINITION. The burner sequencer at a frame completion, and the frame completion as a whole (R1, R80; order of the blocks: log 8). -/

namespace Sys2Proof.Machine

/-! ### Supervision (R43 to R45) -/

/-- LIMIT_IN at a frame completion (R44). -/
def limitStep (s : State) : State :=
  if s.lines.limitOpen && !s.bs.limitMark then
    fmRaise .limitStat noDetail (faultStop (s.onBs fun b => { b with limitMark := true }))
  else if !s.lines.limitOpen && s.bs.limitMark then
    fmClear .limitStat (s.onBs fun b => { b with limitMark := false })
  else s

/-- flow_lim against T_limit at a frame completion (R45). -/
def overheatStep (s : State) : State :=
  let v := s.mp.pub.flowLim
  if Value.ge v s.tLimit && !s.bs.overheatMark then
    fmRaise .overheat noDetail (faultStop (s.onBs fun b => { b with overheatMark := true }))
  else if Value.lt v ((s.tLimit : Int) - 150) && s.bs.overheatMark then
    fmClear .overheat (s.onBs fun b => { b with overheatMark := false })
  else s

/-- Detail of a relay (section 10.5). -/
def relayDetail (r : Relay) : Nat :=
  match r with
  | .gas1 => 0
  | .gas2 => 1

/-- A relay's mismatch found: the mark set, the fault stop applied and GAS_RELAY raised (R43). -/
def mismatchFound (r : Relay) (s : State) : State :=
  fmRaise .gasRelay (relayDetail r) (faultStop (setMismatch r none true s))

/-- An energised readback of one relay in PRE_CHECK (R43). Both relays are looked at in one pass, so the state is that before the pass. -/
def preCheckRelay (before : State) (s : State) (r : Relay) : State :=
  if before.lines.readback r && !before.bs.mark r then mismatchFound r s else s

/-- The relay check at the entry to PRE_CHECK and at each frame completion in it (R43). DESIGN CHOICE: with both readbacks energised GAS1 is raised before GAS2, so the record's detail ends as GAS2 and a history entry's is GAS1 (log 27). -/
def relayCheck (s : State) : State :=
  if s.bs.state = .preCheck then [Relay.gas1, .gas2].foldl (preCheckRelay s) s else s

/-- The four pre-check conditions (R27). -/
def State.preCheckHolds (s : State) : Bool :=
  decide (s.mp.pub.fanSpeed < 100) && !s.mp.flame.present && !s.lines.relay1Fb && !s.lines.relay2Fb
    && !s.lines.limitOpen

/-- PRE_CHECK at a frame completion (R27, R43). -/
def preCheckStep (s : State) : State :=
  let s := relayCheck s
  if s.bs.state = .preCheck ∧ s.preCheckHolds then toPrePurge s else s

/-! ### Fan deviation (R47) -/

/-- FAN_DEVIATION as the timer reaches 100: safe-off, the burner sent on by the fan speed, the timer 0, and the source raised after the rule's other steps (R23, R47). -/
def fanDeviationReached (s : State) : State :=
  let s := if 100 ≤ s.mp.pub.fanSpeed then toPostPurge .fanDeviation false false s else toStandby .fanDeviation s
  fmRaise .fanDeviation noDetail (s.onBs fun b => { b with fanDev := 0 })

/-- The fan deviation timer at a frame completion (R47). -/
def fanDeviationStep (s : State) : State :=
  if s.bs.state = .stabilise ∨ s.bs.state = .run then
    (if fanDeviates s then
      (if Config.fanDevFrames ≤ s.bs.fanDev + 1 then fanDeviationReached s
        else s.onBs fun b => { b with fanDev := b.fanDev + 1 })
    else s.onBs fun b => { b with fanDev := 0 })
  else s.onBs fun b => { b with fanDev := 0 }

/-! ### The frame -/

/-- BS at a frame completion, after DM and MU: its supervision, the step of its state, the fan speed controller and the fan deviation timer. -/
def bsFrame (s : State) : State :=
  let s := overheatStep (limitStep s)
  let s :=
    match s.bs.state with
    | .preCheck => preCheckStep s
    | .prePurge => purgeStep s
    | .standby | .ignition | .stabilise | .run | .postPurge | .lockout => s
  fanDeviationStep (fanControl s)

/-- The tables as the blocks work with them from this frame on (R8, R52, R57, R81; log 16). -/
def latchTables (s : State) : State :=
  { s with
    latch := { settings := s.st.settings, curve := s.st.curve, zones := s.st.zones, safety := s.st.safety
               valid := s.liveValid } }

/-- The clock at a frame completion: 100 ms after the last (R1, log 1). -/
def frameClock (s : State) : State :=
  let t := max s.clock.now (s.clock.frameAt + Config.frame)
  s.onClock fun c => { c with now := t, frameAt := t }

/-- START_UP removed at the first frame completion after the load (R199); `first` tells that this is it. -/
def startUpRemoval (first : Bool) (s : State) : State := if first then s.setStartUp false else s

/-- MP's part of a frame completion, with the tables and LIMIT_IN as read at the frame (R1). -/
def frameMeasure (f : Frame) (s : State) : State :=
  let s := (latchTables (frameClock s)).onLines fun l => { l with limitOpen := f.limitOpen }
  let old := s.mp
  measureEvents old ((measure f s).onMp fun m => { m with firstFrame := true })

/-- A frame completion (R1): MP publishes and evaluates its events, then DM, MU and BS act. -/
def frameStep (f : Frame) (s : State) : State :=
  startUpRemoval (!s.mp.firstFrame) (bsFrame (antiCycleCheck (muFrame (dmFrame (frameMeasure f s)))))

/-- Frames that a command asserts to have passed (log 3). -/
def passFrames (n : Nat) (s : State) : State :=
  let t := max s.clock.now (s.clock.frameAt + n * Config.frame)
  s.onClock fun c => { c with now := t, frameAt := t }

end Sys2Proof.Machine
end

