-- ==== Sys2Proof/Machine/Settle.lean ====
section
/-! DEFINITION. What the part does at the end of every event for which a condition has come to hold: the start of a page write (R195), the entry to PRE_CHECK (R26) and the pump's idle timer (R77). See log 9. -/

namespace Sys2Proof.Machine

/-! ### Page writes -/

/-- The bytes a job's write copies as it begins (R193, R196). -/
def State.jobCopy (s : State) (j : Job) : List Byte :=
  if j.commit then slice s.mg.staging (32 * j.page) 32 else s.pageImage j.page

/-- A write begun (R192, R193, R195). -/
def beginWrite (j : Job) (s : State) : State :=
  let t := s.nv.target j.page
  let two := j.page == 8 || j.page == 9
  let w : Write :=
    { page := j.page, copy := s.jobCopy j, attempt := 1, due := s.clock.now + Config.tPage, commit := j.commit
      slotB := two && t.1, number := if two then t.2 else 0, carried := s.fm.lockout.image.state }
  s.onSt fun q => { q with write := some w }

/-- The next write begun when none is in progress: the lockout page job first, then the oldest job, which leaves the queue (R195). -/
def startWrite (s : State) : State :=
  if s.st.write.isSome then s
  else if s.st.lockJob then beginWrite { page := 8, commit := false } (s.onSt fun q => { q with lockJob := false })
  else
    match s.st.jobs with
    | [] => s
    | j :: r => beginWrite j (s.onSt fun q => { q with jobs := r })

/-! ### PRE_CHECK -/

/-- PRE_CHECK entered: the retry mark consumed, tPCHK started and the relays looked at (R26, R39, R43). -/
def toPreCheck (s : State) : State :=
  let s := setFanTarget 0 (bsMove .preCheck .fault false s)
  relayCheck (s.onBs fun b => { b with retry := false, tPchk := s.deadline Config.tPchk })

/-- The start conditions of R26. -/
def State.mayStart (s : State) : Bool := s.bs.state == .standby && s.dm.active && !s.inhibited

/-- The departure from STANDBY (R26). -/
def leaveStandby (s : State) : State := if s.mayStart then toPreCheck s else s

/-! ### Pump -/

/-- The idle timer returned to 0 while PUMP_EN is on for a reason other than a kick (R77). DESIGN CHOICE: where the removal of a LOW_PRESSURE record that held a kick at 24 h itself turns the pump on for another reason, the timer returns to 0 and no kick starts (log 25). -/
def idleSync (s : State) : State :=
  if s.pumpWanted && (s.record .lowPressure).isNone then s.onDm fun d => { d with idle := 0 } else s

/-- The end of every event of a part in operation. -/
def settle (s : State) : State := startWrite (idleSync (leaveStandby s))

/-- An event of a part in operation; without power, or during the power-up load, nothing happens (log 2). -/
def State.event (s : State) (f : State → State) : State := if s.power = .on then settle (f s) else s

end Sys2Proof.Machine
end

