-- ==== Sys2Proof/Machine/Link.lean ====
section
/-! DEFINITION. The zone bus port's own operations (chapter 6): telegrams, the bit timer and its holds, the line check, the receive assembly, and the port's entries to CLEARING, FAULT, SETTLING and READY. What the poll engine does with a result stands in Bus. -/

namespace Sys2Proof.Machine

/-! ### Telegrams (R132, R134, R135) -/

/-- The bytes of a telegram from the part to a node: header, payload and check byte (R135, section 10.1). -/
def telegram (node kind : Nat) (payload : List Byte) : List Byte :=
  let body := [byte node, 0, byte kind, byte payload.length] ++ payload
  body ++ [crc8 body]

/-- The levels of a byte on the line, one for each tBIT, dominant being true: start bit, data from bit 0, stop bit (R133). -/
def byteLevels (b : Byte) : List Bool := true :: ((List.range 8).map fun i => !b.getLsbD i) ++ [false]

/-- The levels ZP drives for a telegram: start mark, mark gap and bytes (R134). -/
def telegramLevels (bs : List Byte) : List Bool :=
  List.replicate 12 true ++ List.replicate 2 false ++ (bs.map byteLevels).flatten

/-- The levels ZP drives in an exchange's sending or closing phase; the closing telegram has 2 tBIT of idle line before its mark (R140). -/
def Exchange.levels (x : Exchange) : List Bool :=
  if x.phase = .closing then List.replicate 2 false ++ telegramLevels x.out else telegramLevels x.out

/-- Ticks of the bit timer that a sending or closing phase takes. -/
def Exchange.length (x : Exchange) : Nat := Config.tBit * x.levels.length

/-- The bit timer at a time: it stands still during a hold (R137). A hold may be noted ahead of its start, while ZP still drives a dominant level. -/
def Exchange.sentBy (x : Exchange) (now : Nat) : Nat :=
  match x.hold with
  | some h => x.sent - (h - now)
  | none => x.sent + (now - x.sentAt)

/-- Ticks from a position of the bit timer until ZP drives idle. -/
def Exchange.toIdle (x : Exchange) (pos : Nat) : Nat :=
  let k := pos / Config.tBit
  let n := ((x.levels.drop k).takeWhile id).length
  if n = 0 then 0 else Config.tBit * (k + n) - pos

/-- A dominant level of another party at a time: a hold begins as soon as ZP drives idle (R137). -/
def Exchange.holdFrom (x : Exchange) (now : Nat) : Exchange :=
  let w := x.toIdle (x.sentBy now)
  { x with sent := x.sentBy now + w, hold := some (now + w), sentAt := now }

/-- The line's return to idle: the bit timer resumes from where it stood (R137). In the 2 tBIT wait before the closing mark the whole wait starts again, DESIGN CHOICE: R137 would resume it, R140 asks for 2 tBIT of idle line (log 28). -/
def Exchange.release (x : Exchange) (now : Nat) : Exchange :=
  let pos := x.sentBy now
  { x with sent := if x.phase = .closing ∧ pos < 2 * Config.tBit then 0 else pos, sentAt := now, hold := none }

/-- The time at which the last stop bit of a sending or closing phase has been sent, when no hold stands. -/
def Exchange.sentTime (x : Exchange) : Timer :=
  match x.hold with
  | some _ => none
  | none => some (x.sentAt + (x.length - x.sent))

/-- Ticks for which the line has been idle at the end of a byte's stop bit: the stop bit and the ones before it (log 21). -/
def idleTail (b : Byte) : Nat :=
  Config.tBit * (1 + (((List.range 8).map fun i => b.getLsbD (7 - i)).takeWhile id).length)

/-! ### State updates -/

/-- The exchange in flight changed by `f`. -/
def State.onExch (s : State) (f : Exchange → Exchange) : State := s.onZp fun z => { z with exch := z.exch.map f }

/-- Whether the exchange in flight is in a phase. -/
def State.inPhase (s : State) (p : Phase) : Bool :=
  match s.zp.exch with
  | some x => x.phase == p
  | none => false

/-- The line idle since a number of ticks before now, or since its last change where that came later: a hold released within those ticks began the idle run anew (R136). -/
def lineIdleFor (n : Nat) (s : State) : State :=
  s.onLines fun l => { l with busDominant := false, busSince := max l.busSince (s.clock.now - n) }

/-- The line dominant from now. -/
def lineDominant (s : State) : State := s.onLines fun l => { l with busDominant := true, busSince := s.clock.now }

/-! ### Line check and sending (R132, R136, R137) -/

/-- The start mark begun (R136). -/
def startSending (s : State) : State :=
  s.onExch fun x => { x with phase := .sending, sent := 0, sentAt := s.clock.now, hold := none }

/-- The time at which an idle line will have been idle for 4 tBIT. -/
def State.idleDue (s : State) : Nat := s.lines.busSince + 4 * Config.tBit

/-- An exchange request taken in READY (R132): line check, and the start mark at once on a line idle for 4 tBIT (R136). -/
def zpRequest (node kind : Nat) (payload : List Byte) (replies : List Nat) (s : State) : State :=
  let x : Exchange :=
    { node := node, kind := kind, replies := replies, phase := .lineCheck, out := telegram node kind payload
      checkAt := s.clock.now }
  let s := s.onZp fun z => { z with port := .exchange, exch := some x }
  if s.lines.busDominant = false ∧ s.idleDue ≤ s.clock.now then startSending s else s

/-- The request sent: awaiting, with tREPLY started (R137). -/
def requestSent (s : State) : State :=
  match s.zp.exch with
  | some x =>
    (lineIdleFor (idleTail (x.out.getLastD 0)) s).onExch fun x =>
      { x with phase := .awaiting, hold := none, reply := s.deadline Config.tReply, replyExpired := false }
  | none => s

/-- A closing telegram handed by PE (R140). -/
def zpClosing (payload : List Byte) (s : State) : State :=
  s.onExch fun x =>
    { x with
      phase := .closing, out := telegram x.node kindAnswer payload, sent := 0, sentAt := s.clock.now
      hold := if s.lines.busDominant then some s.clock.now else none
      reply := none, rxMax := none, gap := none }

/-! ### Receiving (R138) -/

/-- The receive assembly emptied. -/
def rxEmpty (z : Zp) : Zp := { z with rx := [], rxCheck := 0 }

/-- The start mark of a reply recognised: `edge` is the time its dominant run began (R138). -/
def startReceiving (edge : Nat) (s : State) : State :=
  (s.onZp rxEmpty).onExch fun x =>
    { x with
      phase := .receiving, reply := none, replyExpired := false, rxMax := some (edge + Config.tRxmax)
      gap := s.deadline (10 * Config.tBit) }

/-- Whether a dominant run that began at `edge` may be the reply's start mark (R138). -/
def Exchange.inWindow (x : Exchange) (edge : Nat) : Bool :=
  match x.reply with
  | some d => decide (edge ≤ d)
  | none => x.replyExpired

/-- A byte added to the receive assembly (R138). -/
def rxByte (b : Byte) (s : State) : State :=
  (s.onZp fun z => { z with rx := z.rx ++ [b], rxCheck := crc8Byte z.rxCheck b }).onExch fun x =>
    { x with gap := s.deadline (10 * Config.tBit) }

/-- The next byte is the check byte. -/
def Zp.checkDue (z : Zp) : Bool := decide (4 ≤ z.rx.length ∧ z.rx.length = 4 + u8 z.rx 3)

/-- The failure a complete reply is judged with, or none for a good reply (R139). -/
def judge (x : Exchange) (rx : List Byte) (computed check : Byte) : Option Reason :=
  if computed ≠ check then some .check
  else if u8 rx 0 ≠ 0 ∨ u8 rx 1 ≠ x.node then some .mismatch
  else if x.replies.contains (u8 rx 2) then none
  else some .mismatch

/-! ### Ends of an exchange -/

/-- The exchange over, the port back in READY (R139, R140, R141). -/
def exchangeOver (s : State) : State := s.onZp fun z => { rxEmpty z with exch := none, port := .ready }

/-- Steps 1 to 3 of R141 and step 5, taken before the failure is reported: to PE, or in the closing phase as the closing outcome. At a bus port reset the port is set afterwards (R145). -/
def recordFailure (r : Reason) (s : State) : State :=
  match s.zp.exch with
  | some x =>
    exchangeOver (s.onZp fun z =>
      { z with lastFail := some { reason := r, node := x.node, kind := x.kind, time := s.time } })
  | none => s

/-! ### Supply and port states (R131, R142 to R144) -/

/-- The supply switched on and tSETTLE started (R131, R142, R144). -/
def toSettling (s : State) : State :=
  s.onZp fun z => { z with port := .settling, settle := s.deadline Config.tSettle, clear := none, fault := none }

/-- CLEARING entered, with the clear's time listed (R142). -/
def toClearing (kept : List Nat) (s : State) : State :=
  s.onZp fun z =>
    { z with port := .clearing, settle := none, clear := s.deadline Config.tClear, fault := none, clears := kept ++ [s.time] }

/-- FAULT entered, with the marker set and BUS_FAULT raised (R142, R143, R144). -/
def toFault (s : State) : State :=
  fmRaise .busFault noDetail (s.onZp fun z =>
    { z with
      port := .fault, settle := none, clear := none, fault := s.deadline Config.tFault, clears := [], busFault := true })

/-- The times of the clear list that lie within 600 s (R142). DESIGN CHOICE: they are power-on times in whole seconds, as 00_scope.md gives them, where section 6.7 works in milliseconds (log 28). -/
def State.recentClears (s : State) : List Nat := s.zp.clears.filter fun t => decide (s.time - t < Config.clearWindow)

/-- The first good reply clears BUS_FAULT (R139, R144). -/
def busFaultClear (s : State) : State :=
  if s.zp.busFault then fmClear .busFault (s.onZp fun z => { z with busFault := false }) else s

end Sys2Proof.Machine
end

