-- ==== Sys2Proof/Machine/TableAccess.lean ====
section
/-! DEFINITION. Tables as management requests see them (R173 to R180, section 10.6): where an entry lies, the checks and clamps of a written entry, and the checks of a staged safety block. -/

namespace Sys2Proof.Machine

/-! ### Entries (section 10.6) -/

/-- Offset and size of an entry of SETTINGS. -/
def settingsEntry (e : Nat) : Option (Nat × Nat) :=
  if e < 10 then some (e, 1) else if e < 21 then some (10 + 2 * (e - 10), 2) else none

/-- Offset and size of an entry of the safety block. -/
def safetyEntry (e : Nat) : Option (Nat × Nat) :=
  if e < 21 then some (2 * e, 2)
  else if e < 37 then some (42 + 4 * (e - 21), 4)
  else if e < 41 then some (106 + 4 * (e - 37), 4)
  else if e = 41 then some (122, 2)
  else if e < 50 then some (124 + 4 * (e - 42), 4)
  else if e = 50 then some (254, 2)
  else none

/-- Offset and size of an entry of a table in the table's image; none beyond the table's last entry. -/
def entryAt (table e : Nat) : Option (Nat × Nat) :=
  match table with
  | 0 => settingsEntry e
  | 1 => if e = 0 then some (0, 1) else if e ≤ 8 then some (1 + 3 * (e - 1), 3) else none
  | 2 => if e < 8 then some (8 * e, 8) else none
  | 3 => if e < 15 then some (8 * e, 8) else none
  | 4 => if e = 0 then some (0, 1) else if e ≤ 32 then some (pollOffset (e - 1), 3) else none
  | 5 => if e < 26 then some (4 * e, 4) else none
  | 6 => safetyEntry e
  | 7 => safetyEntry e
  | 8 => if e = 0 then some (0, 2) else if e ≤ 6 then some (e + 1, 1) else none
  | 9 => if e < 7 then some (4 * e, 4) else none
  | _ => none

/-- IDENT: part code, feature level and capacities (R173, section 10.6). -/
def identImage : List Byte := put16 416 ++ [1, 8, 15, 32, 26, 32]

/-- The image of a table (R173). -/
def State.tableImage (s : State) (table : Nat) : List Byte :=
  match table with
  | 0 => s.st.settings
  | 1 => s.st.curve
  | 2 => s.st.zones
  | 3 => s.st.nodes
  | 4 => s.st.poll
  | 5 => s.st.faultCodes
  | 6 => s.st.safety
  | 7 => s.mg.staging
  | 8 => identImage
  | 9 => countersPage s.st.counters
  | _ => []

/-- The entry's bytes as the table's image holds them. -/
def State.entryBytes (s : State) (table : Nat) (at' : Nat × Nat) : List Byte := slice (s.tableImage table) at'.1 at'.2

/-- The page that holds an entry of a settings-class table or of COUNTERS (section 10.6). -/
def entryPage (table e : Nat) : Nat :=
  match table with
  | 0 => 11
  | 1 => 12
  | 2 => 13 + e / 4
  | 3 => 15 + e / 4
  | 4 => if e = 0 then 19 else 19 + (e - 1) / 10
  | 5 => 23 + e / 8
  | _ => 10

/-! ### Checks and clamps of a written entry (R176); `none` is a refusal, and the mark tells that a field was clamped -/

/-- A one-byte number clamped. -/
def clamp8 (lo hi : Nat) (d : List Byte) : List Byte × Bool :=
  let x := u8 d 0
  let y := clampNat lo hi x
  (put8 y, x != y)

/-- A two-byte number clamped. -/
def clamp16 (lo hi : Nat) (d : List Byte) : List Byte × Bool :=
  let x := u16 d 0
  let y := clampNat lo hi x
  (put16 y, x != y)

/-- The live m_min, or the built-in one (R176). -/
def State.liveMmin (s : State) : Nat := if s.liveValid then sbMmin s.st.safety else 150

/-- Upper bound of Tch_max (R85). -/
def State.tchMaxBound (s : State) : Nat := min 850 (s.tLimit - 100)

/-- Ranges of the one-byte numbers of SETTINGS, entries 2 to 9 (R52, R81). -/
def settingsRange8 (e : Nat) : Nat × Nat :=
  match e with
  | 2 => (0, 60)
  | 3 => (2, 20)
  | 4 => (30, 100)
  | 9 => (20, 150)
  | _ => (0, 100)

/-- Ranges of the two-byte unsigned numbers of SETTINGS, entries 10 to 19, with the cross-bounds against the stored values and the live block (R14, R52, R81, R85). -/
def State.settingsRange16 (s : State) (e : Nat) : Nat × Nat :=
  match e with
  | 10 => (0, 900)
  | 11 => (0, 600)
  | 12 => (350, 600)
  | 13 => (min 200 (setTchMax s.st.settings), min 500 (setTchMax s.st.settings))
  | 14 => (min (max 400 (setTchMin s.st.settings)) s.tchMaxBound, s.tchMaxBound)
  | 15 => (s.liveMmin, 1000)
  | 16 => (300, 1800)
  | 17 => (700, 900)
  | 18 => (50, 250)
  | _ => (100, 1000)

/-- A SETTINGS entry (R176). -/
def State.checkSettings (s : State) (e : Nat) (d : List Byte) : Option (List Byte × Bool) :=
  if e = 0 then (if u8 d 0 ≤ 2 then some (put8 (u8 d 0), false) else none)
  else if e = 1 then some (put8 (bits (u8 d 0) 0 4), false)
  else if e < 10 then some (clamp8 (settingsRange8 e).1 (settingsRange8 e).2 d)
  else if e < 20 then some (clamp16 (s.settingsRange16 e).1 (s.settingsRange16 e).2 d)
  else
    let x := s16 d 0
    let y := clamp (-300) 300 x
    some (putInt16 y, x != y)

/-- The order rule over consecutive points: outdoor values rising, flow values not rising (R177). -/
def curveOrdered : List (Int × Int) → Bool
  | [] => true
  | [_] => true
  | p :: q :: r => decide (p.1 < q.1) && decide (q.2 ≤ p.2) && curveOrdered (q :: r)

/-- A CURVE entry, the order rule being tested on the table as it would stand (R177). -/
def State.checkCurve (s : State) (e : Nat) (d : List Byte) : Option (List Byte × Bool) :=
  let new :=
    if e = 0 then clamp8 2 8 d
    else
      let w := u24 d 0
      let o := signed 12 (bits w 0 12)
      let t : Int := bits w 12 12
      let o' := clamp (-400) 400 o
      let t' := clamp 100 900 t
      (putCurvePoint o' t', o != o' || t != t')
  let after := splice s.st.curve (if e = 0 then 0 else 1 + 3 * (e - 1)) new.1
  if (e = 0 ∨ e ≤ curveCount after) ∧ curveOrdered (curvePoints after) = false then none else some new

/-- A ZONES entry (R176). -/
def checkZone (d : List Byte) : Option (List Byte × Bool) :=
  if 14 < u8 d 1 ∨ 3 < u8 d 2 then none
  else
    let run := clampNat 30 300 (u16 d 3)
    let off := clamp (-100) 100 (s8 d 5)
    some
      (put8 (bits (u8 d 0) 0 3) ++ put8 (u8 d 1) ++ put8 (u8 d 2) ++ put16 run ++ put8 (field 8 off) ++ [0, 0],
        run != u16 d 3 || off != s8 d 5)

/-- A NODES entry, for address e + 1 (R148). -/
def State.checkNode (s : State) (e : Nat) (d : List Byte) : Option (List Byte × Bool) :=
  let a := e + 1
  let kind := u8 d 0
  let zone := u8 d 1
  let new := nodeRecord (d.getD 0 0) (d.getD 1 0)
  let named := addresses.any fun b => b != a && namesZone s.st.nodes zone b
  if 5 < kind ∨ (7 < zone ∧ zone ≠ 255) then none
  else if a = 15 then (if new = slice s.st.nodes (8 * e) 8 then some (new, false) else none)
  else if kind = 5 then none
  else if kind = 1 ∧ zone ≠ 255 ∧ named then none
  else some (new, false)

/-- A POLL entry; entry 0 is the header (R151). -/
def checkPoll (e : Nat) (d : List Byte) : Option (List Byte × Bool) :=
  if e = 0 then some (clamp8 5 50 d)
  else
    let node := bits (u8 d 0) 0 4
    let div := bits (u8 d 0) 4 4
    let kind := bits (u8 d 1) 0 3
    if 5 < kind ∨ 7 < u8 d 2 then none
    else some (put8 (node + 16 * max 1 div) ++ put8 (bits (u8 d 1) 0 6) ++ put8 (u8 d 2), div == 0)

/-- A FAULTCODES entry (R107, R176). -/
def checkFaultCode (d : List Byte) : Option (List Byte × Bool) :=
  let w := u16 d 0
  let code := bits w 0 10
  let cls := bits w 10 2
  let count := u8 d 2
  let window := bits (u8 d 3) 0 7
  if cls = 3 then none
  else
    some
      (put16 (min 999 code + 1024 * cls) ++ put8 (min 7 count)
          ++ put8 (clampNat 1 72 window + 128 * bits (u8 d 3) 7 1),
        decide (999 < code) || decide (7 < count) || clampNat 1 72 window != window)

/-- A COUNTERS entry: a zeroing, the power-on seconds excepted (R174). -/
def checkCounter (e : Nat) (d : List Byte) : Option (List Byte × Bool) :=
  if e = 0 ∨ u32 d 0 ≠ 0 then none else some (put32 0, false)

/-- A written entry of a table that takes writes into its live image (R175). -/
def State.checkWrite (s : State) (table e : Nat) (d : List Byte) : Option (List Byte × Bool) :=
  match table with
  | 0 => s.checkSettings e d
  | 1 => s.checkCurve e d
  | 2 => checkZone d
  | 3 => s.checkNode e d
  | 4 => checkPoll e d
  | 5 => checkFaultCode d
  | 9 => checkCounter e d
  | _ => none

/-! ### The staged safety block (R180) -/

/-- A pair of table points in order: the first coordinate strictly rising and the second strictly rising or falling. -/
def pointsRise (p q : Int × Int) : Bool := decide (p.1 < q.1) && decide (p.2 < q.2)
def pointsFall (p q : Int × Int) : Bool := decide (p.1 < q.1) && decide (q.2 < p.2)

/-- The first point that lies outside its bounds or breaks the order with the point before it, with entries numbered from `n`. -/
def badPoint (hi1 lo2 hi2 : Int) (order : (Int × Int) → (Int × Int) → Bool) :
    Nat → Option (Int × Int) → List (Int × Int) → Option Nat
  | _, _, [] => none
  | n, prev, p :: r =>
    let ordered := match prev with
      | some q => order q p
      | none => true
    if p.1 < 0 ∨ hi1 < p.1 ∨ p.2 < lo2 ∨ hi2 < p.2 ∨ ordered = false then some n
    else badPoint hi1 lo2 hi2 order (n + 1) (some p) r

/-- Whether each of entries 0 to 20 stands within its range and its relations (R21, R81, R180). A Prated of 0x8000 is the code of ABSENT and no number in its range (R203); every other range excludes it. -/
def safetyScalars (b : List Byte) : List Bool :=
  [ decide (20 ≤ sbPurge b ∧ sbPurge b ≤ 600), decide (2 ≤ sbPrespk b ∧ sbPrespk b ≤ 20),
    decide (10 ≤ sbSafe b ∧ sbSafe b ≤ 50), decide (5 ≤ sbSpark b ∧ sbSpark b ≤ sbSafe b),
    decide (sbStab b ≤ 60), decide (5 ≤ sbPost b ∧ sbPost b ≤ 120),
    decide (1 ≤ sbNatt b ∧ sbNatt b ≤ 4), decide (sbNrec b ≤ 3),
    decide (2000 ≤ sbPurgeSpeed b ∧ sbPurgeSpeed b ≤ 9000), decide (1000 ≤ sbPostSpeed b ∧ sbPostSpeed b ≤ 9000),
    decide (10000 ≤ sbPrated b ∧ sbPrated b ≤ 60000 ∧ sbPrated b ≠ absentCode), decide (100 ≤ sbMmin b ∧ sbMmin b ≤ 200),
    decide (sbMmin b ≤ sbPign b ∧ sbPign b ≤ 600), decide (600 ≤ sbTlimit b ∧ sbTlimit b ≤ 1100),
    decide (500 ≤ sbFs b ∧ sbFs b ≤ 1200 ∧ sbFs b < sbFe b), decide (sbFs b < sbFe b ∧ sbFe b ≤ sbFl b),
    decide (500 ≤ sbFl b ∧ sbFl b ≤ 1300),
    decide (2 ≤ sbFlameOn b ∧ sbFlameOn b ≤ 200 ∧ sbFlameOff b < sbFlameOn b),
    decide (1 ≤ sbFlameOff b ∧ sbFlameOff b ≤ 100), decide (30 ≤ sbLowP b ∧ sbLowP b ≤ 100),
    decide (50 ≤ sbRecoverP b ∧ sbRecoverP b ≤ 150 ∧ sbLowP b < sbRecoverP b) ]

/-- The first entry that fails the checks of R180, in entry order; none for a sound block (attribution: log 22). DESIGN CHOICE: a fan map point beyond the point count is not checked (R180), also where it holds 0x8000, of which R203 says that any staged value holding it has the commit refused (log 42). -/
def firstBad (b : List Byte) : Option Nat :=
  match (safetyScalars b).findIdx? (fun ok => !ok) with
  | some e => some e
  | none =>
    match badPoint 4095 (-400) 1500 pointsFall 21 none (sbNtc b) with
    | some e => some e
    | none =>
      match badPoint 4095 0 400 pointsRise 37 none (sbPressure b) with
      | some e => some e
      | none =>
        if sbFanCount b < 2 ∨ 8 < sbFanCount b then some 41
        else badPoint 1000 0 9000 pointsRise 42 none (sbFanMap b)

/-- The CRC-16 over a safety block's bytes 0 to 253 (R179, R199). -/
def blockCrc (b : List Byte) : BitVec 16 := crc16 (b.take 254)

end Sys2Proof.Machine
end

