-- ==== Sys2Proof/Machine/ReadState.lean ====
section
/-! DEFINITION. The value strings of the READ_STATE groups (R187) in the order of the owning rules, by the widths of section 10.4. Codes and widths that no rule lists: log 14. -/

namespace Sys2Proof.Machine

/-- A stage value in per-mille that may be ABSENT. -/
def putStage (v : Option Nat) : List Byte := putValue (v.map fun n => (n : Int))

/-- A list: a count byte followed by its elements (section 10.4). -/
def putList (l : List (List Byte)) : List Byte := put8 l.length ++ l.flatten

/-- Milliseconds left on a timer, in four bytes (section 10.4). -/
def State.putLeft (s : State) (t : Timer) : List Byte := put32 (s.left t)

/-- Group BURNER (R50). -/
def State.burnerGroup (s : State) : List Byte :=
  put8 s.bs.state.code ++ put8 s.bs.attempts ++ put8 s.bs.recycles ++ putMark s.bs.retry ++ put8 s.bs.inhibit.code
    ++ put16 s.bs.fanTarget ++ put16 s.bs.fanDuty ++ putMark s.bs.gas1 ++ putMark s.bs.gas2 ++ putMark s.bs.spark
    ++ putMark s.lines.relay1Fb ++ putMark s.lines.relay2Fb

/-- A channel record as group CHANNEL carries it (R187). -/
def channelBytes (c : Channel) : List Byte := put32 c.raw ++ put8 c.validity.code ++ putValue c.value

/-- Group CHANNEL: the eight channels by number, and FLAME as 8 (R187). -/
def State.channelGroup (s : State) (i : Nat) : List Byte :=
  match channels[i]? with
  | some c => channelBytes (s.mp.chan c)
  | none => put8 s.mp.flame.current ++ putMark s.mp.flame.present

/-- Group MEASURE (R187). -/
def State.measureGroup (s : State) : List Byte :=
  putValue s.mp.pub.flowCtl ++ putValue s.mp.pub.flowLim ++ put8 s.mp.pub.q ++ put16 s.mp.pub.fanSpeed
    ++ putInt16 s.mp.pub.outdoor ++ put8 s.mp.pub.outdoorSource.code

/-- Group DEMAND (R78). The idle timer is given as the seconds counted (log 14). -/
def State.demandGroup (s : State) : List Byte :=
  put8 s.dm.draw.state.code ++ put8 s.dm.diverter.state.code
    ++ put32 (s.dm.diverter.posAt s.clock.now / Config.ms) ++ putMark s.dm.frost ++ put8 s.dm.circuit.code
    ++ put8 s.dm.circuit.code ++ putMark s.dm.active ++ putValue s.target
    ++ putMark s.dm.chStop ++ putMark s.dm.offPhase ++ putMark s.dm.dhwStop
    ++ put8 s.dm.burn.code ++ s.putLeft s.dm.antiCycle ++ putMark s.pumpEn ++ put16 s.pumpPwm
    ++ s.putLeft s.dm.pumpOverrun ++ put32 s.dm.idle

/-- The travel timer of a zone's live record: the time remaining and the latched length, in seconds; both 0 while it is stopped (R53; the form is log 14). -/
def State.travelBytes (s : State) (r : Zone) : List Byte :=
  s.putLeft r.travel ++ put32 (if r.travel.isSome then r.travelLength else 0)

/-- Group ZONE: the live record in the order of R53. -/
def State.zoneGroup (s : State) (z : Nat) : List Byte :=
  let r := s.zone z
  putInt16 r.setpoint ++ putValue r.temp ++ put8 r.call.code ++ putMark r.fallback ++ put32 r.lastDemand
    ++ put8 r.valve.code ++ s.travelBytes r ++ putMark r.ack ++ putMark r.overrun

/-- Group MODULATION (R104). DESIGN CHOICE: Tz is a counted list of the contributing zones' values alone, in ascending zone number, and the cycle lengths are in seconds, the time remaining in milliseconds (log 14). -/
def State.modulationGroup (s : State) : List Byte :=
  let m := s.mu
  putValue m.ts ++ putList ((m.tz.filter fun v => v.isSome).map putValue) ++ putValue m.e ++ putValue m.p ++ put32 m.iAcc
    ++ putStage m.uRaw ++ putStage m.ceiling ++ putOpt8 m.ceilItem ++ putStage m.uC ++ putStage m.uS ++ put16 m.uOut
    ++ put16 m.uPrev ++ put16 m.fanOut ++ put8 m.cyc.state.code ++ put32 m.cyc.onLen ++ put32 m.cyc.offLen
    ++ put32 m.cyc.pendOn ++ put32 m.cyc.pendOff ++ put32 m.cyc.remain

/-- Number of active records of a class. -/
def State.classCount (s : State) (c : FaultClass) : Nat := (s.fm.active.filter fun r => r.cls == c).length

/-- The origin of a reset request: the node address, 0 for RESET_IN (log 14). -/
def Origin.code (o : Origin) : Nat :=
  match o with
  | .node a => a
  | .resetIn => 0

/-- The last reset result as group FAULTS carries it (R119). -/
def lastResetBytes (r : Option LastReset) : List Byte :=
  match r with
  | some r => put8 r.result.code ++ put8 r.rights.rank ++ put8 r.origin.code ++ put32 r.time
  | none => [255, 255, 255] ++ putOpt32 none

/-- Group FAULTS (R130). The lead fault's code is the one delivered when the lead fault was last determined: a FAULTCODES write changes it at the next change of the list (R107, R113). DESIGN CHOICE: the three counts by class stand in the order LOCKOUT, BLOCKING, WARNING (log 14). -/
def State.faultsGroup (s : State) : List Byte :=
  let l := s.fm.lockout
  put8 l.state.code ++ putOpt8 (l.source.map Source.num) ++ put32 l.code ++ put32 l.time
    ++ putOpt8 ((leadOf s.fm.active).map fun r => r.source.num) ++ put32 s.pe.leadCode
    ++ put8 (s.classCount .lockout) ++ put8 (s.classCount .blocking) ++ put8 (s.classCount .warning)
    ++ put8 s.budgetCount ++ putList (s.fm.resets.map put32) ++ lastResetBytes s.fm.lastReset ++ put32 s.fm.nextSeq

/-- Group LINK (R146). -/
def State.linkGroup (s : State) : List Byte :=
  put8 s.zp.port.code ++ put8 s.recentClears.length ++ s.putLeft s.zp.fault ++ putMark s.zp.busFault
    ++ (match s.zp.lastFail with
      | some f => put8 f.reason.code ++ put8 f.node ++ put8 f.kind ++ put32 f.time
      | none => [255, 255, 255] ++ putOpt32 none)

/-- Group ROUND (R170, R187). The one cause of an entry fault, OVERFLOW, has code 0 (log 14). -/
def State.roundGroup (s : State) : List Byte :=
  let r := s.pe.round
  put8 r.state.code ++ put32 r.number ++ putOpt8 (r.cur.map fun t => t.num) ++ putOpt8 (r.pre.map fun t => t.num)
    ++ put8 r.faultsLast
    ++ (match r.lastFaultEntry with
      | some e => put8 e ++ [0] ++ put32 r.lastFaultRound
      | none => [255, 255] ++ putOpt32 none)
    ++ putValue s.pe.outdoor ++ putOpt32 s.pe.outdoorAt

/-- Group NODE: the live record of R147. -/
def State.nodeGroup (s : State) (a : Nat) : List Byte :=
  let n := s.nodeLive a
  put8 n.presence.code ++ put8 n.miss ++ putOpt32 n.lastGood

/-- An urgent entry as group URGENT carries it (R167, log 14). -/
def Urgent.bytes (u : Urgent) : List Byte :=
  (match u.item with
    | .valve z p => [0] ++ put8 z ++ put8 p.code
    | .proxy t i => [1] ++ put8 t ++ put8 i) ++ putMark u.inFlight

/-- Group URGENT (R187). -/
def State.urgentGroup (s : State) : List Byte := putList (s.pe.urgent.map Urgent.bytes)

/-- Group MANAGEMENT (R187). -/
def State.managementGroup (s : State) : List Byte :=
  let k := s.mg.slot
  put8 s.mg.commit.code ++ putOpt8 s.mg.failedPage ++ putMark s.mg.inconsistent ++ putMark s.mg.modified
    ++ put8 k.state.code ++ (if k.state = .empty then [255, 255] else put8 k.target ++ put8 k.item)
    ++ (if k.state = .ready then put8 k.result.code else [255]) ++ s.putLeft k.hold

/-- The waiting jobs in order, the lockout page job first (R201). -/
def State.waitingJobs (s : State) : List Job :=
  (if s.st.lockJob then [{ page := 8, commit := false }] else []) ++ s.st.jobs

/-- Group STORE (R201). -/
def State.storeGroup (s : State) : List Byte :=
  putList (s.waitingJobs.map fun j => put8 j.page ++ putMark j.commit)
    ++ (match s.st.write with
      | some w => put8 w.page ++ put8 w.attempt
      | none => [255, 255])
    ++ putMark s.st.storeFault ++ putOpt8 s.st.lastDrop ++ putOpt32 s.st.dropAt ++ putMark s.st.paramFault
    ++ put8 s.st.loaded.code ++ putMark s.st.countersPending ++ put32 s.time

/-- Whether an index names something in a group (R187). -/
def groupIndexOk (g i : Nat) : Bool :=
  match g with
  | 1 => decide (i ≤ 8)
  | 4 => decide (i ≤ 7)
  | 9 => decide (1 ≤ i ∧ i ≤ 15)
  | _ => i == 0

/-- The value string of a group (R187). -/
def State.group (s : State) (g i : Nat) : List Byte :=
  match g with
  | 0 => s.burnerGroup
  | 1 => s.channelGroup i
  | 2 => s.measureGroup
  | 3 => s.demandGroup
  | 4 => s.zoneGroup i
  | 5 => s.modulationGroup
  | 6 => s.faultsGroup
  | 7 => s.linkGroup
  | 8 => s.roundGroup
  | 9 => s.nodeGroup i
  | 10 => s.urgentGroup
  | 11 => s.managementGroup
  | 12 => s.storeGroup
  | _ => []

/-- The ten bytes of a value string that a part selects (section 10.4). -/
def partOf (l : List Byte) (p : Nat) : List Byte := (l.drop (10 * p)).take 10

end Sys2Proof.Machine
end

