-- ==== Sys2Proof/Machine/Manage.lean ====
section
/-! DEFINITION. The management unit (chapter 8): the checks of R171, each request kind, the proxy slot, and what MG does at a closing outcome, a fetch result, a bus port reset and the end of a commit. -/

namespace Sys2Proof.Machine

/-! ### Answers (R172, section 10.4) -/

/-- What a request comes to: the result code with its data. -/
structure Reply where
  result : Result
  data : List Byte := []
deriving DecidableEq, Repr

/-- The payload of an ANSWER: tag, request kind, result and data (section 10.4). -/
def answerPayload (kind tag : Byte) (r : Reply) : List Byte := [tag, kind, byte r.result.code] ++ r.data

/-- The ANSWER formed for a node. -/
def setAnswer (node : Nat) (p : List Byte) (s : State) : State := s.onMg fun m => { m with answer := some { node := node, payload := p } }

/-! ### Checks (R171) -/

/-- Least length of a request's parameters (section 10.4); of a WRITE_ENTRY naming an entry that does not exist, the two names (log 22). -/
def paramLength (kind : Nat) (ps : List Byte) : Nat :=
  match kind with
  | 1 => 2
  | 2 => 2 + ((entryAt (u8 ps 0) (u8 ps 1)).map Prod.snd).getD 0
  | 3 => 2
  | 4 => 3
  | 5 => 3
  | 7 => 2
  | _ => 0

/-- A request that R171 calls malformed. -/
def malformed (kind : Nat) (ps : List Byte) : Bool :=
  decide (ps.length < paramLength kind ps) ||
  match kind with
  | 1 => decide (9 < u8 ps 0)
  | 2 => decide (9 < u8 ps 0)
  | 4 => decide (12 < u8 ps 0)
  | 5 => decide (1 < u8 ps 0) || decide (1 < u8 ps 1)
  | 7 => decide (u8 ps 0 = 0) || decide (15 < u8 ps 0)
  | _ => false

/-- Rank of the rights that a table's writes need; SAFETY and IDENT are written by nobody (R173, R174). -/
def writeRank (table : Nat) : Nat :=
  match table with
  | 0 => 2
  | 1 => 2
  | 6 => 4
  | 8 => 4
  | _ => 3

/-- Rank of the rights that a request kind needs (R171, R175). -/
def neededRank (kind : Nat) (ps : List Byte) : Nat :=
  match kind with
  | 2 => writeRank (u8 ps 0)
  | 3 => 3
  | 7 => 2
  | 8 => 3
  | 9 => 3
  | _ => 1

/-! ### Reads -/

/-- READ_ENTRY (R173). -/
def mgReadEntry (table e : Nat) (s : State) : Reply :=
  match entryAt table e with
  | some w => { result := .done, data := put8 table ++ put8 e ++ s.entryBytes table w }
  | none => { result := .invalid }

/-- READ_STATE (R187). -/
def mgReadState (g i p : Nat) (s : State) : Reply :=
  if groupIndexOk g i then { result := .done, data := put8 g ++ put8 i ++ put8 p ++ partOf (s.group g i) p }
  else { result := .invalid }

/-- READ_FAULTS (R128, R188). -/
def mgReadFaults (list direction index : Nat) (s : State) : Reply :=
  let r := readFaultsAnswer list direction index s
  { result := r.1, data := r.2 }

/-! ### Writes (R174, R175, R178) -/

/-- PE and the presence fields at a NODES write of address a, the old kind being given (R148, R150). -/
def nodeRecordWritten (old : NodeKind) (a : Nat) (s : State) : State :=
  if s.kindOf a = old then s
  else
    let was := (s.nodeLive a).presence == .absent
    let s := s.onNode a fun n => { n with presence := .unknown, miss := 0, lastGood := none }
    let others := addresses.any fun b => b != 15 && (s.nodeLive b).presence == .absent
    if was && !others then fmClear .nodeAbsent s else s

/-- The written entry put into its live image, and the blocks that read it told (R175 step 5). -/
def applyWrite (table e off : Nat) (d : List Byte) (s : State) : State :=
  match table with
  | 0 => s.onSt fun t => { t with settings := splice t.settings off d }
  | 1 => s.onSt fun t => { t with curve := splice t.curve off d }
  | 2 => zoneWritten s.st.zones e (s.onSt fun t => { t with zones := splice t.zones off d })
  | 3 =>
    nodesWritten s.st.nodes
      (nodeRecordWritten (s.kindOf (e + 1)) (e + 1) (s.onSt fun t => { t with nodes := splice t.nodes off d }))
  | 4 => s.onSt fun t => { t with poll := splice t.poll off d }
  | 5 => s.onSt fun t => { t with faultCodes := splice t.faultCodes off d }
  | 9 => s.onSt fun t => { t with counters := updateAt t.counters e fun _ => 0 }
  | _ => s

/-- The answer to an applied or unchanged write (R175 step 6). -/
def writeReply (d : List Byte) (clamped : Bool) : Reply :=
  if clamped then { result := .clamped, data := d } else { result := .done }

/-- A write into a live image (R175, steps 2 to 6). -/
def mgWriteLive (table e : Nat) (data : List Byte) (s : State) : State × Reply :=
  match entryAt table e with
  | none => (s, { result := .invalid })
  | some w =>
    match s.checkWrite table e (data.take w.2) with
    | none => (s, { result := .invalid })
    | some (d, clamped) =>
      if d = s.entryBytes table w then (s, writeReply d clamped)
      else if s.canTake (entryPage table e) then
        (applyWrite table e w.1 d (s.offer (entryPage table e)), writeReply d clamped)
      else (s, { result := .busy })

/-- A write into the staging image (R178). -/
def mgWriteStage (e : Nat) (data : List Byte) (s : State) : State × Reply :=
  if s.mg.commit = .committing then (s, { result := .busy })
  else
    match entryAt 7 e with
    | none => (s, { result := .invalid })
    | some w =>
      if e = 50 then (s, { result := .invalid })
      else
        (s.onMg fun m => { m with staging := splice m.staging w.1 (data.take w.2), modified := true },
          { result := .done })

/-- WRITE_ENTRY (R174, R175, R178). -/
def mgWriteEntry (table e : Nat) (data : List Byte) (s : State) : State × Reply :=
  if table = 7 then mgWriteStage e data s else mgWriteLive table e data s

/-! ### COMMIT_SAFETY (R179 to R183) -/

/-- The eight jobs of a commit sequence (R196). -/
def commitJobs : List Job := (List.range 8).map fun p => { page := p, commit := true }

/-- The acceptance of a commit (R181). -/
def commitAccept (crc : Nat) (s : State) : State :=
  let s := s.onMg fun m => { m with staging := splice m.staging 254 (put16 crc), commit := .committing }
  (s.setCommitHold true).onSt fun t => { t with jobs := t.jobs ++ commitJobs }

/-- COMMIT_SAFETY with SERVICE rights (R179, checks 2 to 7). -/
def mgCommit (crc : Nat) (s : State) : State × Reply :=
  if s.mg.commit = .committing then (s, { result := .busy })
  else if s.bs.state ≠ .standby ∧ s.bs.state ≠ .lockout then (s, { result := .refusedState })
  else
    match firstBad s.mg.staging with
    | some e => (s, { result := .invalid, data := put8 e })
    | none =>
      let own := (blockCrc s.mg.staging).toNat
      if own ≠ crc then (s, { result := .crcMismatch, data := put16 own })
      else if s.freePlaces < 8 then (s, { result := .busy })
      else (commitAccept crc s, { result := .accepted })

/-- Whether the Tch_max of the SETTINGS image lies above the live T_limit − 100 (R85). -/
def State.tchMaxHigh (s : State) : Bool := decide (s.tLimit - 100 < setTchMax s.st.settings)

/-- Tch_max in the SETTINGS image brought down to the live T_limit − 100, the bound of R85. -/
def clampTchMax (s : State) : State :=
  if s.tchMaxHigh then s.onSt fun t => { t with settings := splice t.settings 18 (put16 (s.tLimit - 100)) } else s

/-- The stored Tch_max brought under the new T_limit − 100 (R85, R182 step 2): the image changed and the job offered, a refusal setting the re-offer mark, which a taken offer leaves (log 34). DEDUCED: a Tch_max that a load left above the bound is brought down too where the commit does not lower T_limit (log 33). -/
def reclampTchMax (s : State) : State :=
  if s.tchMaxHigh then
    if s.canTake 11 then (clampTchMax s).offer 11 else (clampTchMax s).onMg fun m => { m with reSettings := true }
  else s

/-- The attempt and recycle counts lowered to the new limits (R21). -/
def lowerCounts (s : State) : State :=
  s.onBs fun b =>
    { b with attempts := min b.attempts (sbNatt s.st.safety), recycles := min b.recycles (sbNrec s.st.safety) }

/-- The completion of a commit (R182, R196, R21): with it the live block is valid, and the clear of PARAM_INTEGRITY is reported if it stood. DESIGN CHOICE: the failed page of an earlier failed commit stays on record, here and at an acceptance (log 36). -/
def commitComplete (s : State) : State :=
  let stood := s.st.paramFault
  let s := s.onSt fun t => { t with safety := s.mg.staging, paramFault := false }
  let s := (lowerCounts (reclampTchMax s)).onMg fun m => { m with commit := .done, inconsistent := false, modified := false }
  let s := s.setCommitHold false
  if stood then fmClear .paramIntegrity s else s

/-- The abort of a commit at page k (R183, R196). -/
def commitAbort (k : Nat) (s : State) : State :=
  let s := s.onMg fun m => { m with commit := .failed, failedPage := some k, inconsistent := true }
  s.setCommitHold false

/-! ### The proxy slot (R184 to R186) -/

/-- A PROXY_FETCH placed after all HIGH entries; refused while the queue holds one (R167). -/
def placeProxy (target item : Nat) (s : State) : State :=
  if s.pe.urgent.any fun u => !u.high then s
  else s.onPe fun p => { p with urgent := p.urgent ++ [{ item := .proxy target item }] }

/-- PROXY_READ (R184). -/
def mgProxyRead (target item : Nat) (s : State) : State × Reply :=
  let k := s.mg.slot
  let same := k.target == target && k.item == item
  match k.state with
  | .empty =>
    (placeProxy target item (s.onMg fun m => { m with slot := { state := .fetching, target := target, item := item } }),
      { result := .pending })
  | .fetching => (s, { result := if same then .pending else .busy })
  | .ready =>
    if same then
      (s.onMg fun m => { m with slot := { m.slot with delivering := true } }, { result := k.result, data := k.data })
    else (s, { result := .busy })

/-- The slot READY with a result and its hold started (R185). -/
def slotReady (r : Result) (data : List Byte) (s : State) : State :=
  s.onMg fun m =>
    { m with slot := { m.slot with state := .ready, result := r, data := data, hold := s.deadline Config.tProxy, delivering := false } }

/-- The outcome of the fetch as PE returns it (R185). -/
def fetchResult (r : Result) (data : List Byte) (s : State) : State :=
  if s.mg.slot.state = .fetching then slotReady r data s else s

/-- MG at a bus port reset (R185, R190). -/
def mgBusReset (s : State) : State := fetchResult .noAnswer [] s

/-- The closing outcome passed to MG (R172, R186). -/
def mgClosing (sent : Bool) (s : State) : State :=
  s.onMg fun m =>
    if m.slot.delivering && sent then { m with slot := {} } else { m with slot := { m.slot with delivering := false } }

/-- The hold's expiry (R185, R186). -/
def slotExpired (s : State) : State := s.onMg fun m => { m with slot := {} }

/-! ### Requests handed to FM, and RESTART (R188, R189) -/

/-- LOCKOUT_RESET (R119, R121, R188). -/
def mgLockoutReset (rights : Rights) (node : Nat) (s : State) : State × Reply :=
  let r := s.resetResult rights
  (fmReset rights (.node node) s,
    { result := r.1, data := match r.2 with
        | some src => put8 src.num
        | none => [] })

/-- CLEAR_HISTORY (R129, R188). -/
def mgClearHistory (s : State) : State × Reply :=
  if canClearHistory s then (clearRing s, { result := .done }) else (s, { result := .busy })

/-- RESTART (R189). -/
def mgRestart (s : State) : State × Reply :=
  if s.bs.state = .standby ∨ s.bs.state = .lockout then
    (s.onMg fun m => { m with restart := true }, { result := .done })
  else (s, { result := .refusedState })

/-! ### A request as a whole -/

/-- The request carried out under the rule of its kind (R171 step 5). -/
def mgCarryOut (node kind : Nat) (ps : List Byte) (s : State) : State × Reply :=
  match kind with
  | 1 => (s, mgReadEntry (u8 ps 0) (u8 ps 1) s)
  | 2 => mgWriteEntry (u8 ps 0) (u8 ps 1) (ps.drop 2) s
  | 3 => mgCommit (u16 ps 0) s
  | 4 => (s, mgReadState (u8 ps 0) (u8 ps 1) (u8 ps 2) s)
  | 5 => (s, mgReadFaults (u8 ps 0) (u8 ps 1) (u8 ps 2) s)
  | 6 => mgLockoutReset (s.rightsOf node) node s
  | 7 => mgProxyRead (u8 ps 0) (u8 ps 1) s
  | 8 => mgClearHistory s
  | _ => mgRestart s

/-- A request checked in the order of R171 and carried out. -/
def mgDecide (node kind : Nat) (ps : List Byte) (s : State) : State × Reply :=
  if s.rightsOf node = .none then (s, { result := .denied })
  else if kind = 0 ∨ 9 < kind then (s, { result := .invalid })
  else if malformed kind ps then (s, { result := .invalid })
  else if (s.rightsOf node).rank < neededRank kind ps then (s, { result := .denied })
  else mgCarryOut node kind ps s

/-- MG takes a request and forms its ANSWER within the event (R171, R172). -/
def mgHandle (node : Nat) (kind tag : Byte) (ps : List Byte) (s : State) : State :=
  let r := mgDecide node kind.toNat ps s
  setAnswer node (answerPayload kind tag r.2) r.1

end Sys2Proof.Machine
end

