-- ==== Sys2Proof/Machine/Poll.lean ====
section
/-! DEFINITION. The poll engine (chapter 7): entries and status groups, presence, the urgent service, rounds, and what it does with replies and failures. -/

namespace Sys2Proof.Machine

/-! ### Reading entries (R155, R157) -/

/-- The blocks joined after entry e, the number of the group's last entry, and whether it is the round's last; at most `n` entries are looked at. -/
def joinFrom (poll : List Byte) : Nat → Nat → List Nat × Nat × Bool
  | 0, e => ([], e, true)
  | n + 1, e =>
    let x := pollEntry poll e
    let last := !x.chain || decide (31 ≤ e)
    if x.continue' && !last then
      let r := joinFrom poll n (e + 1)
      ((pollEntry poll (e + 1)).block :: r.1, r.2)
    else ([], e, last)

/-- Entry e read from the RAM image, together with its group when it heads one (R155, R157). -/
def readTaken (poll : List Byte) (e : Nat) : Taken :=
  let x := pollEntry poll e
  if x.kind = .statusPush then
    let r := joinFrom poll 32 e
    { num := e, entry := x, blocks := x.block :: r.1, final := r.2.1, last := r.2.2 }
  else { num := e, entry := x, blocks := [x.block], final := e, last := !x.chain || decide (31 ≤ e) }

/-- The entry after one taken up, read from the image; none after the round's last (R154, R155). -/
def State.nextTaken (s : State) (t : Taken) : Option Taken :=
  if t.last then none else some (readTaken s.st.poll (t.final + 1))

/-- Whether an entry taken up is due in a round (R154). The remainder by a divider of 0, which no write stores, is a free value (log 10). -/
def dueIn (round : Nat) (x : PollEntry) : Bool :=
  x.node != 0 && (if x.divider = 0 then Config.quotByZero round else round % x.divider) == 0

/-! ### Presence (R149, R150) -/

/-- Whether some node other than 15 is ABSENT. -/
def State.someAbsent (s : State) : Bool := addresses.any fun a => a != 15 && (s.nodeLive a).presence == .absent

/-- A good reply of a node (R149). -/
def presenceGood (a : Nat) (s : State) : State :=
  let was := (s.nodeLive a).presence == .absent && a != 15
  let s := s.onNode a fun n => { n with presence := .present, miss := 0, lastGood := some s.time }
  if was && !s.someAbsent then fmClear .nodeAbsent s else s

/-- A node becomes ABSENT (R149): NODE_ABSENT is raised for a node other than 15, and DM is told of a room unit. -/
def nodeBecomesAbsent (a : Nat) (s : State) : State :=
  roomUnitAbsent a (if a = 15 then s else fmRaise .nodeAbsent a s)

/-- A failed exchange with a node (R149). -/
def presenceMiss (a : Nat) (s : State) : State :=
  let n := s.nodeLive a
  if n.presence = .absent then s
  else if 3 ≤ n.miss + 1 then
    nodeBecomesAbsent a (s.onNode a fun n => { n with presence := .absent, miss := 3 })
  else s.onNode a fun n => { n with miss := n.miss + 1 }

/-! ### Status blocks (R164, section 10.3) -/

/-- Block ZONES: four bits for each zone. -/
def State.zonesWord (s : State) : Nat :=
  (zoneNumbers.map fun z => ((s.zone z).call.code * 5 + (s.zone z).valve.code) * 16 ^ z).sum

/-- The four bytes of a status block. DEDUCED: block 6 carries the Tdhw that MU and the heat request record work with, that of the last frame (R81, log 16). -/
def State.statusBlock (s : State) (b : Nat) : List Byte :=
  match b with
  | 0 => put8 s.bs.state.code ++ put8 (s.dm.circuit.code + 16 * s.dm.draw.state.code) ++ put16 s.pe.leadCode
  | 1 => putValue s.mp.pub.flowCtl ++ putValue s.mp.ret.value
  | 2 => putValue s.mp.dhwOut.value ++ put16 s.mp.pub.q
  | 3 => putInt16 s.mp.pub.outdoor ++ putValue s.mp.pressure.value
  | 4 => put16 s.mu.uOut ++ put16 s.mp.pub.fanSpeed
  | 5 => put32 s.zonesWord
  | 6 => putValue s.target ++ put16 (setTdhw s.latch.settings)
  | 7 =>
    put8 s.fm.lockout.state.code ++ put8 (match s.fm.lockout.source with
      | some src => src.num
      | none => 0) ++ put8 s.budgetCount ++ putOpt8 (s.fm.lastReset.map fun r => r.result.code)
  | _ => [0, 0, 0, 0]

/-! ### Handing requests (R152, R153) -/

/-- A request handed to ZP: the port-ready mark is cleared (R153). -/
def hand (f : InFlight) (node kind : Nat) (payload : List Byte) (replies : List Nat) (s : State) : State :=
  let s := s.onPe fun p => { p with portReady := false, round := { p.round with inFlight := some f } }
  zpRequest node kind payload replies s

/-- Payload of an entry's request (R152), from the values at that moment. -/
def State.entryPayload (s : State) (t : Taken) : List Byte :=
  match t.entry.kind with
  | .valveQuery => put8 (zoneValveChannel s.st.zones t.entry.block)
  | .statusPush => ((t.blocks.take 4).map s.statusBlock).flatten
  | .demandQuery | .outdoorQuery | .presence | .mgmtPoll => []

/-- The entry faults of a group's joined entries beyond the third (R157). -/
def noteOverflow (t : Taken) (s : State) : State :=
  let extra := t.blocks.length - 4
  if extra = 0 then s
  else s.onRound fun r =>
    { r with faultsNow := r.faultsNow + extra, lastFaultEntry := some (t.num + 3 + extra), lastFaultRound := r.number }

/-- A due entry's request handed, with the prefetch of the next entry (R154, R155, R157). -/
def handEntry (t : Taken) (s : State) : State :=
  let s := noteOverflow t s
  let s := s.onRound fun r => { r with pre := s.nextTaken t }
  hand .entry t.entry.node t.entry.kind.request (s.entryPayload t) t.entry.kind.replies s

/-- The service poll (R158). -/
def handServicePoll (s : State) : State :=
  hand .servicePoll 15 PollKind.mgmtPoll.request [] PollKind.mgmtPoll.replies s

/-! ### Urgent service (R167 to R169) -/

/-- The urgent entry in flight removed. -/
def removeInFlight (s : State) : State := s.onPe fun p => { p with urgent := p.urgent.filter fun u => !u.inFlight }

/-- The position a zone's queued command carries. -/
def State.queuedPosition (s : State) (z : Nat) : Option Position :=
  match s.pe.urgent.find? fun u => u.forZone z with
  | some { item := .valve _ p, inFlight := _ } => some p
  | some { item := .proxy _ _, inFlight := _ } => none
  | none => none

/-- What follows the urgent service: the entry's request, or the service poll after the list pass (R154, R158). -/
def afterService (s : State) : State :=
  let s := s.onRound fun r => { r with service := none }
  if s.pe.round.passDone then handServicePoll s
  else
    match s.pe.round.cur with
    | some t => handEntry t s
    | none => s

/-- The LOW part of the service: the first LOW entry, if one was queued at the service point (R168). -/
def serveLow (low : Bool) (s : State) : State :=
  match s.pe.urgent.find? fun u => !u.high with
  | some { item := .proxy t i, inFlight := _ } =>
    if low then
      let s := s.onPe fun p =>
        { p with
          urgent := p.urgent.map fun u => if u.high then u else { u with inFlight := true }
          round := { p.round with service := some { zones := [], low := false } } }
      hand .proxy t kindItemQuery (put8 i) [kindItem] s
    else afterService s
  | some { item := .valve _ _, inFlight := _ } => afterService s
  | none => afterService s

/-- The service of the zones still to be sent (R168): a command for a zone without a valve is DROPPED. -/
def serveZones (low : Bool) : List Nat → State → State
  | [], s => serveLow low s
  | z :: r, s =>
    match s.queuedPosition z with
    | none => serveZones low r s
    | some p =>
      if zoneValveNode s.st.zones z = 0 then
        let s := s.onPe fun q => { q with urgent := q.urgent.filter fun u => !u.forZone z }
        serveZones low r (valveResult z p .dropped s)
      else
        let s := s.onPe fun q =>
          { q with
            urgent := q.urgent.map fun u => if u.forZone z then { u with inFlight := true } else u
            round := { q.round with service := some { zones := r, low := low } } }
        hand (.valve z p) (zoneValveNode s.st.zones z) kindValveCommand
          (put8 (zoneValveChannel s.st.zones z) ++ put8 p.code) [kindAck] s

/-- The zones of the queued HIGH entries, in order. -/
def State.highZones (s : State) : List Nat :=
  s.pe.urgent.filterMap fun u =>
    match u.item with
    | .valve z _ => some z
    | .proxy _ _ => none

/-- A service point: the set of HIGH entries fixed and sent, then one LOW entry (R168). -/
def servicePoint (s : State) : State :=
  serveZones (s.pe.urgent.any fun u => !u.high) s.highZones s

/-! ### Rounds (R153, R154, R158) -/

/-- The list pass ends (R158): DM reconciles, then comes the service point before the service poll. DEDUCED: no entry is taken up from here on, as the worked round of section 7.7 shows at its steps 14 to 16 (log 35). -/
def passEnd (s : State) : State :=
  servicePoint (reconcile (s.onRound fun r => { r with passDone := true, cur := none, pre := none }))

/-- An entry taken up (R154): a due one is served, a skipped one is followed by the next entry or by the end of the pass. DESIGN CHOICE: a copy is no longer held once its entry is taken up, as steps 4, 7 and 12 of section 7.7 show; its steps 9 and 10 still show the entry read at a modifier skip (log 35). -/
def takeUp : Nat → Taken → State → State
  | 0, _, s => s
  | n + 1, t, s =>
    let s := s.onRound fun r => { r with cur := some t, pre := none }
    if dueIn s.pe.round.number t.entry then servicePoint s
    else
      match s.nextTaken t with
      | some u => takeUp n u s
      | none => passEnd s

/-- A round started (R153). Nothing is started while a RESTART is accepted (R189). -/
def startRound (s : State) : State :=
  if s.mg.restart then s
  else
    let s := s.onRound fun r =>
      { r with
        state := .running, number := (r.number + 1) % 4294967296
        period := s.deadline (pollPeriod s.st.poll * Config.tenth)
        cur := none, pre := none, passDone := false, service := none, inFlight := none, faultsNow := 0 }
    takeUp 33 (readTaken s.st.poll 0) s

/-- In IDLE a round starts once the period timer does not run and the port is held ready (R153). -/
def maybeStart (s : State) : State :=
  if s.pe.round.state = .idle ∧ s.pe.round.period = none ∧ s.pe.portReady then startRound s else s

/-- The round ends (R158): its entry faults become those of the last completed round (R157). -/
def roundEnd (s : State) : State :=
  maybeStart (s.onRound fun r =>
    { r with state := .idle, cur := none, pre := none, passDone := false, service := none, faultsLast := r.faultsNow })

/-- The round continued after an entry's exchange (R154, R155). -/
def afterEntry (s : State) : State :=
  match s.pe.round.cur with
  | none => s
  | some t =>
    if t.last then passEnd s
    else
      match s.pe.round.pre with
      | some u => takeUp 33 u s
      | none => passEnd s

/-- What PE does once an exchange has ended and the port is free (R153, R158, R168). Nothing while a RESTART is accepted (R189). -/
def peContinue (f : InFlight) (s : State) : State :=
  let s := s.onPe fun p => { p with portReady := true, round := { p.round with inFlight := none } }
  if s.mg.restart then s
  else
    match f with
    | .entry => afterEntry s
    | .servicePoll => roundEnd s
    | .valve _ _ | .proxy =>
      match s.pe.round.service with
      | some v => serveZones v.low v.zones s
      | none => s

/-- The ready report (R153, R159). -/
def readyReport (s : State) : State :=
  let s := s.onPe fun p => { p with portReady := true }
  if s.pe.round.state = .waitingPort then startRound s else maybeStart s

/-! ### Replies (R156, R160 to R166, R169, R202) -/

/-- Least payload of a reply kind (section 10.2). -/
def replyLength (kind : Nat) : Nat :=
  if kind = kindDemand then 6 else if kind = kindValveState then 2 else if kind = kindOutdoor then 3
  else if kind = kindMgmtRequest then 3 else 1

/-- Whether a reply is taken as NODE_BUSY (section 10.2, R202). -/
def replyBusy (kind : Nat) (p : List Byte) : Bool := decide (p.length < replyLength kind) || bit (u8 p 0) 0

/-- The MODIFIER flag of a reply; clear in an empty payload (R202). -/
def replyModifier (p : List Byte) : Bool := decide (p ≠ []) && bit (u8 p 0) 1

/-- A temperature field as received: ABSENT outside −400 to 1500 (R161, R163, R203). -/
def receivedTemp (p : List Byte) (o : Nat) : Value :=
  let x := s16 p o
  if -400 ≤ x ∧ x ≤ 1500 then some x else none

/-- The modifier skip (R156). -/
def modifierSkip (s : State) : State :=
  match s.pe.round.cur, s.pe.round.pre with
  | some t, some u =>
    if t.entry.skipOnModifier then
      match s.nextTaken u with
      | some v => s.onRound fun r => { r with pre := some v }
      | none => s.onRound fun r => { r with cur := some { t with last := true }, pre := none }
    else s
  | _, _ => s

/-- An OUTDOOR reply with status OK (R163). -/
def takeOutdoor (node : Nat) (p : List Byte) (s : State) : State :=
  if s.kindOf node = .outdoorUnit then
    s.onPe fun q => { q with outdoor := receivedTemp p 1, outdoorAt := some s.time }
  else s

/-- Whether a reply to an MGMT_POLL carries a request for MG (R165, R202). -/
def carriesRequest (kind : Nat) (p : List Byte) : Bool := kind == kindMgmtRequest && !replyBusy kind p

/-- A management request of a reply handed to MG (R165). -/
def handToMg (node : Nat) (p : List Byte) (s : State) : State := mgHandle node (p.getD 1 0) (p.getD 2 0) (p.drop 3) s

/-- A good reply to a poll list entry, the modifier having been taken (R161 to R166). -/
def takeEntryReply (t : Taken) (node kind : Nat) (p : List Byte) (s : State) : State :=
  if replyBusy kind p then s
  else
    match t.entry.kind with
    | .demandQuery => takeDemand node (s16 p 1) (receivedTemp p 3) (bit (u8 p 5) 0) s
    | .valveQuery => valveReport t.entry.block node (u8 p 1) s
    | .outdoorQuery => takeOutdoor node p s
    | .mgmtPoll => if carriesRequest kind p then handToMg node p s else s
    | .statusPush => s
    | .presence => s

/-- Whether the exchange goes on with a closing telegram after a good reply (R165). -/
def State.wantsClosing (s : State) (f : InFlight) (kind : Nat) (p : List Byte) : Bool :=
  match f with
  | .servicePoll => carriesRequest kind p
  | .entry =>
    match s.pe.round.cur with
    | some t => t.entry.kind == .mgmtPoll && carriesRequest kind p
    | none => false
  | .valve _ _ => false
  | .proxy => false

/-- A good reply taken: presence, the modifier skip, and the data handed to its owner (R149, R156, R161 to R169). -/
def takeReply (f : InFlight) (node kind : Nat) (p : List Byte) (s : State) : State :=
  let s := presenceGood node s
  match f with
  | .entry =>
    match s.pe.round.cur with
    | some t => takeEntryReply t node kind p (if replyModifier p then modifierSkip s else s)
    | none => s
  | .servicePoll => if carriesRequest kind p then handToMg node p s else s
  | .valve z pos => valveResult z pos (if replyBusy kind p then .failed else .ack) (removeInFlight s)
  | .proxy =>
    if replyBusy kind p then fetchResult .nodeBusy [] (removeInFlight s)
    else fetchResult .done ((p.drop 1).take 13) (removeInFlight s)

/-- A failed exchange taken (R149, R160, R169). -/
def takeFailure (f : InFlight) (node : Nat) (s : State) : State :=
  let s := presenceMiss node s
  match f with
  | .entry => s
  | .servicePoll => s
  | .valve z pos => valveResult z pos .failed (removeInFlight s)
  | .proxy => fetchResult .noAnswer [] (removeInFlight s)

/-- PE at a bus port reset (R150, R159, R168, R170). -/
def peBusReset (s : State) : State :=
  let absent := s.someAbsent
  let s := s.onPe fun p =>
    { p with
      nodes := p.nodes.map (fun n => { n with presence := .unknown, miss := 0 })
      urgent := [], portReady := false
      round := { p.round with
        state := .waitingPort, cur := none, pre := none, passDone := false, service := none, inFlight := none } }
  if absent then fmClear .nodeAbsent s else s

end Sys2Proof.Machine
end

