-- ==== Sys2Proof/Machine/Bus.lean ====
section
/-! DEFINITION. Ends of an exchange as ZP, PE, DM and MG take them together: good replies, failures, closing outcomes, and the bus port reset (R139 to R145). -/

namespace Sys2Proof.Machine

/-! ### Failures (R141, R160) -/

/-- The exchange fails: ZP records it, PE takes the failure and goes on (R141, R153, R160). -/
def failExchange (r : Reason) (s : State) : State :=
  match s.zp.exch, s.pe.round.inFlight with
  | some x, some f => peContinue f (takeFailure f x.node (recordFailure r s))
  | some _, none => recordFailure r s
  | none, _ => s

/-! ### Closing outcome (R140, R172) -/

/-- The closing telegram's outcome: the exchange ends, a failed one being recorded with STRETCH, MG takes the outcome and PE goes on (R140, R141, R165, R172). -/
def closingOutcome (sent : Bool) (s : State) : State :=
  let s := mgClosing sent (if sent then exchangeOver s else recordFailure .stretch s)
  match s.pe.round.inFlight with
  | some f => peContinue f s
  | none => s

/-! ### Good replies (R139) -/

/-- The end of a good reply: a closing telegram with MG's ANSWER, or the end of the exchange (R139, R165). -/
def finishReply (closing : Bool) (f : InFlight) (s : State) : State :=
  if closing then
    zpClosing (match s.mg.answer with
      | some a => a.payload
      | none => []) s
  else peContinue f (exchangeOver s)

/-- A good reply of a node with its payload: delivered to PE, BUS_FAULT cleared, the assembly emptied (R139). -/
def goodReply (f : InFlight) (node kind : Nat) (p : List Byte) (s : State) : State :=
  let closing := s.wantsClosing f kind p
  let s := busFaultClear (takeReply f node kind p s)
  finishReply closing f (s.onZp rxEmpty)

/-- The check byte received: the reply validated and taken, or the exchange failed (R139). -/
def replyComplete (check : Byte) (s : State) : State :=
  match s.zp.exch, s.pe.round.inFlight with
  | some x, some f =>
    match judge x s.zp.rx s.zp.rxCheck check with
    | some r => failExchange r s
    | none => goodReply f x.node (u8 s.zp.rx 2) (s.zp.rx.drop 4) s
  | _, _ => s

/-! ### Bus port reset (R145) -/

/-- The exchange in flight ended by a bus port reset: a failure NO_REPLY to PE, or the closing outcome STRETCH to MG; PE hands nothing on (R145 step 1). DEDUCED: the failure is recorded with NO_REPLY in the closing phase too, where STRETCH replaces the report only (log 39). -/
def resetExchange (s : State) : State :=
  match s.zp.exch, s.pe.round.inFlight with
  | some x, some f =>
    if x.phase = .closing then mgClosing false (recordFailure .noReply s)
    else takeFailure f x.node (recordFailure .noReply s)
  | some _, none => recordFailure .noReply s
  | none, _ => s

/-- The bus port reset, taken before the port enters CLEARING or FAULT (R145). -/
def busPortReset (s : State) : State := mgBusReset (dmBusReset (peBusReset ((resetExchange s).onZp rxEmpty)))

/-- A bus clear called for by a failed line check (R142). -/
def busClear (s : State) : State :=
  let kept := s.recentClears
  if kept.length < 2 then toClearing kept (busPortReset s) else toFault (busPortReset s)

/-- An overcurrent (R143). -/
def overcurrent (s : State) : State :=
  if s.busSupply then toFault (busPortReset s) else s

/-! ### A management request as a command of its own (log 6) -/

/-- Whether the exchange in flight is a management poll of the node that waits for its reply. -/
def State.polls (s : State) (node : Nat) : Bool :=
  match s.zp.exch with
  | some x =>
    x.node == node && x.kind == PollKind.mgmtPoll.request && (x.phase == .awaiting || x.phase == .receiving)
  | none => false

/-- A management request of a node: as the good reply to the management poll in flight to it, and otherwise handed to MG with its answer lost (R165, R172; log 6). -/
def mgmtRequest (node : Nat) (kind tag : Byte) (ps : List Byte) (s : State) : State :=
  match s.pe.round.inFlight with
  | some f =>
    if s.polls node then goodReply f node kindMgmtRequest ([0, kind, tag] ++ ps) s
    else mgClosing false (mgHandle node kind tag ps s)
  | none => mgClosing false (mgHandle node kind tag ps s)

end Sys2Proof.Machine
end

