-- ==== Sys2Proof/Machine/Store.lean ====
section
/-! DEFINITION. The store (chapter 9): the end of a page write with its reports and re-offers, power loss, and the power-up load. -/

namespace Sys2Proof.Machine

/-! ### Reports of a write's end to FM and MG (R124, R125, R182, R193) -/

/-- A history page offered again; the mark is cleared when the job is taken (R125). -/
def reofferPage (s : State) (page : Nat) : State :=
  if s.fm.rePages.getD (page - 27) false && s.canTake page then
    (s.offer page).onFm fun f => { f with rePages := updateAt f.rePages (page - 27) fun _ => false }
  else s

/-- FM's re-offers at a report: the reset history page, then the history pages in ascending order (R125). -/
def fmReoffer (s : State) : State :=
  let s := if s.fm.reHist && s.canTake 9 then (s.offer 9).onFm fun f => { f with reHist := false } else s
  historyPages.foldl reofferPage s

/-- The lockout page offered again at the report of another page's completed write (R125). -/
def reofferLockout (page : Nat) (good : Bool) (s : State) : State :=
  if s.fm.reLock && good && page != 8 then
    queueLockoutPage (s.onFm fun f => { f with reLock := false })
  else s

/-- FM takes a report of page 8 (R116, R124). -/
def fmPage8 (good : Bool) (carried : LockState) (s : State) : State :=
  let s := if s.st.lockJob then s else s.onFm fun f => { f with writeOut := false }
  if good then (if carried = .none ∧ s.fm.lockout.state = .resetPending then resetComplete s else s)
  else if s.fm.lockout.state = .active then s.onFm fun f => { f with reLock := true }
  else s

/-- FM takes a report of a write's end. -/
def fmReport (w : Write) (good : Bool) (s : State) : State :=
  let s := if w.page = 8 then fmPage8 good w.carried s else s
  reofferLockout w.page good (fmReoffer s)

/-- MG takes a report of a write's end (R182, R183). A SETTINGS re-offer is made where the mark stood before this report. -/
def mgReport (w : Write) (good : Bool) (s : State) : State :=
  let marked := s.mg.reSettings
  let s := if w.commit then (if good then (if w.page = 7 then commitComplete s else s) else commitAbort w.page s) else s
  if marked && s.canTake 11 then (s.offer 11).onMg fun m => { m with reSettings := false } else s

/-- The counters job offered again while its mark is set (R193, R200). -/
def reofferCounters (s : State) : State :=
  if s.st.countersPending && s.canTake 10 then (s.offer 10).onSt fun t => { t with countersPending := false } else s

/-- Steps 1 and 2 at the end of every write (R193); the next write begins as the event settles (log 9). DESIGN CHOICE: FM takes the report and makes its re-offers before MG does (log 32). -/
def writeReports (w : Write) (good : Bool) (s : State) : State := reofferCounters (mgReport w good (fmReport w good s))

/-! ### The end of a write attempt (R193, R197) -/

/-- A write number noted for its slot (R192). -/
def noteSlot (w : Write) (m : Memory) : Memory :=
  if w.page = 8 ∨ w.page = 9 then { m with slotNo := updateAt m.slotNo (slotIndex w.page w.slotB) fun _ => w.number } else m

/-- A write complete: the memory programmed, and STORE_FAULT cleared if it stood (R193, R197). -/
def writeGood (w : Write) (s : State) : State :=
  let s := { s with nv := noteSlot w (s.nv.program (physPage w.page w.slotB) w.copy) }
  let stood := s.st.storeFault
  let s := s.onSt fun t => { t with write := none, storeFault := false }
  if stood then fmClear .storeFault s else s

/-- A write dropped: the page torn or blank and not old (log 10), the waiting jobs of its commit sequence removed, and STORE_FAULT raised (R193, R196, R197). -/
def writeDropped (w : Write) (s : State) : State :=
  let s := { s with nv := s.nv.spoil (physPage w.page w.slotB) (.dropped s.free), free := s.free + 1 }
  let s := s.onSt fun t =>
    { t with
      write := none, storeFault := true, lastDrop := some w.page, dropAt := some s.time
      jobs := if w.commit then t.jobs.filter (fun j => !j.commit) else t.jobs }
  fmRaise .storeFault w.page s

/-- The end of the 6 ms of a write attempt (R193). -/
def writeEnd (verified : Bool) (s : State) : State :=
  match s.st.write with
  | none => s
  | some w =>
    let s := s.reach w.due
    if verified then writeReports w true (writeGood w s)
    else if w.attempt < 2 then
      s.onSt fun t => { t with write := some { w with attempt := 2, due := s.clock.now + Config.tPage } }
    else writeReports w false (writeDropped w s)

/-! ### Power loss (R195) and RESTART (R189) -/

/-- A power loss: the page being written is torn, and everything volatile is lost (R195). -/
def powerLoss (s : State) : State :=
  match s.st.write with
  | some w =>
    { s with nv := s.nv.spoil (physPage w.page w.slotB) (.torn s.free), free := s.free + 1 }.volatileReset .off
  | none => s.volatileReset .off

/-- A RESTART may proceed: it is accepted, its closing outcome is taken, and the store is empty with no write in progress (R189). -/
def State.restartReady (s : State) : Bool :=
  s.mg.restart && !s.inPhase .closing && s.st.write.isNone && s.st.jobs.isEmpty && !s.st.lockJob

/-! ### The power-up load (R198, R199) -/

/-- A page's stored contents when complete, otherwise what a blank page loads. -/
def Memory.loadPage (m : Memory) (page : Nat) (blank : List Byte) : List Byte :=
  if m.complete page then m.readPage page else blank

/-- Pages `first` to `first + n − 1` as loaded, `dflt` being the default image. -/
def Memory.loadTable (m : Memory) (first n : Nat) (dflt : List Byte) : List Byte :=
  ((List.range n).map fun i => m.loadPage (first + i) (slice dflt (32 * i) 32)).flatten

/-- The reserved bytes 156 to 253 of a safety block held at 0 (R202). -/
def holdReserved (b : List Byte) : List Byte := splice b 156 (List.replicate 98 0)

/-- The safety block as loaded (R198). -/
def Memory.loadSafety (m : Memory) : List Byte :=
  holdReserved (((List.range 8).map fun p => m.loadPage p (blankSafetyPage p)).flatten)

/-- The load outcome of the safety block (R199). -/
def Memory.loadOutcome (m : Memory) : LoadOutcome :=
  if (List.range 8).all m.complete then
    (if (blockCrc m.loadSafety).toNat = sbCrc m.loadSafety then .valid else .failed)
  else .blank

/-- The newest complete copy of page 8 or 9, or none (R192). -/
def Memory.newestCopy (m : Memory) (page : Nat) : Option (List Byte) :=
  (m.newest page).map fun b => m.readPage (physPage page b)

/-- The lockout record as loaded (R117, R198). -/
def Memory.loadLockout (m : Memory) : Lockout :=
  match m.newestCopy 8 with
  | some p => lockoutOfPage p
  | none => {}

/-- The reset history as loaded (R120, R198). -/
def Memory.loadResets (m : Memory) : List Nat :=
  match m.newestCopy 9 with
  | some p => resetsOfPage p
  | none => []

/-- The counters as loaded (R198, R200). -/
def Memory.loadCounters (m : Memory) : List Nat :=
  if m.complete 10 then countersOfPage (m.readPage 10) else List.replicate 7 0

/-- The history ring as loaded (R126, R198). -/
def Memory.loadRing (m : Memory) : List (Option Hist) :=
  (historyPages.map fun p =>
    if m.complete p then (List.range 4).map fun i => slotOfBytes (m.readPage p) (8 * i) else List.replicate 4 none).flatten

/-- Whether the load raises STORE_FAULT for a page (R198). -/
def Memory.loadFault (m : Memory) (page : Nat) : Bool :=
  if page = 8 ∨ page = 9 then
    (m.newest page).isNone && (m.torn (physPage page false) || m.torn (physPage page true))
  else m.torn page

/-- The images loaded (R198), and the outcome of the CRC check with its marker (R199). DEDUCED: a Tch_max above the limit of R85 is loaded as it is stored, and stands until a write or a commit clamps it (log 33). -/
def loadImages (s : State) : State :=
  let m := s.nv
  s.onSt fun t =>
    { t with
      safety := m.loadSafety, settings := m.loadTable 11 1 defaultSettings, curve := m.loadTable 12 1 defaultCurve
      zones := m.loadTable 13 2 defaultZones, nodes := m.loadTable 15 4 defaultNodes
      poll := m.loadTable 19 4 defaultPoll, faultCodes := m.loadTable 23 4 defaultFaultCodes
      counters := m.loadCounters, loaded := m.loadOutcome, paramFault := m.loadOutcome != .valid }

/-- Sequence number of a slot's entry. -/
def seqAt (ring : List (Option Hist)) (k : Nat) : Option Nat := (ring.getD k none).map fun h => h.seq

/-- A filled slot whose following slot is empty or does not hold the next number (R126). -/
def endsRun (ring : List (Option Hist)) (k : Nat) : Bool :=
  match seqAt ring k with
  | none => false
  | some q => seqAt ring ((k + 1) % 32) != some ((q + 1) % 65536)

/-- Whether a slot's number lies 1 to 32767 ahead of another's (R126). -/
def seqAhead (ring : List (Option Hist)) (k j : Nat) : Bool :=
  match seqAt ring k, seqAt ring j with
  | some a, some b =>
    let d := (a + 65536 - b) % 65536
    decide (1 ≤ d) && decide (d ≤ 32767)
  | _, _ => false

/-- The newest entry's slot (R126). -/
def newestSlot (ring : List (Option Hist)) : Option Nat :=
  let l := (List.range 32).filter (endsRun ring)
  match l.find? fun k => l.all fun j => j == k || seqAhead ring k j with
  | some k => some k
  | none => l.getLast?

/-- FM locates the ring's newest entry (R126). -/
def locateHistory (s : State) : State :=
  match newestSlot s.fm.ring with
  | some k => s.onFm fun f => { f with nextSlot := (k + 1) % 32, nextSeq := ((seqAt f.ring k).getD 0 + 1) % 65536 }
  | none => s.onFm fun f => { f with nextSlot := 0, nextSeq := 0 }

/-- FM takes the stored lockout record (R117): its record at the head of the list, and the declaration to BS. A stored source outside R105, which no write stores, gives no record (log 26). -/
def restoreLockout (s : State) : State :=
  let l := s.fm.lockout
  if l.state = .none then s
  else
    let s := s.onFm fun f =>
      { f with
        active := match l.source with
          | some src =>
            [{ source := src, detail := noDetail, cls := .lockout, count := 1, first := l.time, last := l.time }]
          | none => [] }
    fmLead (lockoutEntry (l.source.getD .paramIntegrity) s)

/-- FM at the end of the load (R117, R119, R126, R130). -/
def fmLoaded (s : State) : State :=
  let m := s.nv
  let s := s.onFm fun f =>
    { f with
      lockout := m.loadLockout, resets := m.loadResets, ring := m.loadRing, press := none
      armed := !s.lines.resetLow }
  locateHistory (restoreLockout s)

/-- STORE_FAULT of one page found torn (R197, R198). -/
def raiseTorn (s : State) (page : Nat) : State :=
  if s.nv.loadFault page then fmRaise .storeFault page (s.onSt fun t => { t with storeFault := true }) else s

/-- The sources found in the load raised (R198 step 3). DESIGN CHOICE: the rule gives them no order; STORE_FAULT comes first, page by page in ascending order, so that its record's detail is the highest torn page, and PARAM_INTEGRITY last (log 32). -/
def raiseFound (s : State) : State :=
  let s := (List.range 35).foldl raiseTorn s
  if s.st.paramFault then fmRaise .paramIntegrity noDetail s else s

/-- A zone's live record after power-on (R79). -/
def State.zoneInitial (s : State) (z : Nat) : Zone :=
  let enabled := zoneEnabled s.st.zones z
  let room := hasRoomUnit s.st.zones s.st.nodes z
  { call := if !enabled then .noCall else if room then .unknown else s.fallbackCall z
    fallback := enabled && !room
    lastDemand := s.time
    valve := if s.hasValve z then .unknown else .opened }

/-- DM takes its initial values and starts the diverter drive (R68, R79). -/
def dmLoaded (s : State) : State :=
  let t := setTravel s.st.settings * Config.second
  refresh (s.onDm fun d =>
    { d with
      zones := zoneNumbers.map s.zoneInitial
      diverter := { state := .toCh, pos := t, travel := t, since := s.clock.now } })

/-- MP begins the scan (R3). -/
def scanStart (s : State) : State :=
  let start (c : Chan) (r : Channel) : Channel :=
    if fitted s.st.settings c then r else { r with validity := .notFitted, unproven := false }
  let begin (c : Chan) (_ : Channel) : Channel := start c {}
  (s.onMp fun m => m.mapChan begin).onClock fun c => { c with frameAt := c.now, sampleAt := c.now, secondAt := c.now }

/-- The end of the power-up load, step by step (R198). BS compares the readbacks with its commands from here on, so a relay that reads energised starts its mismatch timer (R43, log 29). -/
def loadComplete (s : State) : State :=
  let s := latchTables (loadImages { s with power := .on })
  let s := raiseFound (fmLoaded s)
  let s := s.onMg fun m => { m with staging := s.st.safety, modified := false }
  relaySync (scanStart (toSettling (dmLoaded s)))

/-! ### Seconds (R50, R77, R200) -/

/-- The run seconds of BS (R50, R200). -/
def runSecond (s : State) : State :=
  if s.bs.state = .stabilise ∨ s.bs.state = .run then
    let s := s.bump 1
    match s.dm.circuit with
    | .ch => s.bump 5
    | .frost => s.bump 5
    | .dhw => s.bump 6
    | .none => s
  else s

/-- A second of the idle timer (R77). -/
def idleSecond (s : State) : State :=
  if s.pumpEn then s else s.onDm fun d => { d with idle := min Config.idleLimit (d.idle + 1) }

/-- The clock at a power-on second. -/
def secondClock (s : State) : State :=
  let t := max s.clock.now (s.clock.secondAt + Config.second)
  s.onClock fun c => { c with now := t, secondAt := t }

/-- A second of power-on time (R200). -/
def secondStep (s : State) : State :=
  let s := runSecond (idleSecond ((secondClock s).bump 0))
  if s.time % 900 = 0 then s.offerCounters else s

end Sys2Proof.Machine
end

