-- ==== Sys2Proof/WellFormed.lean ====
section
/-! DEFINITION. Which commands name things the part has. An ill-formed command is no event of the part; a meaning given one changes nothing or refuses the request, as its rule says (log 26). -/

namespace Sys2Proof

/-- A zone number of R53: 0 to 7. -/
def zoneOk (z : Nat) : Bool := decide (z < 8)

/-- A node address of R134: 1 to 15. -/
def nodeOk (n : Nat) : Bool := decide (1 ≤ n ∧ n ≤ 15)

/-- The four ordinary event sources that have a blocking timer (R106), by number. -/
def blockingSourceOk (n : Nat) : Bool := [10, 11, 12, 18].contains n

/-- A start mark as ZP recognises it: a dominant run of 10 to 14 tBIT (R134). -/
def startMarkOk (run : Nat) : Bool := decide (10 ≤ run ∧ run ≤ 14)

/-- A framing cause as R138 lists it: a length byte told as above 16 is above 16. -/
def framingOk : FramingCause → Bool
  | .lengthAbove16 n => decide (16 < n.toNat)
  | .stopBitDominant | .idleBreak | .overlongRun => true

/-- The bytes of a WRITE_ENTRY: up to 11 (section 10.4). -/
def dataOk (d : List Byte) : Bool := decide (d.length ≤ 11)

/-- Tables that the row WRITE_ENTRY stands for: all but SAFETY_STAGE (7) and COUNTERS (9), which have rows of their own. -/
def writeTableOk (t : Byte) : Bool := t != 7 && t != 9

/-- Well-formed commands. -/
def Instr.WellFormed : Instr → Bool
  | .zoneFallbackTimeout z | .valveTravelExpiry z => zoneOk z
  | .blockingTimerExpiry src => blockingSourceOk src
  | .replyStartMark run _ => startMarkOk run
  | .replyFraming c _ => framingOk c
  | .readEntry n _ _ _ | .commitSafety n _ _ | .readState n _ _ _ _ | .readFaults n _ _ _ _
  | .lockoutReset n _ | .proxyRead n _ _ _ | .clearHistory n _ | .restart n _ => nodeOk n
  | .writeEntry n _ t _ d => nodeOk n && writeTableOk t && dataOk d
  | .writeEntryCounters n _ _ d | .writeEntrySafetyStage n _ _ d => nodeOk n && dataOk d
  | .powerOn | .powerLoss | .loadComplete | .frameCompletion _ | .flowDisagreeTimeout | .circulationTimeout
  | .fanDeviationTimeout | .purgeComplete | .flameSample _ | .inputPulse _ | .relayReadbackChange _ _ _
  | .mismatchTimerExpiry _ | .tpchkExpiry | .prePurgeLimitExpiry | .tprespkExpiry | .tsparkExpiry | .tsafeExpiry
  | .tstabExpiry | .tpostExpiry | .lockoutPurgeExpiry | .tffExpiry | .tffpostExpiry | .dhwOverrunExpiry
  | .diverterEndReached | .antiCycleExpiry | .pumpOverrunExpiry | .pumpKickStart | .pumpKickEnd | .onPhaseExpiry
  | .offPhaseExpiry | .resetInLevelChange _ _ | .resetInPress | .powerOnSecond | .tsettleExpiry | .periodTimerExpiry
  | .lineCheckIdle | .lineDominanceTimeout | .lineCheckTimeout | .requestSent | .holdTimeout | .treplyExpiry
  | .trxmaxExpiry | .replyReceived _ _ | .closingSent | .tclearExpiry | .overcurrent
  | .faultTimerExpiry | .restartProceed | .proxyHoldExpiry | .pageWriteEnd _ | .busLineLevelChange _ _
  | .replyByteReceived _ _ => true

end Sys2Proof
end

