-- ==== Sys2Proof/Machine/Meaning.lean ====
section
/-! DEFINITION. What a command's meaning is made of: an outcome that is always a next state, and the effects of the timed events of the burner sequencer and the other blocks. -/

namespace Sys2Proof.Machine

/-- Every command leads to a next state. -/
def done (s : State) : Host.Outcome State Fault Refusal := .next s

/-- The expiry of a timer that runs in power-on time and has come due (log 3); otherwise nothing. -/
def State.due (s : State) (t : Timer) (f : State → State) : State :=
  match t with
  | some d => if d ≤ s.time then f s else s
  | none => s

/-! ### Frame-counted timers told by a command of their own (log 3) -/

/-- The flow disagreement timer reaches 100 frames (R11). -/
def disagreeTimeout (s : State) : State :=
  if 0 < s.mp.disagree ∧ s.mp.disagree < Config.disagreeFrames then
    disagreeReached (passFrames (Config.disagreeFrames - s.mp.disagree) s)
  else s

/-- The circulation timer reaches 200 frames, the burner firing and the values as last published (R20). Where the burner has left STABILISE and RUN since the last frame the timer cannot reach 200: it returns to 0 at the next frame, and the command changes nothing (log 3). -/
def circulationTimeout (s : State) : State :=
  if s.noCirculation ∧ 0 < s.mp.circ ∧ s.mp.circ < Config.circFrames then
    circulationReached (passFrames (Config.circFrames - s.mp.circ) s)
  else s

/-- The fan deviation timer reaches 100 frames (R47). -/
def fanDeviationTimeout (s : State) : State :=
  if (s.bs.state = .stabilise ∨ s.bs.state = .run) ∧ 0 < s.bs.fanDev ∧ s.bs.fanDev < Config.fanDevFrames then
    fanDeviationReached (passFrames (Config.fanDevFrames - s.bs.fanDev) s)
  else s

/-- The purge timer reaches tPURGE (R29). -/
def purgeTimeout (s : State) : State :=
  match s.bs.purge with
  | some p => if s.bs.state = .prePurge then toIgnition (passFrames (p.length - p.done) s) else s
  | none => s

/-- The on-phase time reaches 0 (R96). -/
def onPhaseTimeout (s : State) : State :=
  if s.mu.cyc.state = .onPhase then
    endOnPhase ((passFrames (s.mu.cyc.remain / 100) s).onCyc fun c => { c with remain := 0 })
  else s

/-- The off-phase time reaches 0 (R97). -/
def offPhaseTimeout (s : State) : State :=
  if s.mu.cyc.state = .offPhase ∧ 0 < s.mu.cyc.remain then
    endOffPhase ((passFrames (s.mu.cyc.remain / 100) s).onCyc fun c => { c with remain := 0 })
  else s

/-- A zone whose room unit has been silent for 600 s enters fallback (R56). -/
def fallbackTimeout (z : Nat) (s : State) : State :=
  if z < 8 ∧ s.fallbackDue z then refresh (enterFallback z s) else s

/-! ### Flame and pulses (R12 to R15) -/

/-- A flame sample taken by MP, with its event delivered to BS (R12, R13). -/
def flameSampled (raw : Sample) (s : State) : State :=
  let t := max s.clock.now (s.clock.sampleAt + Config.sample)
  let s := s.onClock fun c => { c with now := t, sampleAt := t }
  let r := flameStep s.flameOn s.flameOff (raw.toNat / 16) s.mp.flame
  let s := s.onMp fun m => { m with flame := r.1 }
  match r.2 with
  | .none => s
  | .on => flameOnEvent s
  | .loss => flameLossEvent s

/-- A pulse counted into the current frame count, which saturates at 255 (R14, R15). -/
def pulseCounted (line : PulseLine) (s : State) : State :=
  s.onMp fun m =>
    match line with
    | .dhwPulse => { m with dhwCount := min 255 (m.dhwCount + 1) }
    | .fanTacho => { m with tachoCount := min 255 (m.tachoCount + 1) }

/-! ### Timed phases of the burner (R28 to R39, R41, R42, R48) -/

/-- tPCHK expires (R28). -/
def tpchkExpired (s : State) : State :=
  let s := s.onBs fun b => { b with tPchk := none }
  if 100 ≤ s.mp.pub.fanSpeed then fmRaise .fanNotStopped noDetail (toStandby .fault s) else s

/-- The pre-purge limit expires (R30). -/
def purgeLimitExpired (s : State) : State := fmRaise .fanNoSpeed noDetail (toStandby .fault s)

/-- FALSE_FLAME found: the raised mark set, the fault stop applied, the source raised (R23, R31, R41, R42). -/
def falseFlameFound (s : State) : State :=
  fmRaise .falseFlame noDetail (faultStop (s.onBs fun b => { b with ffRaised := true, falseFlame := none }))

/-- tPRESPK expires (R31). -/
def tprespkExpired (s : State) : State :=
  let s := s.onBs fun b => { b with tPrespk := none }
  if s.mp.flame.present then falseFlameFound s else openGas s

/-- tSPARK expires (R32). -/
def tsparkExpired (s : State) : State := s.onBs fun b => { b with spark := false, tSpark := none }

/-- tSAFE expires (R33). -/
def tsafeExpired (s : State) : State :=
  let natt := sbNatt s.st.safety
  let n := min natt (s.bs.attempts + 1)
  let s := (s.onBs fun b => { b with attempts := n, tSafe := none }).bump 3
  if n < natt then toPostPurge .ignitionFailure false true s
  else fmRaise .ignitionFailure noDetail (toPostPurge .ignitionFailure false false s)

/-- tSTAB expires (R35). -/
def tstabExpired (s : State) : State := toRun (s.onBs fun b => { b with tStab := none })

/-- tPOST expires (R39). -/
def tpostExpired (s : State) : State :=
  if s.dm.active && !s.inhibited then toPreCheck s else toStandby .fault s

/-- The lockout purge ends (R48). -/
def lockPurgeExpired (s : State) : State := setFanTarget 0 (s.onBs fun b => { b with lockPurge := none })

/-- tFFPOST expires (R42). DESIGN CHOICE: with the flame present FALSE_FLAME is raised as R42 says, also where the raised mark is set already, of which R41 says that a persisting flame is not raised again (log 40). -/
def tffpostExpired (s : State) : State :=
  let s := s.onBs fun b => { b with postGas := none }
  if s.mp.flame.present then falseFlameFound s else s

/-! ### Demand block (R67, R68, R77) -/

/-- The DHW overrun ends (R67). -/
def overrunExpired (s : State) : State :=
  refresh (divertSync (s.onDm fun d => { d with draw := { d.draw with state := .idle, startRun := 0, overrun := none } }))

/-- The diverter's travel ends (R68). -/
def divertEnded (s : State) : State := s.onDm fun d => { d with diverter := diverterArrived d.diverter }

/-- A pump kick begins (R77): the idle timer stands at 24 h with PUMP_EN off, and no LOW_PRESSURE record holds it. -/
def kickBegins (s : State) : State :=
  if Config.idleLimit ≤ s.dm.idle ∧ s.dm.kick = none ∧ (s.record .lowPressure).isNone then
    s.onDm fun d => { d with kick := s.deadline Config.tKick }
  else s

/-- A pump kick ends (R77). -/
def kickEnds (s : State) : State := s.onDm fun d => { d with kick := none, idle := 0 }

/-! ### Fault manager (R112, R119) -/

/-- A blocking timer expires (R112). -/
def blockingExpired (src : Source) (s : State) : State := removeRecord src (s.onFm fun f => f.setBlockTimer src none)

/-- RESET_IN changes level (R119). -/
def resetInChanged (low : Bool) (s : State) : State :=
  if low then s.onFm fun f => { f with press := if f.armed then s.deadline Config.tPress else f.press }
  else s.onFm fun f => { f with press := none, armed := true }

/-- A press of RESET_IN (R119). -/
def resetInPressed (s : State) : State :=
  fmReset .display .resetIn (s.onFm fun f => { f with press := none, armed := false })

/-! ### Zone bus (R131 to R144) -/

/-- READY entered from SETTLING (R132). -/
def settleExpired (s : State) : State := readyReport (s.onZp fun z => { z with port := .ready, settle := none })

/-- The round period timer expires (R153). -/
def periodExpired (s : State) : State := maybeStart (s.onRound fun r => { r with period := none })

/-- The line idle for 4 tBIT in the line check (R136). -/
def lineCheckIdle (s : State) : State :=
  if s.inPhase .lineCheck && !s.lines.busDominant then startSending (s.reach s.idleDue) else s

/-- 50 ms of dominance in the line check (R136). DEDUCED: uninterrupted dominance begins at the line's change to dominant, or at the check's start, where the rule counts from the last return to idle (log 28). -/
def lineDominance (s : State) : State :=
  match s.zp.exch with
  | some x =>
    if x.phase = .lineCheck ∧ s.lines.busDominant then busClear (s.reach (max x.checkAt s.lines.busSince + Config.tDom))
    else s
  | none => s

/-- 200 ms of line check without an idle run (R136). -/
def lineCheckLong (s : State) : State :=
  match s.zp.exch with
  | some x => if x.phase = .lineCheck then busClear (s.reach (x.checkAt + Config.tLineCheck)) else s
  | none => s

/-- The request's check byte sent (R137). -/
def requestEnd (s : State) : State :=
  match s.zp.exch with
  | some x =>
    if x.phase = .sending then
      match x.sentTime with
      | some t => requestSent (s.reach t)
      | none => s
    else s
  | none => s

/-- A hold reaches 10 ms (R137, R140). -/
def holdReached (s : State) : State :=
  match s.zp.exch with
  | some x =>
    match x.hold with
    | some h =>
      if x.phase = .sending then failExchange .stretch (s.reach (h + Config.tHold))
      else if x.phase = .closing then closingOutcome false (s.reach (h + Config.tHold))
      else s
    | none => s
  | none => s

/-- A dominant run of `run` tBIT ends and is the reply's start mark (R134, R138). DESIGN CHOICE: the run's length is told in whole tBIT, and its first edge is taken that many tBIT back (log 28). -/
def markSeen (run : Nat) (s : State) : State :=
  let edge := s.clock.now - run * Config.tBit
  match s.zp.exch with
  | some x =>
    if x.phase = .awaiting ∧ startMarkOk run ∧ x.inWindow edge then startReceiving edge (lineIdleFor 0 s) else s
  | none => s

/-- tREPLY expires (R138): with a dominant run in progress its end decides. -/
def replyWindowEnds (s : State) : State :=
  if s.lines.busDominant then s.onExch fun x => { x with reply := none, replyExpired := true }
  else failExchange .noReply s

/-- tRXMAX expires (R138). -/
def rxTooLong (s : State) : State := failExchange .noReply s

/-- The reply breaks framing (R138). After a length byte above 16 the line has been idle since the byte's last dominant bit (R136, log 21). -/
def framingBroken (c : FramingCause) (s : State) : State :=
  match s.zp.exch with
  | some x =>
    if x.phase = .awaiting ∧ c = .overlongRun then failExchange .framing (lineDominant s)
    else if x.phase = .receiving ∧ framingOk c then
      failExchange .framing (match c with
        | .stopBitDominant => lineDominant s
        | .overlongRun => lineDominant s
        | .idleBreak => lineIdleFor (10 * Config.tBit) s
        | .lengthAbove16 n => lineIdleFor (idleTail n) s)
    else s
  | none => s

/-- A reply byte other than the check byte (R138). -/
def replyByte (b : Byte) (s : State) : State :=
  if s.inPhase .receiving && !s.zp.checkDue then
    let s := rxByte b (lineIdleFor (idleTail b) s)
    if s.zp.rx.length = 4 ∧ 16 < b.toNat then failExchange .framing s else s
  else s

/-- The reply's check byte (R138, R139). -/
def replyCheck (b : Byte) (s : State) : State :=
  if s.inPhase .receiving && s.zp.checkDue then replyComplete b (lineIdleFor (idleTail b) s) else s

/-- The closing telegram's check byte sent (R140). -/
def closingEnd (s : State) : State :=
  match s.zp.exch with
  | some x =>
    if x.phase = .closing then
      match x.sentTime with
      | some t => closingOutcome true (lineIdleFor (idleTail (x.out.getLastD 0)) (s.reach t))
      | none => s
    else s
  | none => s

/-- The line becomes dominant by another party (R136, R137, R138). -/
def lineFalls (s : State) : State :=
  s.onExch fun x =>
    if (x.phase = .sending ∨ x.phase = .closing) ∧ x.hold = none then x.holdFrom s.clock.now else x

/-- A dominant run of `n` ticks that is no start mark and breaks no framing (R138): under 10 tBIT, or between 14 and 15. DESIGN CHOICE: the rule gives runs between 9 and 10 tBIT and between 14 and 15 no outcome; here they are ignored as the short ones are (log 28). -/
def ignoredRun (n : Nat) : Bool :=
  decide (n < 10 * Config.tBit) || (decide (14 * Config.tBit < n) && decide (n < 15 * Config.tBit))

/-- The line returns to idle, having been dominant since `since` (R137, R138, R140): the end of an ignored run after the window's expiry fails the exchange. -/
def lineRises (since : Nat) (s : State) : State :=
  match s.zp.exch with
  | some x =>
    if x.phase = .sending ∨ x.phase = .closing then s.onExch fun x => x.release s.clock.now
    else if x.phase = .awaiting ∧ x.replyExpired ∧ ignoredRun (s.clock.now - since) then failExchange .noReply s
    else s
  | none => s

/-- A level change of the bus line as ZP takes it; without supply the line is not watched (R142). -/
def lineChanged (dominant : Bool) (since : Nat) (s : State) : State :=
  if s.busSupply then (if dominant then lineFalls s else lineRises since s) else s

end Sys2Proof.Machine
end

