-- ==== Sys2Proof/Machine/ExecBus.lean ====
section
/-! DEFINITION. Meanings of the commands of the zone bus port and the poll engine's period timer. -/

namespace Sys2Proof.Machine

/-- TSETTLE_EXPIRY (R132). -/
def execTsettleExpiry (s : State) : Host.Outcome State Fault Refusal :=
  done (s.event fun s => s.expire s.zp.settle settleExpired)

/-- PERIOD_TIMER_EXPIRY (R153). -/
def execPeriodTimerExpiry (s : State) : Host.Outcome State Fault Refusal :=
  done (s.event fun s => s.expire s.pe.round.period periodExpired)

/-- LINE_CHECK_IDLE (R136). -/
def execLineCheckIdle (s : State) : Host.Outcome State Fault Refusal := done (s.event lineCheckIdle)

/-- LINE_DOMINANCE_TIMEOUT (R136, R142). -/
def execLineDominanceTimeout (s : State) : Host.Outcome State Fault Refusal := done (s.event lineDominance)

/-- LINE_CHECK_TIMEOUT (R136, R142). -/
def execLineCheckTimeout (s : State) : Host.Outcome State Fault Refusal := done (s.event lineCheckLong)

/-- REQUEST_SENT (R137). -/
def execRequestSent (s : State) : Host.Outcome State Fault Refusal := done (s.event requestEnd)

/-- HOLD_TIMEOUT (R137, R140). -/
def execHoldTimeout (s : State) : Host.Outcome State Fault Refusal := done (s.event holdReached)

/-- REPLY_START_MARK (R138). -/
def execReplyStartMark (run dt : Nat) (s : State) : Host.Outcome State Fault Refusal :=
  done ((s.advance dt).event (markSeen run))

/-- TREPLY_EXPIRY (R138). -/
def execTreplyExpiry (s : State) : Host.Outcome State Fault Refusal :=
  done (s.event fun s => s.expire (s.zp.exch.bind fun x => x.reply) replyWindowEnds)

/-- TRXMAX_EXPIRY (R138). -/
def execTrxmaxExpiry (s : State) : Host.Outcome State Fault Refusal :=
  done (s.event fun s => s.expire (s.zp.exch.bind fun x => x.rxMax) rxTooLong)

/-- REPLY_FRAMING (R138). -/
def execReplyFraming (cause : FramingCause) (dt : Nat) (s : State) : Host.Outcome State Fault Refusal :=
  done ((s.advance dt).event (framingBroken cause))

/-- REPLY_RECEIVED (R139). -/
def execReplyReceived (check : Byte) (dt : Nat) (s : State) : Host.Outcome State Fault Refusal :=
  done ((s.advance dt).event (replyCheck check))

/-- CLOSING_SENT (R140). -/
def execClosingSent (s : State) : Host.Outcome State Fault Refusal := done (s.event closingEnd)

/-- TCLEAR_EXPIRY (R142). -/
def execTclearExpiry (s : State) : Host.Outcome State Fault Refusal :=
  done (s.event fun s => s.expire s.zp.clear toSettling)

/-- OVERCURRENT (R143). -/
def execOvercurrent (s : State) : Host.Outcome State Fault Refusal := done (s.event overcurrent)

/-- FAULT_TIMER_EXPIRY (R144). -/
def execFaultTimerExpiry (s : State) : Host.Outcome State Fault Refusal :=
  done (s.event fun s => s.expire s.zp.fault toSettling)

/-- BUS_LINE_LEVEL_CHANGE (R136, R137, R138, R140). The level is noted whatever the power; a level that does not change does nothing else. -/
def execBusLineLevelChange (dominant : Bool) (dt : Nat) (s : State) : Host.Outcome State Fault Refusal :=
  let s' := s.advance dt
  if dominant = s.lines.busDominant then done (s'.event id)
  else
    done ((s'.onLines fun l => { l with busDominant := dominant, busSince := s'.clock.now }).event
      (lineChanged dominant s.lines.busSince))

/-- REPLY_BYTE_RECEIVED (R138). -/
def execReplyByteReceived (value : Byte) (dt : Nat) (s : State) : Host.Outcome State Fault Refusal :=
  done ((s.advance dt).event (replyByte value))

end Sys2Proof.Machine
end

