-- ==== Sys2Proof/Machine/ExecHeat.lean ====
section
/-! DEFINITION. Meanings of the commands of zones, hot water, pump, modulation, faults, RESET_IN, seconds and store. -/

namespace Sys2Proof.Machine

/-- ZONE_FALLBACK_TIMEOUT (R56). -/
def execZoneFallbackTimeout (zone : Nat) (s : State) : Host.Outcome State Fault Refusal :=
  done (s.event (fallbackTimeout zone))

/-- VALVE_TRAVEL_EXPIRY (R62, R63). -/
def execValveTravelExpiry (zone : Nat) (s : State) : Host.Outcome State Fault Refusal :=
  done (s.event fun s => s.expire (s.zone zone).travel (travelExpired zone))

/-- DHW_OVERRUN_EXPIRY (R67). -/
def execDhwOverrunExpiry (s : State) : Host.Outcome State Fault Refusal :=
  done (s.event fun s => s.expire s.dm.draw.overrun overrunExpired)

/-- DIVERTER_END_REACHED (R68). -/
def execDiverterEndReached (s : State) : Host.Outcome State Fault Refusal :=
  done (s.event fun s => s.expire s.dm.diverter.arrival divertEnded)

/-- ANTI_CYCLE_EXPIRY (R74). -/
def execAntiCycleExpiry (s : State) : Host.Outcome State Fault Refusal :=
  done (s.event fun s => s.expire s.dm.antiCycle antiCycleEnd)

/-- PUMP_OVERRUN_EXPIRY (R76). -/
def execPumpOverrunExpiry (s : State) : Host.Outcome State Fault Refusal :=
  done (s.event fun s => s.expire s.dm.pumpOverrun fun s => s.onDm fun d => { d with pumpOverrun := none })

/-- PUMP_KICK_START (R77). -/
def execPumpKickStart (s : State) : Host.Outcome State Fault Refusal := done (s.event kickBegins)

/-- PUMP_KICK_END (R77). -/
def execPumpKickEnd (s : State) : Host.Outcome State Fault Refusal :=
  done (s.event fun s => s.expire s.dm.kick kickEnds)

/-- ON_PHASE_EXPIRY (R96). -/
def execOnPhaseExpiry (s : State) : Host.Outcome State Fault Refusal := done (s.event onPhaseTimeout)

/-- OFF_PHASE_EXPIRY (R97). -/
def execOffPhaseExpiry (s : State) : Host.Outcome State Fault Refusal := done (s.event offPhaseTimeout)

/-- BLOCKING_TIMER_EXPIRY of a source, by number (R106, R112). -/
def execBlockingTimerExpiry (source : Nat) (s : State) : Host.Outcome State Fault Refusal :=
  done (s.event fun s =>
    match Source.ofNum source with
    | some src => s.due (s.fm.blockTimer src) (blockingExpired src)
    | none => s)

/-- RESET_IN_LEVEL_CHANGE (R119). The level is noted whatever the power; a level that does not change begins nothing. -/
def execResetInLevelChange (low : Bool) (dt : Nat) (s : State) : Host.Outcome State Fault Refusal :=
  let s' := (s.advance dt).onLines fun l => { l with resetLow := low }
  done (if low = s.lines.resetLow then s'.event id else s'.event (resetInChanged low))

/-- RESET_IN_PRESS (R119). -/
def execResetInPress (s : State) : Host.Outcome State Fault Refusal :=
  done (s.event fun s => s.expire s.fm.press resetInPressed)

/-- POWER_ON_SECOND (R200). -/
def execPowerOnSecond (s : State) : Host.Outcome State Fault Refusal := done (s.event secondStep)

/-- PAGE_WRITE_END (R193). -/
def execPageWriteEnd (verified : Bool) (s : State) : Host.Outcome State Fault Refusal :=
  done (s.event (writeEnd verified))

end Sys2Proof.Machine
end

