-- ==== Sys2Proof/Machine/ExecPlant.lean ====
section
/-! DEFINITION. Meanings of the commands of power, measurement, burner and flame. -/

namespace Sys2Proof.Machine

/-- POWER_ON (R198): the volatile state at its power-on values, the load begun. Without a loss of power before it nothing happens (log 2). -/
def execPowerOn (s : State) : Host.Outcome State Fault Refusal :=
  done (if s.power = .off then s.volatileReset .loading else s)

/-- POWER_LOSS (R195). -/
def execPowerLoss (s : State) : Host.Outcome State Fault Refusal := done (powerLoss s)

/-- LOAD_COMPLETE (R198). -/
def execLoadComplete (s : State) : Host.Outcome State Fault Refusal :=
  done (if s.power = .loading then settle (loadComplete s) else s)

/-- FRAME_COMPLETION (R1). -/
def execFrameCompletion (f : Frame) (s : State) : Host.Outcome State Fault Refusal := done (s.event (frameStep f))

/-- FLOW_DISAGREE_TIMEOUT (R11). -/
def execFlowDisagreeTimeout (s : State) : Host.Outcome State Fault Refusal := done (s.event disagreeTimeout)

/-- CIRCULATION_TIMEOUT (R20). -/
def execCirculationTimeout (s : State) : Host.Outcome State Fault Refusal := done (s.event circulationTimeout)

/-- FAN_DEVIATION_TIMEOUT (R47). -/
def execFanDeviationTimeout (s : State) : Host.Outcome State Fault Refusal := done (s.event fanDeviationTimeout)

/-- PURGE_COMPLETE (R29). -/
def execPurgeComplete (s : State) : Host.Outcome State Fault Refusal := done (s.event purgeTimeout)

/-- FLAME_SAMPLE (R12, R13). -/
def execFlameSample (raw : Sample) (s : State) : Host.Outcome State Fault Refusal := done (s.event (flameSampled raw))

/-- INPUT_PULSE (R14, R15). -/
def execInputPulse (line : PulseLine) (s : State) : Host.Outcome State Fault Refusal := done (s.event (pulseCounted line))

/-- RELAY_READBACK_CHANGE (R43). The level is noted whatever the power. -/
def execRelayReadbackChange (relay : Relay) (energised : Bool) (dt : Nat) (s : State) :
    Host.Outcome State Fault Refusal :=
  done (((s.advance dt).onLines fun l =>
    match relay with
    | .gas1 => { l with relay1Fb := energised }
    | .gas2 => { l with relay2Fb := energised }).event (mismatchSync relay))

/-- MISMATCH_TIMER_EXPIRY (R43). -/
def execMismatchTimerExpiry (relay : Relay) (s : State) : Host.Outcome State Fault Refusal :=
  done (s.event fun s => s.expire (s.bs.mismatch relay) (mismatchFound relay))

/-- TPCHK_EXPIRY (R28). -/
def execTpchkExpiry (s : State) : Host.Outcome State Fault Refusal :=
  done (s.event fun s => s.expire s.bs.tPchk tpchkExpired)

/-- PRE_PURGE_LIMIT_EXPIRY (R30). -/
def execPrePurgeLimitExpiry (s : State) : Host.Outcome State Fault Refusal :=
  done (s.event fun s => s.expire s.bs.purgeLimit purgeLimitExpired)

/-- TPRESPK_EXPIRY (R31). -/
def execTprespkExpiry (s : State) : Host.Outcome State Fault Refusal :=
  done (s.event fun s => s.expire s.bs.tPrespk tprespkExpired)

/-- TSPARK_EXPIRY (R32). -/
def execTsparkExpiry (s : State) : Host.Outcome State Fault Refusal :=
  done (s.event fun s => s.expire s.bs.tSpark tsparkExpired)

/-- TSAFE_EXPIRY (R33). -/
def execTsafeExpiry (s : State) : Host.Outcome State Fault Refusal :=
  done (s.event fun s => s.expire s.bs.tSafe tsafeExpired)

/-- TSTAB_EXPIRY (R35). -/
def execTstabExpiry (s : State) : Host.Outcome State Fault Refusal :=
  done (s.event fun s => s.expire s.bs.tStab tstabExpired)

/-- TPOST_EXPIRY (R39). -/
def execTpostExpiry (s : State) : Host.Outcome State Fault Refusal :=
  done (s.event fun s => s.expire s.bs.tPost tpostExpired)

/-- LOCKOUT_PURGE_EXPIRY (R48). -/
def execLockoutPurgeExpiry (s : State) : Host.Outcome State Fault Refusal :=
  done (s.event fun s => s.expire s.bs.lockPurge lockPurgeExpired)

/-- TFF_EXPIRY (R41). -/
def execTffExpiry (s : State) : Host.Outcome State Fault Refusal :=
  done (s.event fun s => s.expire s.bs.falseFlame falseFlameFound)

/-- TFFPOST_EXPIRY (R42). -/
def execTffpostExpiry (s : State) : Host.Outcome State Fault Refusal :=
  done (s.event fun s => s.expire s.bs.postGas tffpostExpired)

end Sys2Proof.Machine
end

