-- ==== Sys2Proof/Machine/ExecRequest.lean ====
section
/-! DEFINITION. Meanings of the management requests (chapter 8), of RESTART_PROCEED and of the proxy slot's hold. The kind codes are those of section 10.4; how a request reaches MG: log 6. -/

namespace Sys2Proof.Machine

/-- READ_ENTRY (R173). -/
def execReadEntry (node : Nat) (tag table entry : Byte) (s : State) : Host.Outcome State Fault Refusal :=
  done (s.event (mgmtRequest node 1 tag [table, entry]))

/-- WRITE_ENTRY of a settings-class table (R175). -/
def execWriteEntry (node : Nat) (tag table entry : Byte) (data : List Byte) (s : State) :
    Host.Outcome State Fault Refusal :=
  done (s.event (mgmtRequest node 2 tag (table :: entry :: data)))

/-- WRITE_ENTRY of COUNTERS (R174). -/
def execWriteEntryCounters (node : Nat) (tag entry : Byte) (data : List Byte) (s : State) :
    Host.Outcome State Fault Refusal :=
  done (s.event (mgmtRequest node 2 tag (9 :: entry :: data)))

/-- WRITE_ENTRY of SAFETY_STAGE (R178). -/
def execWriteEntrySafetyStage (node : Nat) (tag entry : Byte) (data : List Byte) (s : State) :
    Host.Outcome State Fault Refusal :=
  done (s.event (mgmtRequest node 2 tag (7 :: entry :: data)))

/-- COMMIT_SAFETY (R179). -/
def execCommitSafety (node : Nat) (tag : Byte) (crc : BitVec 16) (s : State) : Host.Outcome State Fault Refusal :=
  done (s.event (mgmtRequest node 3 tag (put16 crc.toNat)))

/-- READ_STATE (R187). -/
def execReadState (node : Nat) (tag group index part : Byte) (s : State) : Host.Outcome State Fault Refusal :=
  done (s.event (mgmtRequest node 4 tag [group, index, part]))

/-- READ_FAULTS (R128). -/
def execReadFaults (node : Nat) (tag list direction index : Byte) (s : State) : Host.Outcome State Fault Refusal :=
  done (s.event (mgmtRequest node 5 tag [list, direction, index]))

/-- LOCKOUT_RESET (R119, R121). -/
def execLockoutReset (node : Nat) (tag : Byte) (s : State) : Host.Outcome State Fault Refusal :=
  done (s.event (mgmtRequest node 6 tag []))

/-- PROXY_READ (R184). -/
def execProxyRead (node : Nat) (tag target item : Byte) (s : State) : Host.Outcome State Fault Refusal :=
  done (s.event (mgmtRequest node 7 tag [target, item]))

/-- CLEAR_HISTORY (R129). -/
def execClearHistory (node : Nat) (tag : Byte) (s : State) : Host.Outcome State Fault Refusal :=
  done (s.event (mgmtRequest node 8 tag []))

/-- RESTART (R189). -/
def execRestart (node : Nat) (tag : Byte) (s : State) : Host.Outcome State Fault Refusal :=
  done (s.event (mgmtRequest node 9 tag []))

/-- RESTART_PROCEED (R189): the volatile state as at power-on and the load begun; before its conditions hold nothing happens (log 18). -/
def execRestartProceed (s : State) : Host.Outcome State Fault Refusal :=
  done (if s.power = .on ∧ s.restartReady then s.volatileReset .loading else s)

/-- PROXY_HOLD_EXPIRY (R185, R186). -/
def execProxyHoldExpiry (s : State) : Host.Outcome State Fault Refusal :=
  done (s.event fun s => s.expire s.mg.slot.hold slotExpired)

end Sys2Proof.Machine
end

