-- ==== Sys2Proof/Machine/Dispatch.lean ====
section
/-! DEFINITION. One arm for each command, each one call of its meaning. -/

namespace Sys2Proof.Machine

def exec (i : Instr) (s : State) : Host.Outcome State Fault Refusal :=
  match i with
  | .powerOn => Sys2Proof.Machine.execPowerOn s
  | .powerLoss => Sys2Proof.Machine.execPowerLoss s
  | .loadComplete => Sys2Proof.Machine.execLoadComplete s
  | .frameCompletion f => Sys2Proof.Machine.execFrameCompletion f s
  | .flowDisagreeTimeout => Sys2Proof.Machine.execFlowDisagreeTimeout s
  | .circulationTimeout => Sys2Proof.Machine.execCirculationTimeout s
  | .fanDeviationTimeout => Sys2Proof.Machine.execFanDeviationTimeout s
  | .purgeComplete => Sys2Proof.Machine.execPurgeComplete s
  | .zoneFallbackTimeout zone => Sys2Proof.Machine.execZoneFallbackTimeout zone s
  | .flameSample raw => Sys2Proof.Machine.execFlameSample raw s
  | .inputPulse line => Sys2Proof.Machine.execInputPulse line s
  | .relayReadbackChange relay energised dt => Sys2Proof.Machine.execRelayReadbackChange relay energised dt s
  | .mismatchTimerExpiry relay => Sys2Proof.Machine.execMismatchTimerExpiry relay s
  | .tpchkExpiry => Sys2Proof.Machine.execTpchkExpiry s
  | .prePurgeLimitExpiry => Sys2Proof.Machine.execPrePurgeLimitExpiry s
  | .tprespkExpiry => Sys2Proof.Machine.execTprespkExpiry s
  | .tsparkExpiry => Sys2Proof.Machine.execTsparkExpiry s
  | .tsafeExpiry => Sys2Proof.Machine.execTsafeExpiry s
  | .tstabExpiry => Sys2Proof.Machine.execTstabExpiry s
  | .tpostExpiry => Sys2Proof.Machine.execTpostExpiry s
  | .lockoutPurgeExpiry => Sys2Proof.Machine.execLockoutPurgeExpiry s
  | .tffExpiry => Sys2Proof.Machine.execTffExpiry s
  | .tffpostExpiry => Sys2Proof.Machine.execTffpostExpiry s
  | .valveTravelExpiry zone => Sys2Proof.Machine.execValveTravelExpiry zone s
  | .dhwOverrunExpiry => Sys2Proof.Machine.execDhwOverrunExpiry s
  | .diverterEndReached => Sys2Proof.Machine.execDiverterEndReached s
  | .antiCycleExpiry => Sys2Proof.Machine.execAntiCycleExpiry s
  | .pumpOverrunExpiry => Sys2Proof.Machine.execPumpOverrunExpiry s
  | .pumpKickStart => Sys2Proof.Machine.execPumpKickStart s
  | .pumpKickEnd => Sys2Proof.Machine.execPumpKickEnd s
  | .onPhaseExpiry => Sys2Proof.Machine.execOnPhaseExpiry s
  | .offPhaseExpiry => Sys2Proof.Machine.execOffPhaseExpiry s
  | .blockingTimerExpiry source => Sys2Proof.Machine.execBlockingTimerExpiry source s
  | .resetInLevelChange low dt => Sys2Proof.Machine.execResetInLevelChange low dt s
  | .resetInPress => Sys2Proof.Machine.execResetInPress s
  | .powerOnSecond => Sys2Proof.Machine.execPowerOnSecond s
  | .tsettleExpiry => Sys2Proof.Machine.execTsettleExpiry s
  | .periodTimerExpiry => Sys2Proof.Machine.execPeriodTimerExpiry s
  | .lineCheckIdle => Sys2Proof.Machine.execLineCheckIdle s
  | .lineDominanceTimeout => Sys2Proof.Machine.execLineDominanceTimeout s
  | .lineCheckTimeout => Sys2Proof.Machine.execLineCheckTimeout s
  | .requestSent => Sys2Proof.Machine.execRequestSent s
  | .holdTimeout => Sys2Proof.Machine.execHoldTimeout s
  | .replyStartMark run dt => Sys2Proof.Machine.execReplyStartMark run dt s
  | .treplyExpiry => Sys2Proof.Machine.execTreplyExpiry s
  | .trxmaxExpiry => Sys2Proof.Machine.execTrxmaxExpiry s
  | .replyFraming cause dt => Sys2Proof.Machine.execReplyFraming cause dt s
  | .replyReceived check dt => Sys2Proof.Machine.execReplyReceived check dt s
  | .closingSent => Sys2Proof.Machine.execClosingSent s
  | .tclearExpiry => Sys2Proof.Machine.execTclearExpiry s
  | .overcurrent => Sys2Proof.Machine.execOvercurrent s
  | .faultTimerExpiry => Sys2Proof.Machine.execFaultTimerExpiry s
  | .readEntry node tag table entry => Sys2Proof.Machine.execReadEntry node tag table entry s
  | .writeEntry node tag table entry data => Sys2Proof.Machine.execWriteEntry node tag table entry data s
  | .writeEntryCounters node tag entry data => Sys2Proof.Machine.execWriteEntryCounters node tag entry data s
  | .writeEntrySafetyStage node tag entry data => Sys2Proof.Machine.execWriteEntrySafetyStage node tag entry data s
  | .commitSafety node tag crc => Sys2Proof.Machine.execCommitSafety node tag crc s
  | .readState node tag group index part => Sys2Proof.Machine.execReadState node tag group index part s
  | .readFaults node tag list direction index => Sys2Proof.Machine.execReadFaults node tag list direction index s
  | .lockoutReset node tag => Sys2Proof.Machine.execLockoutReset node tag s
  | .proxyRead node tag target item => Sys2Proof.Machine.execProxyRead node tag target item s
  | .clearHistory node tag => Sys2Proof.Machine.execClearHistory node tag s
  | .restart node tag => Sys2Proof.Machine.execRestart node tag s
  | .restartProceed => Sys2Proof.Machine.execRestartProceed s
  | .proxyHoldExpiry => Sys2Proof.Machine.execProxyHoldExpiry s
  | .pageWriteEnd verified => Sys2Proof.Machine.execPageWriteEnd verified s
  | .busLineLevelChange dominant dt => Sys2Proof.Machine.execBusLineLevelChange dominant dt s
  | .replyByteReceived value dt => Sys2Proof.Machine.execReplyByteReceived value dt s

end Sys2Proof.Machine
end

