-- ==== Sys2Proof/Safety.lean ====
section
/-! DEFINITION. What a safe run is, in the terms the claims use: where the gas may be open and each phase timer may run, how the lockout record and the burner state agree, what may stand in the active list and the store queue, and what the end of an event may add to its effect. -/

namespace Sys2Proof.Machine

/-- A timer runs only in one burner state. -/
def onlyIn (b : Bs) (st : BurnerState) (t : Timer) : Prop := t.isSome = true → b.state = st

/-- The burner is as R22, R26 to R39 and R48 allow: both gas drives are commanded alike; they are energised exactly in IGNITION after the pre-spark wait, in STABILISE and in RUN; the spark is on in IGNITION only; and each phase timer runs only in the state it belongs to, the safety and spark timers only with the gas open. -/
def BurnerOk (b : Bs) : Prop :=
  b.gas1 = b.gas2
    ∧ (b.gas1 = true ↔ b.state = .stabilise ∨ b.state = .run ∨ (b.state = .ignition ∧ b.tPrespk = none))
    ∧ (b.spark = true → b.state = .ignition)
    ∧ onlyIn b .preCheck b.tPchk ∧ onlyIn b .prePurge b.purgeLimit ∧ (b.purge.isSome = true → b.state = .prePurge)
    ∧ onlyIn b .ignition b.tPrespk ∧ onlyIn b .ignition b.tSafe ∧ onlyIn b .ignition b.tSpark
    ∧ (b.tSafe.isSome = true → b.tPrespk = none) ∧ (b.tSpark.isSome = true → b.tPrespk = none)
    ∧ onlyIn b .stabilise b.tStab ∧ onlyIn b .postPurge b.tPost ∧ onlyIn b .lockout b.lockPurge

/-- The lockout record stands exactly while the burner is in LOCKOUT (R48, R49, R116); a part that is not in operation is not locked out yet (R117). -/
def LockoutAgrees (s : State) : Prop :=
  (s.fm.lockout.state ≠ .none ↔ s.bs.state = .lockout) ∧ (s.power ≠ .on → s.bs = {} ∧ s.fm.lockout.state = .none)

/-- The burner and the lockout record together: the invariant of safe operation. -/
def SafeBurner (s : State) : Prop := BurnerOk s.bs ∧ LockoutAgrees s

/-- The active fault list holds at most one record for each source (R110), and a record of a source of the safety set has class LOCKOUT (R105, R108). -/
def FaultListSound (s : State) : Prop :=
  (s.fm.active.map fun r => r.source).Nodup ∧ ∀ r ∈ s.fm.active, r.source.safety = true → r.cls = .lockout

/-- The store queue holds at most its 16 waiting jobs (R194). -/
def QueueFits (s : State) : Prop := s.st.jobs.length ≤ Config.queuePlaces

/-- Counts and accumulators within the ranges their rules give: the integrator (R87), the fan duty (R46), the flow disagreement and circulation timers (R11, R20), the fan deviation timer (R47), the idle timer (R77), and the reset history (R120); and the lists of a fixed number of things at their lengths: eight zones, fifteen nodes, seven counters, and the rings of ten counts (R14, R15, R53, R147, R200). -/
def CountsInRange (s : State) : Prop :=
  s.mu.iAcc ≤ 100000 ∧ s.bs.fanDuty ≤ 1000 ∧ s.mp.disagree ≤ Config.disagreeFrames ∧ s.mp.circ < Config.circFrames
    ∧ s.bs.fanDev < Config.fanDevFrames ∧ s.dm.idle ≤ Config.idleLimit ∧ s.fm.resets.length ≤ 5
    ∧ s.dm.zones.length = 8 ∧ s.pe.nodes.length = 15 ∧ s.st.counters.length = 7
    ∧ s.mp.dhwRing.length = 10 ∧ s.mp.tachoRing.length = 10

/-- `t` is `u` with the end of an event in which no start is due (log 9): the pump's idle timer is back at 0 where the pump is wanted for a reason other than a kick and no LOW_PRESSURE record holds it, and stands otherwise (R77); and the next page write has begun where none was in progress and a job waits, its job having left the queue, the store's other fields standing (`startWrite`, R195). -/
def AtEnd (u t : State) : Prop :=
  t = { u with
    dm := { u.dm with idle := if u.pumpWanted = true ∧ u.record .lowPressure = none then 0 else u.dm.idle }
    st := (startWrite u).st }

/-- The ANSWER that MG has formed, its payload beginning with the tag, the request kind and the result code (section 10.4). -/
def answered (t : State) (node : Nat) (tag : Byte) (kind : Nat) (r : Result) (data : List Byte) : Prop :=
  t.mg.answer = some { node := node, payload := [tag, byte kind, byte r.code] ++ data }

/-- With no exchange in flight and no start due, a request has changed nothing but the ANSWER that MG keeps, and that its closing outcome leaves no proxy result under delivery (R172, R186, log 6), up to the end of the event. -/
def AnswerAlone (s t : State) : Prop :=
  s.pe.round.inFlight = none → s.mayStart = false →
    AtEnd { s with mg := { s.mg with answer := t.mg.answer, slot := { s.mg.slot with delivering := false } } } t

/-- A management request of the node can be taken: in the management poll in flight to the node (R165), or as a command of its own while PE has no exchange in flight (log 6). -/
def Requests (s : State) (node : Nat) : Prop :=
  s.power = .on
    ∧ (s.pe.round.inFlight = none
      ∨ (s.polls node = true
        ∧ (s.pe.round.inFlight = some .servicePoll
          ∨ (s.pe.round.inFlight = some .entry ∧ (s.pe.round.cur.map fun t => t.entry.kind) = some .mgmtPoll))))

/-- The state in which MG takes the request: in a poll, the reply has first been taken for the node's presence (R139, R149). -/
def requestState (node : Nat) (s : State) : State := if s.pe.round.inFlight = none then s else presenceGood node s

/-- A raising of the source now leads to lockout: it is in the safety set, and a record of it, if one stands, has class LOCKOUT (R105, R108). -/
def LocksOut (s : State) (src : Source) : Prop :=
  src.safety = true ∧ ∀ r, s.record src = some r → r.cls = .lockout

/-- A record of the source, with the detail, stands in the active list with class LOCKOUT. -/
def LockoutRecord (t : State) (src : Source) (detail : Nat) : Prop :=
  ∃ r ∈ t.fm.active, r.source = src ∧ r.detail = detail ∧ r.cls = .lockout

/-- The burner is in LOCKOUT with both drives and the spark off, the lockout record standing (R48, R116). -/
def LockedOut (t : State) : Prop :=
  t.bs.state = .lockout ∧ t.bs.gas1 = false ∧ t.bs.gas2 = false ∧ t.bs.spark = false ∧ t.fm.lockout.state ≠ .none

/-- Both relays read de-energised, so that an entry to PRE_CHECK finds no fault there (R43). -/
def RelaysOpen (s : State) : Prop := s.lines.relay1Fb = false ∧ s.lines.relay2Fb = false

/-- The code delivered to PE is that of the lead fault (R113): the display code of the record than which none has a higher class and none of its class stands earlier; 0 for an empty list. -/
def LeadDelivered (t : State) : Prop :=
  (t.fm.active = [] → t.pe.leadCode = 0)
    ∧ ∀ (i : Nat) (r : Record), t.fm.active[i]? = some r →
        (∀ (j : Nat) (q : Record), t.fm.active[j]? = some q → q.cls.code < r.cls.code ∨ (q.cls = r.cls ∧ i ≤ j)) →
        t.pe.leadCode = fcCode t.st.faultCodes r.source

/-! ### Families of commands -/

/-- The families of commands: power and load; frames, flame samples and pulses; the plant, its timers and the faults; the zone bus and its rounds; management requests; the store. -/
inductive Family where
  | power
  | measure
  | plant
  | bus
  | request
  | store
deriving DecidableEq, Repr

/-- The family of a command. -/
def familyOf : Instr → Family
  | .powerOn | .powerLoss | .loadComplete | .restartProceed => .power
  | .frameCompletion _ | .flowDisagreeTimeout | .circulationTimeout | .flameSample _ | .inputPulse _ => .measure
  | .fanDeviationTimeout | .purgeComplete | .zoneFallbackTimeout _ | .relayReadbackChange _ _ _ | .mismatchTimerExpiry _
  | .tpchkExpiry | .prePurgeLimitExpiry | .tprespkExpiry | .tsparkExpiry | .tsafeExpiry | .tstabExpiry | .tpostExpiry
  | .lockoutPurgeExpiry | .tffExpiry | .tffpostExpiry | .valveTravelExpiry _ | .dhwOverrunExpiry | .diverterEndReached
  | .antiCycleExpiry | .pumpOverrunExpiry | .pumpKickStart | .pumpKickEnd | .onPhaseExpiry | .offPhaseExpiry
  | .blockingTimerExpiry _ | .resetInLevelChange _ _ | .resetInPress | .powerOnSecond => .plant
  | .tsettleExpiry | .periodTimerExpiry | .lineCheckIdle | .lineDominanceTimeout | .lineCheckTimeout | .requestSent
  | .holdTimeout | .replyStartMark _ _ | .treplyExpiry | .trxmaxExpiry | .replyFraming _ _ | .replyReceived _ _
  | .closingSent | .tclearExpiry | .overcurrent | .faultTimerExpiry | .busLineLevelChange _ _
  | .replyByteReceived _ _ => .bus
  | .readEntry _ _ _ _ | .writeEntry _ _ _ _ _ | .writeEntryCounters _ _ _ _ | .writeEntrySafetyStage _ _ _ _
  | .commitSafety _ _ _ | .readState _ _ _ _ _ | .readFaults _ _ _ _ _ | .lockoutReset _ _ | .proxyRead _ _ _ _
  | .clearHistory _ _ | .restart _ _ | .proxyHoldExpiry => .request
  | .pageWriteEnd _ => .store

/-! ### Exchanges on the zone bus and requests, for the claims about them -/

/-- An exchange `x` in flight for PE's request `f` in a phase, with the part in operation. -/
def InExchange (s : State) (x : Exchange) (f : InFlight) (p : Phase) : Prop :=
  s.power = .on ∧ s.zp.exch = some x ∧ s.pe.round.inFlight = some f ∧ x.phase = p ∧ 1 ≤ x.node ∧ x.node ≤ 15
    ∧ s.pe.nodes.length = 15

/-- The exchange has ended and the port is free again (R140, R141): the port is READY with no exchange in flight, or PE has handed the next request in the same event, whose exchange is new and in its line check or sending phase (R132, R136). -/
def ExchangeEnded (t : State) : Prop :=
  (t.zp.exch = none ∧ t.zp.port = .ready)
    ∨ ∃ y, t.zp.exch = some y ∧ t.zp.port = .exchange ∧ (y.phase = .lineCheck ∨ y.phase = .sending)
        ∧ y.checkAt = t.clock.now

/-- The failure of the exchange `x` is on record with its reason, the exchange has ended, and PE has counted the failure: the third in a row makes the node ABSENT, which raises NODE_ABSENT for a node other than 15 (R141, R149). -/
def FailureTaken (s t : State) (x : Exchange) (r : Reason) : Prop :=
  t.zp.lastFail = some { reason := r, node := x.node, kind := x.kind, time := s.time }
    ∧ ExchangeEnded t
    ∧ ((s.nodeLive x.node).presence = .absent → t.nodeLive x.node = s.nodeLive x.node)
    ∧ ((s.nodeLive x.node).presence ≠ .absent → (s.nodeLive x.node).miss < 2 →
        t.nodeLive x.node = { s.nodeLive x.node with miss := (s.nodeLive x.node).miss + 1 })
    ∧ ((s.nodeLive x.node).presence ≠ .absent → 2 ≤ (s.nodeLive x.node).miss →
        t.nodeLive x.node = { s.nodeLive x.node with presence := .absent, miss := 3 }
          ∧ (x.node ≠ 15 → ∃ q ∈ t.fm.active, q.source = .nodeAbsent ∧ q.detail = x.node))

/-- A bus port reset has been taken at the time `now` (R145). No exchange is in flight and the receive assembly is empty; the round is given up, its number and period timer kept, and the urgent queue is empty (R159, R168); every node's presence is UNKNOWN with a miss count of 0, its last good exchange time kept (R150); a proxy slot in FETCHING is READY with NO_ANSWER, its hold of 30 s running, and another one keeps its key and result (R185); and every zone's valve is UNKNOWN where it has a valve node, its travel timer stopped and its marks cleared (R66). -/
def BusReset (s t : State) (now : Nat) : Prop :=
  t.clock.now = now ∧ t.zp.exch = none ∧ t.zp.rx = []
    ∧ t.pe.urgent = [] ∧ t.pe.portReady = false
    ∧ t.pe.round.state = .waitingPort ∧ t.pe.round.inFlight = none ∧ t.pe.round.cur = none ∧ t.pe.round.pre = none
    ∧ t.pe.round.number = s.pe.round.number ∧ t.pe.round.period = s.pe.round.period
    ∧ t.pe.nodes = s.pe.nodes.map (fun n => { n with presence := .unknown, miss := 0 })
    ∧ (s.mg.slot.state = .fetching →
        t.mg.slot = { s.mg.slot with
          state := .ready, result := .noAnswer, data := [], hold := some (now + Config.tProxy), delivering := false })
    ∧ (s.mg.slot.state ≠ .fetching →
        { t.mg.slot with delivering := s.mg.slot.delivering } = s.mg.slot
          ∧ (s.inPhase .closing = false → t.mg.slot = s.mg.slot))
    ∧ ∀ z < 8, s.hasValve z = true →
        (t.zone z).valve = .unknown ∧ (t.zone z).travel = none ∧ (t.zone z).ack = false ∧ (t.zone z).overrun = false

/-- The bus has been cleared at the time `now`, the line check having failed (R142, R145): a bus port reset is taken; with fewer than two clears within 600 s the port is CLEARING with tCLEAR running and this clear listed, and otherwise it is in FAULT for 60 s with BUS_FAULT raised. -/
def BusCleared (s t : State) (now : Nat) : Prop :=
  BusReset s t now
    ∧ (s.recentClears.length < 2 →
        t.zp.port = .clearing ∧ t.zp.clear = some (now + Config.tClear) ∧ t.zp.clears = s.recentClears ++ [s.time]
          ∧ t.zp.busFault = s.zp.busFault)
    ∧ (2 ≤ s.recentClears.length →
        t.zp.port = .fault ∧ t.zp.fault = some (now + Config.tFault) ∧ t.zp.clears = [] ∧ t.zp.busFault = true
          ∧ ∃ r ∈ t.fm.active, r.source = .busFault)

/-- The counters with counter `i` up by 1, held at its largest value (R200). -/
def countUp (i : Nat) (l : List Nat) : List Nat := updateAt l i fun n => min Config.counterMax (n + 1)

/-- A job for the page waits, or the write of the page is in progress. -/
def JobStands (t : State) (page : Nat) : Prop := t.jobWaiting page = true ∨ ∃ w, t.st.write = some w ∧ w.page = page

/-- A reset request taken in the state `u` with the result of R121: the result is kept as the last reset result; an accepted one makes the lockout record RESET_PENDING, the page image reading NONE, with its write outstanding, and is added to the reset history unless made with SERVICE rights (R119, R123); any other leaves the record and the reset history as they were, but that one answered RESET_PENDING with no write outstanding queues the lockout page again (R121). -/
def ResetTaken (u t : State) (rights : Rights) (origin : Origin) (r : Result) : Prop :=
  t.fm.lastReset = some { result := r, rights := rights, origin := origin, time := u.time }
    ∧ (r = .accepted →
        t.fm.lockout = { u.fm.lockout with state := .resetPending } ∧ t.fm.writeOut = true ∧ JobStands t 8
          ∧ t.fm.resets = (if rights = .service then u.fm.resets else resetAdd u.time u.fm.resets))
    ∧ (r ≠ .accepted → t.fm.lockout = u.fm.lockout ∧ t.fm.resets = u.fm.resets)
    ∧ (r = .resetPending → u.fm.writeOut = false → t.fm.writeOut = true ∧ JobStands t 8)

/-- The result of R121 for a reset request, read from the state by the rule's table. -/
def ResetResult (u : State) (rights : Rights) (r : Result) : Prop :=
  (u.fm.lockout.state = .none ∧ r = .notLocked)
    ∨ (u.fm.lockout.state = .resetPending ∧ r = .resetPending)
    ∨ (u.fm.lockout.state = .active ∧ rights ≠ .service ∧ 5 ≤ u.budgetCount ∧ r = .budget)
    ∨ (u.fm.lockout.state = .active ∧ (rights = .service ∨ u.budgetCount < 5)
        ∧ (∃ q ∈ u.fm.active, q.cls = .lockout ∧ u.conditionPresent q.source = true) ∧ r = .condition)
    ∨ (u.fm.lockout.state = .active ∧ (rights = .service ∨ u.budgetCount < 5)
        ∧ (∀ q ∈ u.fm.active, q.cls = .lockout → u.conditionPresent q.source = false) ∧ r = .accepted)

end Sys2Proof.Machine
end

