-- ==== Sys2Proof/Certificates/Slice0/Obligations.lean ====
section
/-! DEFINITION. The statements for the provers, each a proposition about the model in the terms of the manual's rules. Numbered rules are named in the docstrings; `AtEnd u t` reads: the state after the event is `u`, but that the next waiting page write has begun where none was in progress, and that the pump's idle timer is back at 0 where the pump is wanted. -/

open Sys2Proof Sys2Proof.Machine

/-! ### The queue of commands -/

/-- A step takes the command at the front of the queue and executes it on the state with the queue's rest. Model's choices: the queue of commands is the model's (log 4). -/
def Obligations.StepTakesTheFrontCommand : Prop :=
  ∀ (c : Instr) (r : List Instr) (s : State), step { s with pending := c :: r } = exec c { s with pending := r }

/-- Every command leads to a next state, from every state, and leaves the commands that wait alone. Model's choices: an expiry asserts the end of the running timer (log 2). -/
def Obligations.EveryCommandCompletesAndKeepsTheQueue : Prop :=
  ∀ (c : Instr) (s : State), ∃ t, exec c s = .next t ∧ t.pending = s.pending

/-! ### Invariants of every step -/

/-- The store memory keeps its canonical form through every step. Model's choices: the slots B are physical pages of the model (log 20). -/
def Obligations.StepKeepsStoreCanonical : Prop :=
  ∀ s t : State, s.nv.wf = true → step s = .next t → t.nv.wf = true

/-- Safe operation is kept by every step: the gas drives are energised exactly in IGNITION after the pre-spark wait, in STABILISE and in RUN, the spark is on in IGNITION only, each phase timer runs in its own state only (R22, R26 to R39, R48), and the lockout record stands exactly while the burner is in LOCKOUT (R48, R49, R116). -/
def Obligations.StepKeepsTheBurnerSafe : Prop :=
  ∀ s t : State, SafeBurner s → step s = .next t → SafeBurner t

/-- The active fault list holds at most one record for each source, and the records of the safety set stay LOCKOUT, through every step (R105, R108, R110). -/
def Obligations.StepKeepsTheFaultListSound : Prop :=
  ∀ s t : State, FaultListSound s → step s = .next t → FaultListSound t

/-- The integrator, the fan duty, the frame-counted timers, the idle timer and the reset history stay within the ranges their rules give, the lists of a fixed number of things keep their lengths, and the store queue holds at most 16 waiting jobs, through every step (R11, R20, R46, R47, R77, R87, R120, R194). -/
def Obligations.StepKeepsCountsInRange : Prop :=
  ∀ s t : State, CountsInRange s → QueueFits s → step s = .next t → CountsInRange t ∧ QueueFits t

/-! ### Rules over all commands -/

/-- The state after reset meets every invariant. Model's choices: the values of State.reset that no rule gives are named in log 5. -/
def Obligations.ResetMeetsTheInvariants : Prop :=
  State.reset.nv.wf = true ∧ SafeBurner State.reset ∧ FaultListSound State.reset ∧ QueueFits State.reset
    ∧ CountsInRange State.reset

/-- LOCKOUT is left only by the completion of a lockout reset, which is the good end of a write of page 8 whose copy carried NONE with the record RESET_PENDING (R49, R124), by a RESTART or by a loss of power. Every other command, and every other end of a page write, keeps the burner in LOCKOUT with the gas off and the lockout record standing. -/
def Obligations.LockoutIsLeftOnlyByResetOrPower : Prop :=
  ∀ (c : Instr) (s t : State), SafeBurner s → s.bs.state = .lockout → exec c s = .next t →
    c ≠ .powerLoss → c ≠ .restartProceed →
    (c = .pageWriteEnd true → ∀ w, s.st.write = some w →
      ¬(w.page = 8 ∧ w.carried = .none ∧ s.fm.lockout.state = .resetPending)) →
    t.bs.state = .lockout ∧ t.bs.gas1 = false ∧ t.bs.gas2 = false ∧ t.fm.lockout.state ≠ .none

/-- The live safety block changes at the completion of a commit only, which is the good end of the write of page 7 in a commit sequence (R174, R182, R196), apart from power and the load. The stored pages change only at the end of a page write and at a power loss (R191, R193, R195): the load, a RESTART and every other command keep them. -/
def Obligations.SafetyBlockAndStoreChangeByPageWritesOnly : Prop :=
  ∀ (c : Instr) (s t : State), exec c s = .next t →
    (familyOf c ≠ .power →
      (c = .pageWriteEnd true → ∀ w, s.st.write = some w → ¬(w.page = 7 ∧ w.commit = true)) →
      t.st.safety = s.st.safety)
    ∧ ((∀ v, c ≠ .pageWriteEnd v) → c ≠ .powerLoss → t.nv = s.nv)

/-- What each family of commands leaves alone, power and the load apart. The measurements change by frames, flame samples and pulses and their timers only; the latched tables and LIMIT_IN by a frame completion only; the port and PE, but for its urgent queue and lead code, by the bus and by requests only; MG by these and the store only; the settings-class tables by requests only, which the bus carries (R139, R165, R175), but that the completion of a commit may lower Tch_max in SETTINGS (R182); the counters by these, flame samples, tSAFE and the power-on second; each line by its own command, the bus line by the bus. -/
def Obligations.CommandsKeepWhatTheyDoNotReach : Prop :=
  ∀ (c : Instr) (s t : State), exec c s = .next t → familyOf c ≠ .power →
    t.power = s.power
    ∧ (familyOf c ≠ .measure → t.mp = s.mp)
    ∧ ((∀ f, c ≠ .frameCompletion f) → t.latch = s.latch ∧ t.lines.limitOpen = s.lines.limitOpen)
    ∧ (familyOf c ≠ .bus → familyOf c ≠ .request →
        t.zp = s.zp ∧ t.pe = { s.pe with urgent := t.pe.urgent, leadCode := t.pe.leadCode })
    ∧ (familyOf c ≠ .bus → familyOf c ≠ .request → familyOf c ≠ .store → t.mg = s.mg)
    ∧ (familyOf c ≠ .bus → familyOf c ≠ .request →
        t.st.curve = s.st.curve ∧ t.st.zones = s.st.zones ∧ t.st.nodes = s.st.nodes
          ∧ t.st.poll = s.st.poll ∧ t.st.faultCodes = s.st.faultCodes
          ∧ (familyOf c ≠ .store → t.st.settings = s.st.settings)
          ∧ ((∀ r, c ≠ .flameSample r) → c ≠ .tsafeExpiry → c ≠ .powerOnSecond → t.st.counters = s.st.counters))
    ∧ ((∀ r l dt, c ≠ .relayReadbackChange r l dt) →
        t.lines.relay1Fb = s.lines.relay1Fb ∧ t.lines.relay2Fb = s.lines.relay2Fb)
    ∧ ((∀ l dt, c ≠ .resetInLevelChange l dt) → t.lines.resetLow = s.lines.resetLow)
    ∧ (familyOf c ≠ .bus → t.lines.busDominant = s.lines.busDominant ∧ t.lines.busSince = s.lines.busSince)

/-- The lead fault (R113): at every event that changes the active list in a source or a class, FAULTCODES standing, the code delivered to PE is the display code of the first record of the highest class, and 0 for an empty list. At every other event the code delivered before stands, but that it may have been determined again. A FAULTCODES write changes no code delivered before, carried by its node's poll or handed to MG outside one: where the poll's reply ends neither the node's absence nor BUS_FAULT, and no start follows that finds a relay energised. Model's choices: a request with no exchange in flight is taken as a command of its own (log 6); what the end of an event may add, AtEnd or the departure from STANDBY, is log 9. -/
def Obligations.LeadFaultIsDeterminedAtEveryChange : Prop :=
  ∀ (c : Instr) (s t : State), exec c s = .next t → familyOf c ≠ .power →
    (t.st.faultCodes = s.st.faultCodes →
      ((t.fm.active.map fun r => (r.source, r.cls)) ≠ (s.fm.active.map fun r => (r.source, r.cls)) → LeadDelivered t)
      ∧ (t.pe.leadCode = s.pe.leadCode ∨ LeadDelivered t))
    ∧ ∀ node tag entry data, c = .writeEntry node tag 5 entry data → Requests s node →
        (s.pe.round.inFlight = none ∨ ((s.nodeLive node).presence ≠ .absent ∧ s.zp.busFault = false)) →
        (s.mayStart = false ∨ RelaysOpen s) →
        t.pe.leadCode = s.pe.leadCode

/-! ### Power and load -/

/-- POWER_ON: every volatile state takes its power-on value and the stored pages are kept (R198); START_UP alone stands in the start-inhibit set, the burner is in STANDBY, the bus supply is off and no fault stands (R51, R130, R146). Model's choices: the values of State.reset that no rule gives are named in log 5; reset values that no rule gives are the model's (log 7). -/
def Obligations.PowerOnSetsThePowerOnValues : Prop :=
  ∀ s : State, s.power = .off → ∃ t, exec .powerOn s = .next t
    ∧ t = { State.reset with pending := s.pending, clock := s.clock, lines := s.lines, nv := s.nv, free := s.free }
    ∧ t.bs.inhibit = { blocking := false, commitHold := false, startUp := true, antiCycle := false }
    ∧ t.bs.state = .standby ∧ t.zp.port = .off ∧ t.fm.active = [] ∧ t.st.jobs = [] ∧ t.divA = false ∧ t.divB = false

/-- POWER_LOSS: everything volatile is lost; a page write in progress leaves its page, or its slot, torn; the bytes of every other page, and with no write in progress the whole store, are kept (R195). Model's choices: the values of State.reset that no rule gives are named in log 5; reset values that no rule gives are the model's (log 7); torn bytes are free values (log 10). -/
def Obligations.PowerLossTearsOnlyThePageBeingWritten : Prop :=
  ∀ s : State, s.nv.wf = true → ∃ t, exec .powerLoss s = .next t
    ∧ t = { State.reset with
        power := .off, pending := s.pending, clock := s.clock, lines := s.lines, nv := t.nv, free := t.free }
    ∧ (s.st.write = none → t.nv = s.nv)
    ∧ ∀ w, s.st.write = some w →
        t.nv.torn (physPage w.page w.slotB) = true
          ∧ ∀ a, a / 32 ≠ physPage w.page w.slotB → t.nv.read a = s.nv.read a

/-- LOAD_COMPLETE (R43, R68, R117, R126, R178, R198, R199). Each page of the settings-class tables loads its stored contents when complete and its defaults otherwise; the safety block takes the bytes of its complete pages and erased bytes for the others, its reserved bytes being 0, and is BLANK, VALID or FAILED by its pages and its CRC, PARAM_INTEGRITY standing and the burner locked out unless it is VALID; the staging image equals it, unmodified; the counters and the reset history load from their pages. A stored lockout is restored as ACTIVE with its source, code and time, its record at the head of the list; with none stored, or NONE, a VALID block and no page torn, no fault stands and the burner is in STANDBY. With a VALID block and no page torn the history ring holds the slots of its complete pages, the next slot following the one entry whose following slot does not hold the next number. A torn page raises STORE_FAULT. The port is SETTLING, the diverter is driven to CH over its travel time, and a relay that reads energised starts its mismatch timer. Of a blank store all is the default, and the burner is locked out with code 120. Model's choices: times are those of the model clock (log 1); the values of State.reset that no rule gives are named in log 5; values before the load ends are log 17; the comparison of the readbacks from the load on is log 29; a Tch_max above the bound of R85 loads as it is stored (log 33); the block fields 0 in the default POLL are log 41. -/
def Obligations.LoadCompleteTakesTheStoredPages : Prop :=
  ∀ s : State, s = s.volatileReset .loading → ∃ t, exec .loadComplete s = .next t
    ∧ t.power = .on ∧ t.nv = s.nv ∧ t.bs.inhibit.startUp = true
    ∧ (∀ p, 11 ≤ p → p ≤ 26 → t.pageImage p = if s.nv.complete p then s.nv.readPage p else State.reset.pageImage p)
    ∧ t.st.safety.length = 256
    ∧ (∀ i < 256, t.st.safety.getD i 0 = if 156 ≤ i ∧ i < 254 then 0
        else if s.nv.complete (i / 32) then s.nv.read i else erasedByte)
    ∧ t.mg.staging = t.st.safety ∧ t.mg.modified = false
    ∧ t.st.counters = (if s.nv.complete 10 then countersOfPage (s.nv.readPage 10) else List.replicate 7 0)
    ∧ ((∃ p < 8, s.nv.complete p = false) → t.st.loaded = .blank)
    ∧ ((∀ p < 8, s.nv.complete p = true) →
        ((blockCrc t.st.safety).toNat = sbCrc t.st.safety → t.st.loaded = .valid)
        ∧ ((blockCrc t.st.safety).toNat ≠ sbCrc t.st.safety → t.st.loaded = .failed))
    ∧ t.st.paramFault = decide (t.st.loaded ≠ .valid)
    ∧ (t.st.loaded ≠ .valid → LockedOut t ∧ ∃ r ∈ t.fm.active, r.source = .paramIntegrity ∧ r.cls = .lockout)
    ∧ (∀ b, s.nv.newest 8 = some b →
        let p := s.nv.readPage (physPage 8 b)
        (u8 p 0 = 1 ∨ u8 p 0 = 2) →
          t.fm.lockout = { state := .active, source := Source.ofNum (u8 p 1), code := u16 p 2, time := u32 p 4 }
            ∧ LockedOut t
            ∧ ∀ src, Source.ofNum (u8 p 1) = some src → ∃ r l, t.fm.active = r :: l
                ∧ r.source = src ∧ r.cls = .lockout ∧ r.first = u32 p 4)
    ∧ (t.st.loaded = .valid → (∀ p < 35, s.nv.loadFault p = false) →
        ((∀ b, s.nv.newest 8 = some b → u8 (s.nv.readPage (physPage 8 b)) 0 = 0) →
          t.fm.active = [] ∧ t.fm.lockout = {} ∧ t.bs.state = .standby)
        ∧ t.fm.ring.length = 32
        ∧ (∀ k < 32, t.fm.ring.getD k none =
            if s.nv.complete (27 + k / 4) then slotOfBytes (s.nv.readPage (27 + k / 4)) (8 * (k % 4)) else none)
        ∧ (t.fm.ring = List.replicate 32 none → t.fm.nextSlot = 0 ∧ t.fm.nextSeq = 0)
        ∧ ∀ (k : Nat) (h : Hist), k < 32 → t.fm.ring.getD k none = some h → endsRun t.fm.ring k = true →
            (∀ j < 32, endsRun t.fm.ring j = true → j = k) →
            t.fm.nextSlot = (k + 1) % 32 ∧ t.fm.nextSeq = (h.seq + 1) % 65536)
    ∧ (∀ p < 35, p ≠ 8 → p ≠ 9 → s.nv.torn p = true →
        t.st.storeFault = true ∧ ∃ r ∈ t.fm.active, r.source = .storeFault)
    ∧ (∀ b, s.nv.newest 9 = some b → t.fm.resets = resetsOfPage (s.nv.readPage (physPage 9 b)))
    ∧ LeadDelivered t
    ∧ t.zp.port = .settling ∧ t.zp.settle = some (s.clock.now + Config.tSettle)
    ∧ t.dm.diverter = { state := .toCh, pos := setTravel t.st.settings * Config.second
                        travel := setTravel t.st.settings * Config.second, since := s.clock.now }
    ∧ t.divB = true
    ∧ t.bs.mismatch1 = (if s.lines.relay1Fb then some (s.clock.now + Config.tMismatch) else none)
    ∧ t.bs.mismatch2 = (if s.lines.relay2Fb then some (s.clock.now + Config.tMismatch) else none)
    ∧ (s.nv = {} → t.st.loaded = .blank ∧ t.st.settings = defaultSettings ∧ t.st.poll = defaultPoll
        ∧ t.fm.lockout.source = some .paramIntegrity ∧ t.fm.lockout.code = 120)

/-! ### Measurement -/

/-- FRAME_COMPLETION: each channel is stepped with its sample, the derived values are formed from the channels of this frame, the two counts enter their rings and begin anew, the flame record stands, and the outdoor value is that of the wired channel, else the node value of at most 600 s ago, else Tout_fix (R1, R2, R10, R14, R15, R16). Model's choices: times are those of the model clock (log 1); the order of the blocks in a frame is log 8; latched tables are log 16. -/
def Obligations.FrameCompletionPublishesOneFrame : Prop :=
  ∀ (f : Frame) (s : State), s.power = .on → ∃ t, exec (.frameCompletion f) s = .next t
    ∧ (∀ c, t.mp.chan c
        = rangeStep c.k (sampleOf f c)
            ((latchTables s).convert c (sampleOf f c)) (fittedStep (fitted s.st.settings c) (s.mp.chan c)))
    ∧ t.mp.pub.flowCtl = flowCtlOf t.mp.flowA.value t.mp.flowB.value
    ∧ t.mp.pub.flowLim = flowLimOf t.mp.flowA.value t.mp.flowB.value
    ∧ t.mp.dhwRing = s.mp.dhwRing.drop 1 ++ [s.mp.dhwCount] ∧ t.mp.dhwCount = 0
    ∧ t.mp.tachoRing = s.mp.tachoRing.drop 1 ++ [s.mp.tachoCount] ∧ t.mp.tachoCount = 0
    ∧ (setKpl s.st.settings ≠ 0 → t.mp.pub.q = min 250 (t.mp.dhwRing.sum * 600 / setKpl s.st.settings))
    ∧ t.mp.pub.fanSpeed = min 9000 (t.mp.tachoRing.sum * 30)
    ∧ t.mp.pub.flamePresent = s.mp.flame.present ∧ t.mp.flame = s.mp.flame
    ∧ (∀ x, t.mp.outdoor.value = some x → t.mp.pub.outdoor = x ∧ t.mp.pub.outdoorSource = .wired)
    ∧ (t.mp.outdoor.value = none →
        (∀ x r, s.pe.outdoor = some x → s.pe.outdoorAt = some r → s.time - r ≤ 600 →
          t.mp.pub.outdoor = x ∧ t.mp.pub.outdoorSource = .node)
        ∧ ((s.pe.outdoor = none ∨ s.pe.outdoorAt = none ∨ ∃ r, s.pe.outdoorAt = some r ∧ 600 < s.time - r) →
          t.mp.pub.outdoor = setToutFix s.st.settings ∧ t.mp.pub.outdoorSource = .fixed))
    ∧ t.clock.now = max s.clock.now (s.clock.frameAt + Config.frame) ∧ t.lines.limitOpen = f.limitOpen

/-- The range check of a fitted channel through a frame completion, cell by cell of R4's table. VALID: an in-range sample ends an out-of-range run and goes through the filter; the first two out-of-range samples keep the filtered value; the third makes the channel INVALID with its fault marker set and its value ABSENT. INVALID and unproven: an in-range sample makes it VALID at once, loading the filter; an out-of-range one counts, the third setting the fault marker. INVALID and proven: the third in-range sample in a row makes it VALID, clearing the marker and loading the filter; an out-of-range one ends the in-range run and counts. Model's choices: latched tables are log 16. -/
def Obligations.RangeCheckFollowsTheTable : Prop :=
  ∀ (f : Frame) (s : State) (c : Chan), s.power = .on → fitted s.st.settings c = true →
    let r := s.mp.chan c
    let x := (latchTables s).convert c (sampleOf f c)
    let out := outOfRange (sampleOf f c)
    ∃ t, exec (.frameCompletion f) s = .next t ∧ (t.mp.chan c).raw = sampleOf f c
      ∧ (r.validity = .valid → out = false →
          (t.mp.chan c).validity = .valid ∧ (t.mp.chan c).outRun = 0
            ∧ ∀ y, r.filtered = some y → (t.mp.chan c).value = some (y + roundHalfAway (x - y) c.k))
      ∧ (r.validity = .valid → out = true → r.outRun < 2 →
          (t.mp.chan c).validity = .valid ∧ (t.mp.chan c).value = r.value ∧ (t.mp.chan c).outRun = r.outRun + 1)
      ∧ (r.validity = .valid → out = true → 2 ≤ r.outRun →
          (t.mp.chan c).validity = .invalid ∧ (t.mp.chan c).fault = true ∧ (t.mp.chan c).value = none
            ∧ (t.mp.chan c).inRun = 0)
      ∧ (r.validity = .invalid → r.unproven = true → out = false →
          (t.mp.chan c).validity = .valid ∧ (t.mp.chan c).unproven = false ∧ (t.mp.chan c).fault = false
            ∧ (t.mp.chan c).inRun = 0 ∧ (t.mp.chan c).outRun = 0 ∧ (t.mp.chan c).value = some x)
      ∧ (r.validity = .invalid → r.unproven = true → out = true →
          (t.mp.chan c).validity = .invalid ∧ (t.mp.chan c).unproven = true ∧ (t.mp.chan c).value = none
            ∧ (t.mp.chan c).outRun = min 3 (r.outRun + 1)
            ∧ (t.mp.chan c).fault = (r.fault || decide (2 ≤ r.outRun)))
      ∧ (r.validity = .invalid → r.unproven = false → out = false →
          (2 ≤ r.inRun → (t.mp.chan c).validity = .valid ∧ (t.mp.chan c).fault = false
            ∧ (t.mp.chan c).outRun = 0 ∧ (t.mp.chan c).value = some x)
          ∧ (r.inRun < 2 → (t.mp.chan c).validity = .invalid ∧ (t.mp.chan c).inRun = r.inRun + 1
            ∧ (t.mp.chan c).outRun = 0 ∧ (t.mp.chan c).fault = r.fault ∧ (t.mp.chan c).value = none))
      ∧ (r.validity = .invalid → r.unproven = false → out = true →
          (t.mp.chan c).validity = .invalid ∧ (t.mp.chan c).inRun = 0 ∧ (t.mp.chan c).value = none
            ∧ (t.mp.chan c).outRun = min 3 (r.outRun + 1)
            ∧ (t.mp.chan c).fault = (r.fault || decide (2 ≤ r.outRun)))

/-- The threshold markers through a frame completion, on the values that the frame publishes (R19, R44, R45). A clear marker of LOW_PRESSURE, HIGH_PRESSURE, FLUE_HIGH or OVERHEAT is set exactly where its raise condition holds, and a set one stands until its clear condition holds; the limit marker follows LIMIT_IN. LOW_PRESSURE set is on record and stops the pump, and cleared leaves no record below LOCKOUT; FLUE_HIGH set is on record and has closed the gas; LIMIT_STAT or OVERHEAT set has locked the burner out. Model's choices: the order of the blocks in a frame is log 8; latched tables are log 16. -/
def Obligations.FrameThresholdsSetAndClearTheirMarkers : Prop :=
  ∀ (f : Frame) (s : State), s.power = .on → SafeBurner s → FaultListSound s →
    ∃ t, exec (.frameCompletion f) s = .next t
      ∧ (s.mp.lowP = false → t.mp.lowP = Value.lt t.mp.pressure.value t.lowPressure)
      ∧ (s.mp.lowP = true → t.mp.lowP = !Value.ge t.mp.pressure.value t.recoverPressure)
      ∧ (s.mp.highP = false → t.mp.highP = Value.gt t.mp.pressure.value 280)
      ∧ (s.mp.highP = true → t.mp.highP = !Value.lt t.mp.pressure.value 260)
      ∧ (s.mp.flueHigh = false → t.mp.flueHigh = Value.ge t.mp.flue.value t.flueLimit)
      ∧ (s.mp.flueHigh = true → t.mp.flueHigh = !Value.lt t.mp.flue.value ((t.flueLimit : Int) - 100))
      ∧ (s.bs.overheatMark = false → t.bs.overheatMark = Value.ge t.mp.pub.flowLim s.tLimit)
      ∧ (s.bs.overheatMark = true → t.bs.overheatMark = !Value.lt t.mp.pub.flowLim ((s.tLimit : Int) - 150))
      ∧ t.bs.limitMark = f.limitOpen
      ∧ (s.mp.lowP = false → t.mp.lowP = true →
          (∃ r ∈ t.fm.active, r.source = .lowPressure ∧ r.detail = noDetail) ∧ t.pumpEn = false)
      ∧ (s.mp.lowP = true → t.mp.lowP = false → ∀ r ∈ t.fm.active, r.source = .lowPressure → r.cls = .lockout)
      ∧ (s.mp.highP = false → t.mp.highP = true → ∃ r ∈ t.fm.active, r.source = .highPressure)
      ∧ (s.mp.flueHigh = false → t.mp.flueHigh = true →
          (∃ r ∈ t.fm.active, r.source = .flueHigh ∧ r.detail = noDetail) ∧ t.bs.gas1 = false ∧ t.bs.gas2 = false)
      ∧ (s.bs.limitMark = false → f.limitOpen = true → LockedOut t ∧ LockoutRecord t .limitStat noDetail)
      ∧ (s.bs.overheatMark = false → t.bs.overheatMark = true → LockedOut t ∧ LockoutRecord t .overheat noDetail)

/-- The characteristic of a table whose raw values rise: held at the first value below the first point and at the last value from the last point on, and between two neighbouring points linear with the quotient truncated toward zero (R7). -/
def Obligations.CharacteristicHoldsItsEndsAndInterpolates : Prop :=
  ∀ (pts : List (Int × Int)) (x : Int), pts.Pairwise (fun p q => p.1 < q.1) →
    (∀ p, pts.head? = some p → x < p.1 → interpolate pts x = p.2)
    ∧ (∀ p, pts.getLast? = some p → p.1 ≤ x → interpolate pts x = p.2)
    ∧ ∀ i p q, pts[i]? = some p → pts[i + 1]? = some q → p.1 ≤ x → x < q.1 →
        interpolate pts x = p.2 + Int.tdiv ((x - p.1) * (q.2 - p.2)) (q.1 - p.1)

/-- FLAME_SAMPLE: the current is the raw value over 16, and the state changes with the third sample of a run and with no other (R12, R13). INPUT_PULSE: the pulse is counted into its frame count, which saturates at 255, and nothing else changes (R14, R15). Model's choices: times are those of the model clock (log 1); what the end of an event may add, AtEnd or the departure from STANDBY, is log 9. -/
def Obligations.FlameSamplesAndPulsesAreTaken : Prop :=
  ∀ (raw : Sample) (s : State), s.power = .on →
    (∃ t, exec (.flameSample raw) s = .next t
      ∧ t.mp.flame.current = raw.toNat / 16
      ∧ (s.mp.flame.present = false → s.flameOn ≤ raw.toNat / 16 →
          (2 ≤ s.mp.flame.onRun → t.mp.flame.present = true ∧ t.mp.flame.onRun = 0 ∧ t.mp.flame.offRun = 0)
          ∧ (s.mp.flame.onRun < 2 → t.mp.flame.present = false ∧ t.mp.flame.onRun = s.mp.flame.onRun + 1))
      ∧ (s.mp.flame.present = false → raw.toNat / 16 < s.flameOn →
          t.mp.flame.present = false ∧ t.mp.flame.onRun = 0 ∧ t.mp.flame.offRun = 0)
      ∧ (s.mp.flame.present = true → raw.toNat / 16 < s.flameOff →
          (2 ≤ s.mp.flame.offRun → t.mp.flame.present = false ∧ t.mp.flame.onRun = 0 ∧ t.mp.flame.offRun = 0)
          ∧ (s.mp.flame.offRun < 2 → t.mp.flame.present = true ∧ t.mp.flame.offRun = s.mp.flame.offRun + 1))
      ∧ (s.mp.flame.present = true → s.flameOff ≤ raw.toNat / 16 →
          t.mp.flame.present = true ∧ t.mp.flame.onRun = 0 ∧ t.mp.flame.offRun = 0)
      ∧ t.mp = { s.mp with flame := t.mp.flame }
      ∧ t.clock.now = max s.clock.now (s.clock.sampleAt + Config.sample))
    ∧ (s.mayStart = false → ∃ t, exec (.inputPulse .dhwPulse) s = .next t
        ∧ AtEnd { s with mp := { s.mp with dhwCount := min 255 (s.mp.dhwCount + 1) } } t)
    ∧ (s.mayStart = false → ∃ t, exec (.inputPulse .fanTacho) s = .next t
        ∧ AtEnd { s with mp := { s.mp with tachoCount := min 255 (s.mp.tachoCount + 1) } } t)

/-- FLAME_SAMPLE, the third at or above the flame-on threshold with the gas open in IGNITION: the flame is established. The spark goes off, the attempt count returns to 0, tSAFE and tSPARK stop, one burner start is counted, and the burner is in STABILISE, or with tSTAB of 0 already in RUN, with the gas still open (R32, R35). -/
def Obligations.FlameOnEstablishesTheBurn : Prop :=
  ∀ (raw : Sample) (s : State), s.power = .on → SafeBurner s → s.bs.state = .ignition → s.bs.tPrespk = none →
    s.mp.flame.present = false → 2 ≤ s.mp.flame.onRun → s.flameOn ≤ raw.toNat / 16 →
    ∃ t, exec (.flameSample raw) s = .next t
      ∧ t.bs.state = (if sbStab s.st.safety = 0 then .run else .stabilise)
      ∧ t.bs.gas1 = true ∧ t.bs.gas2 = true ∧ t.bs.spark = false ∧ t.bs.attempts = 0
      ∧ t.bs.tSafe = none ∧ t.bs.tSpark = none
      ∧ t.st.counters = countUp 2 s.st.counters

/-- FLAME_SAMPLE, the third below the flame-off threshold in STABILISE or RUN: the gas closes with it. Below NREC the recycle count rises, one recycle is counted, and the burner goes to POST_PURGE with the retry mark; at NREC FLAME_LOSS is raised and the burner locks out (R37). -/
def Obligations.FlameLossClosesTheGas : Prop :=
  ∀ (raw : Sample) (s : State), s.power = .on → SafeBurner s → (s.bs.state = .stabilise ∨ s.bs.state = .run) →
    s.mp.flame.present = true → 2 ≤ s.mp.flame.offRun → raw.toNat / 16 < s.flameOff → LocksOut s .flameLoss →
    ∃ t, exec (.flameSample raw) s = .next t
      ∧ t.bs.gas1 = false ∧ t.bs.gas2 = false
      ∧ (s.bs.recycles < sbNrec s.st.safety →
          t.bs.state = .postPurge ∧ t.bs.retry = true ∧ t.bs.recycles = s.bs.recycles + 1
            ∧ t.st.counters = countUp 4 s.st.counters)
      ∧ (sbNrec s.st.safety ≤ s.bs.recycles → LockedOut t ∧ LockoutRecord t .flameLoss noDetail)

/-! ### Burner -/

/-- FLOW_DISAGREE_TIMEOUT and CIRCULATION_TIMEOUT, the frame timer running. At 100 frames FLOW_DISAGREE is raised with no detail, and as it belongs to the safety set the burner locks out (R11, R105, R118). At 200 frames, the burner firing and the flow above the return by more than 400, the circulation timer returns to 0, NO_CIRCULATION is raised with its blocking timer of 120 s, and the stop demand ends the burn: both gas drives are off (R20, R23, R106). Model's choices: the command asserts that the frames or seconds still missing have passed (log 3). -/
def Obligations.FlowTimersRaiseTheirSources : Prop :=
  ∀ s : State, s.power = .on → SafeBurner s →
    (0 < s.mp.disagree → s.mp.disagree < 100 → LocksOut s .flowDisagree →
      ∃ t, exec .flowDisagreeTimeout s = .next t
        ∧ t.mp = { s.mp with disagree := 100 } ∧ LockedOut t ∧ LockoutRecord t .flowDisagree noDetail)
    ∧ (s.noCirculation = true → 0 < s.mp.circ → s.mp.circ < 200 →
      ∃ t, exec .circulationTimeout s = .next t
        ∧ t.mp = { s.mp with circ := 0 } ∧ t.bs.gas1 = false ∧ t.bs.gas2 = false
        ∧ (∃ r ∈ t.fm.active, r.source = .noCirculation ∧ r.detail = noDetail)
        ∧ t.fm.blockCirculation = some (s.time + 120))

/-- The fan at fault. TPCHK_EXPIRY with the fan at 100 rpm or above and PRE_PURGE_LIMIT_EXPIRY: the burner goes to STANDBY with the gas off and the fan target 0, and FAN_NOT_STOPPED or FAN_NO_SPEED is raised with its blocking timer of 60 s (R28, R30, R106). FAN_DEVIATION_TIMEOUT: safe-off, the burner sent to POST_PURGE by a fan at 100 rpm or above and to STANDBY by a slower one, FAN_DEVIATION raised with its blocking timer of 60 s, the frame timer back at 0 (R47). Where the source's class is not WARNING, its record keeps the burner from starting, or has locked it out. Model's choices: the command asserts that the frames or seconds still missing have passed (log 3). -/
def Obligations.FanFaultsEndTheAttempt : Prop :=
  ∀ (s : State) (d : Nat), s.power = .on → SafeBurner s →
    (s.bs.tPchk = some d → 100 ≤ s.mp.pub.fanSpeed → s.newClass .fanNotStopped ≠ .warning →
      (∀ r, s.record .fanNotStopped = some r → r.cls ≠ .warning) →
      ∃ t, exec .tpchkExpiry s = .next t
        ∧ (t.bs.state = .standby ∨ t.bs.state = .lockout) ∧ t.bs.tPchk = none ∧ t.bs.gas1 = false ∧ t.bs.gas2 = false
        ∧ t.bs.fanTarget = 0 ∧ (∃ r ∈ t.fm.active, r.source = .fanNotStopped)
        ∧ t.fm.blockNotStopped = some (s.time + 60))
    ∧ (s.bs.purgeLimit = some d → s.newClass .fanNoSpeed ≠ .warning →
      (∀ r, s.record .fanNoSpeed = some r → r.cls ≠ .warning) →
      ∃ t, exec .prePurgeLimitExpiry s = .next t
        ∧ (t.bs.state = .standby ∨ t.bs.state = .lockout) ∧ t.bs.purgeLimit = none ∧ t.bs.purge = none
        ∧ t.bs.gas1 = false ∧ t.bs.gas2 = false ∧ t.bs.fanTarget = 0
        ∧ (∃ r ∈ t.fm.active, r.source = .fanNoSpeed) ∧ t.fm.blockNoSpeed = some (s.time + 60))
    ∧ ((s.bs.state = .stabilise ∨ s.bs.state = .run) → 0 < s.bs.fanDev → s.bs.fanDev < 100 →
      s.newClass .fanDeviation ≠ .warning → (∀ r, s.record .fanDeviation = some r → r.cls ≠ .warning) →
      ∃ t, exec .fanDeviationTimeout s = .next t
        ∧ t.bs.gas1 = false ∧ t.bs.gas2 = false ∧ t.bs.fanDev = 0
        ∧ (100 ≤ s.mp.pub.fanSpeed → t.bs.state = .postPurge ∨ t.bs.state = .lockout)
        ∧ (s.mp.pub.fanSpeed < 100 → (t.bs.state = .standby ∨ t.bs.state = .lockout) ∧ t.bs.fanTarget = 0)
        ∧ (∃ r ∈ t.fm.active, r.source = .fanDeviation) ∧ t.fm.blockDeviation = some (s.time + 60))

/-- Timers whose expiry does one thing and nothing else. TPCHK_EXPIRY with the fan below 100 rpm, after which the burner waits on in PRE_CHECK (R28); TSPARK_EXPIRY, at which the spark goes off while tSAFE runs on (R32); LOCKOUT_PURGE_EXPIRY, at which the fan target becomes 0 and the fan duty with it (R46, R48). PUMP_OVERRUN_EXPIRY ends the CH pump overrun, PUMP_KICK_START begins a kick of 10 s once the idle timer stands at 24 h and no LOW_PRESSURE record holds it, and PUMP_KICK_END ends it with the idle timer back at 0 (R76, R77). Model's choices: an expiry asserts the end of the running timer (log 2); what the end of an event may add, AtEnd or the departure from STANDBY, is log 9; the kick at its moment is log 25. -/
def Obligations.QuietTimersDoOneThing : Prop :=
  ∀ (s : State) (d : Nat), s.power = .on →
    (s.bs.state = .preCheck → s.bs.tPchk = some d → s.mp.pub.fanSpeed < 100 → ∃ t, exec .tpchkExpiry s = .next t
      ∧ AtEnd { s with
          bs := { s.bs with tPchk := none }, clock := { s.clock with now := max s.clock.now d } } t)
    ∧ (s.bs.state = .ignition → s.bs.tSpark = some d → ∃ t, exec .tsparkExpiry s = .next t
      ∧ AtEnd { s with
          bs := { s.bs with spark := false, tSpark := none }, clock := { s.clock with now := max s.clock.now d } } t)
    ∧ (s.bs.state = .lockout → s.bs.lockPurge = some d → ∃ t, exec .lockoutPurgeExpiry s = .next t
      ∧ AtEnd { s with
          bs := { s.bs with lockPurge := none, fanTarget := 0, fanDuty := 0 }
          clock := { s.clock with now := max s.clock.now d } } t)
    ∧ (s.mayStart = false →
      (s.dm.pumpOverrun = some d → ∃ t, exec .pumpOverrunExpiry s = .next t ∧ t.dm.pumpOverrun = none
        ∧ AtEnd { s with
            dm := { s.dm with pumpOverrun := none }, clock := { s.clock with now := max s.clock.now d } } t)
      ∧ (86400 ≤ s.dm.idle → s.dm.kick = none → s.record .lowPressure = none → ∃ t, exec .pumpKickStart s = .next t
        ∧ AtEnd { s with dm := { s.dm with kick := some (s.clock.now + 10 * Config.second) } } t ∧ t.pumpEn = true)
      ∧ ((s.record .lowPressure).isSome = true → ∃ t, exec .pumpKickStart s = .next t ∧ AtEnd s t ∧ t.pumpEn = false)
      ∧ (s.dm.kick = some d → ∃ t, exec .pumpKickEnd s = .next t
        ∧ AtEnd { s with
            dm := { s.dm with kick := none, idle := 0 }, clock := { s.clock with now := max s.clock.now d } } t
        ∧ t.dm.kick = none ∧ t.dm.idle = 0))

/-- PURGE_COMPLETE: with the purge proven the burner goes to IGNITION in its pre-spark wait: the spark is on, both gas drives are off, the fan target is map(p_ign), tPRESPK runs with its length from the live block, and no purge timer is left running (R29, R31). TPRESPK_EXPIRY. Without a flame both gas drives are energised, tSAFE and tSPARK start with their lengths from the live block, the false-flame timer stops, and DM's burn circuit becomes the selected one (R31, R72); the state stays IGNITION and the attempt count, the fault lists and MU are left alone. With a flame present the gas stays closed and FALSE_FLAME locks the burner out (R31, R41). Model's choices: an expiry asserts the end of the running timer (log 2); the command asserts that the frames or seconds still missing have passed (log 3). -/
def Obligations.PurgeLeadsToIgnitionAndTheGasOpens : Prop :=
  ∀ (s : State) (d : Nat), s.power = .on →
    (∀ p : Purge, s.bs.state = .prePurge → s.bs.purge = some p → ∃ t, exec .purgeComplete s = .next t
      ∧ t.bs.state = .ignition ∧ t.bs.spark = true ∧ t.bs.gas1 = false ∧ t.bs.gas2 = false
      ∧ t.bs.fanTarget = s.ignitionSpeed ∧ t.bs.purge = none ∧ t.bs.purgeLimit = none
      ∧ t.clock.now = max s.clock.now (s.clock.frameAt + (p.length - p.done) * Config.frame)
      ∧ t.bs.tPrespk = some (t.clock.now + sbPrespk s.st.safety * Config.tenth))
    ∧ (SafeBurner s → s.bs.tPrespk = some d → s.mp.flame.present = false → ∃ t, exec .tprespkExpiry s = .next t
      ∧ t.bs.state = .ignition ∧ t.bs.gas1 = true ∧ t.bs.gas2 = true ∧ t.bs.spark = s.bs.spark
      ∧ t.bs.tPrespk = none ∧ t.bs.falseFlame = none ∧ t.bs.attempts = s.bs.attempts
      ∧ t.bs.tSafe = some (max s.clock.now d + sbSafe s.st.safety * Config.tenth)
      ∧ t.bs.tSpark = some (max s.clock.now d + sbSpark s.st.safety * Config.tenth)
      ∧ t.dm.burn = (if s.dm.circuit = .none then s.dm.burn else s.dm.circuit)
      ∧ t.fm = s.fm ∧ t.mu = s.mu ∧ t.mp = s.mp)
    ∧ (SafeBurner s → s.bs.tPrespk = some d → s.mp.flame.present = true → LocksOut s .falseFlame → ∃ t, exec .tprespkExpiry s = .next t
      ∧ LockedOut t ∧ LockoutRecord t .falseFlame noDetail ∧ t.bs.ffRaised = true)

/-- TSAFE_EXPIRY with no flame established (R33): safe-off, the attempt count up by 1 to NATT at most, one ignition failure counted. Below NATT the burner goes to POST_PURGE with the retry mark; at NATT IGNITION_FAILURE is raised with no detail, the burner leaves the gas for POST_PURGE without a retry mark, and the declaration that follows has taken it to LOCKOUT. With NATT of 1 the first failure raises. -/
def Obligations.SafetyTimeEndsTheAttempt : Prop :=
  ∀ (s : State) (d : Nat), s.power = .on → SafeBurner s → s.bs.tSafe = some d → LocksOut s .ignitionFailure →
    ∃ t, exec .tsafeExpiry s = .next t
      ∧ t.bs.gas1 = false ∧ t.bs.gas2 = false ∧ t.bs.spark = false ∧ t.bs.tSafe = none ∧ t.bs.tSpark = none
      ∧ t.bs.attempts = min (sbNatt s.st.safety) (s.bs.attempts + 1)
      ∧ t.st.counters = countUp 3 s.st.counters
      ∧ (t.bs.attempts < sbNatt s.st.safety → t.bs.state = .postPurge ∧ t.bs.retry = true ∧ t.fm = s.fm)
      ∧ (t.bs.attempts = sbNatt s.st.safety →
          LockedOut t ∧ t.bs.retry = false ∧ LockoutRecord t .ignitionFailure noDetail)
      ∧ (sbNatt s.st.safety = 1 → LockoutRecord t .ignitionFailure noDetail)

/-- TSTAB_EXPIRY: the burner goes from STABILISE to RUN with the gas open, and MU delivers its entry output (R35, R93). With the cycling record INACTIVE the entry output is min(p_ign, ceiling), and with circuit CH the integrator is preset to (p_ign - P) × 100 within its range, with any other it keeps its value (R88). With the record in OFF_PHASE the integrator keeps its value (R88); with a pending on length below Pc an on phase starts, the pending lengths latched and the whole on length to run, and the entry output is m_min; with one of Pc the record becomes INACTIVE and the entry output is min(p_ign, ceiling) (R93, R97). Model's choices: an expiry asserts the end of the running timer (log 2); 'below Pc' is read as a pending off length above 0 (log 13); u_out at a RUN entry and a stage value not formed are log 30. -/
def Obligations.StabiliseEndsInRun : Prop :=
  ∀ (s : State) (d : Nat), s.power = .on → SafeBurner s → s.bs.tStab = some d →
    ∃ t, exec .tstabExpiry s = .next t
      ∧ t.bs.state = .run ∧ t.bs.gas1 = true ∧ t.bs.gas2 = true ∧ t.bs.spark = false ∧ t.bs.tStab = none
      ∧ t.mu.fanOut = fanMap s.fanMapPoints t.mu.uPrev ∧ t.bs.fanTarget = t.mu.fanOut ∧ t.mu.uOut = t.mu.uPrev
      ∧ (s.mu.cyc.state = .inactive → t.mu.cyc = s.mu.cyc
          ∧ (∀ c, s.mu.ceiling = some c → t.mu.uPrev = min s.pIgn c)
          ∧ (s.dm.circuit ≠ .ch → t.mu.iAcc = s.mu.iAcc)
          ∧ ∀ flow ts, s.dm.circuit = .ch → s.mp.pub.flowCtl = some flow → s.mu.ts = some ts →
              let p := Int.tdiv (setKp s.latch.settings * clamp (-500) 500 (ts - flow)) 10
              t.mu.iAcc = (clamp 0 100000 (((s.pIgn : Int) - p) * 100)).toNat)
      ∧ (s.mu.cyc.state = .offPhase → t.mu.iAcc = s.mu.iAcc
          ∧ (0 < s.mu.cyc.pendOff → t.mu.uPrev = s.mMin
              ∧ t.mu.cyc = { s.mu.cyc with
                  state := .onPhase, onLen := s.mu.cyc.pendOn, offLen := s.mu.cyc.pendOff, remain := 1000 * s.mu.cyc.pendOn })
          ∧ (s.mu.cyc.pendOff = 0 → t.mu.cyc = { s.mu.cyc with state := .inactive }
              ∧ ∀ c, s.mu.ceiling = some c → t.mu.uPrev = min s.pIgn c))
      ∧ t.fm = s.fm ∧ t.mp = s.mp

/-- TPOST_EXPIRY. With the request active and no reason applying, the burner goes to PRE_CHECK: the retry mark is consumed and tPCHK starts; otherwise it goes to STANDBY keeping the retry mark. Either way the gas is off and the fan target 0 (R26, R39). Model's choices: an expiry asserts the end of the running timer (log 2). -/
def Obligations.PostPurgeEndsInPreCheckOrStandby : Prop :=
  ∀ (s : State) (d : Nat), s.power = .on → s.bs.tPost = some d → RelaysOpen s →
    ∃ t, exec .tpostExpiry s = .next t
      ∧ t.bs.gas1 = false ∧ t.bs.gas2 = false ∧ t.bs.fanTarget = 0 ∧ t.bs.tPost = none
      ∧ (s.dm.active = true → s.inhibited = false → s.bs.state = .postPurge →
          t.bs.state = .preCheck ∧ t.bs.retry = false ∧ t.bs.tPchk = some (max s.clock.now d + Config.tPchk))
      ∧ ((s.dm.active = false ∨ s.inhibited = true) → s.bs.state = .postPurge →
          t.bs.state = .standby ∧ t.bs.retry = s.bs.retry)

/-- Supervision of flame and relays. TFF_EXPIRY, and TFFPOST_EXPIRY with a flame present: FALSE_FLAME is raised with no detail and its raised mark set (R41, R42). TFFPOST_EXPIRY without a flame only ends the window (R42). MISMATCH_TIMER_EXPIRY: GAS_RELAY is raised with the relay as detail, 0 for GAS1 and 1 for GAS2 (R43). RELAY_READBACK_CHANGE, for either relay: a readback that agrees with its command stops the mismatch timer and clears the mark; one that begins to disagree starts the timer of 200 ms; a disagreement already found or timed changes nothing further (R43). An entry to PRE_CHECK, shown at TPOST_EXPIRY, with a readback energised whose mark is clear: GAS_RELAY is raised without a wait (R39, R43). Model's choices: times are those of the model clock (log 1); an expiry asserts the end of the running timer (log 2); what the end of an event may add, AtEnd or the departure from STANDBY, is log 9; a change in PRE_CHECK runs the timer of 200 ms, and two relays are raised GAS1 first (log 27); the raising at the end of the window with the mark set is log 40. -/
def Obligations.FalseFlameAndRelaysAreSupervised : Prop :=
  (∀ (s : State) (d : Nat), s.power = .on → SafeBurner s →
    (s.bs.falseFlame = some d → LocksOut s .falseFlame → ∃ t, exec .tffExpiry s = .next t
      ∧ LockedOut t ∧ LockoutRecord t .falseFlame noDetail ∧ t.bs.ffRaised = true)
    ∧ (s.bs.postGas = some d → s.mp.flame.present = true → LocksOut s .falseFlame →
      ∃ t, exec .tffpostExpiry s = .next t
        ∧ LockedOut t ∧ LockoutRecord t .falseFlame noDetail ∧ t.bs.ffRaised = true)
    ∧ (s.bs.postGas = some d → s.mp.flame.present = false → s.mayStart = false → ∃ t, exec .tffpostExpiry s = .next t
      ∧ AtEnd { s with
          bs := { s.bs with postGas := none }, clock := { s.clock with now := max s.clock.now d } } t)
    ∧ (∀ r : Relay, s.bs.mismatch r = some d → LocksOut s .gasRelay → ∃ t, exec (.mismatchTimerExpiry r) s = .next t
      ∧ LockedOut t ∧ LockoutRecord t .gasRelay (if r = .gas1 then 0 else 1))
    ∧ (s.bs.tPost = some d → s.bs.state = .postPurge → s.dm.active = true → s.inhibited = false → LocksOut s .gasRelay →
      ∀ one two : Bool, one = (s.lines.relay1Fb && !s.bs.mark1) → two = (s.lines.relay2Fb && !s.bs.mark2) →
        (one = true ∨ two = true) → ∃ t, exec .tpostExpiry s = .next t
          ∧ LockedOut t ∧ LockoutRecord t .gasRelay (if two then 1 else 0)
          ∧ (one = true → t.bs.mark1 = true) ∧ (two = true → t.bs.mark2 = true)))
 ∧ ∀ (s : State) (level : Bool) (dt : Nat), s.power = .on → s.mayStart = false →
    (∃ t, exec (.relayReadbackChange .gas1 level dt) s = .next t
      ∧ (level = s.bs.gas1 → AtEnd { s with
          clock := { s.clock with now := s.clock.now + dt }, lines := { s.lines with relay1Fb := level }
          bs := { s.bs with mismatch1 := none, mark1 := false } } t)
      ∧ (level ≠ s.bs.gas1 → s.bs.mark1 = false → s.bs.mismatch1 = none → AtEnd { s with
          clock := { s.clock with now := s.clock.now + dt }, lines := { s.lines with relay1Fb := level }
          bs := { s.bs with mismatch1 := some (s.clock.now + dt + Config.tMismatch), mark1 := false } } t)
      ∧ (level ≠ s.bs.gas1 → (s.bs.mark1 = true ∨ s.bs.mismatch1 ≠ none) → AtEnd { s with
          clock := { s.clock with now := s.clock.now + dt }, lines := { s.lines with relay1Fb := level } } t))
    ∧ ∃ t, exec (.relayReadbackChange .gas2 level dt) s = .next t
      ∧ (level = s.bs.gas2 → AtEnd { s with
          clock := { s.clock with now := s.clock.now + dt }, lines := { s.lines with relay2Fb := level }
          bs := { s.bs with mismatch2 := none, mark2 := false } } t)
      ∧ (level ≠ s.bs.gas2 → s.bs.mark2 = false → s.bs.mismatch2 = none → AtEnd { s with
          clock := { s.clock with now := s.clock.now + dt }, lines := { s.lines with relay2Fb := level }
          bs := { s.bs with mismatch2 := some (s.clock.now + dt + Config.tMismatch), mark2 := false } } t)
      ∧ (level ≠ s.bs.gas2 → (s.bs.mark2 = true ∨ s.bs.mismatch2 ≠ none) → AtEnd { s with
          clock := { s.clock with now := s.clock.now + dt }, lines := { s.lines with relay2Fb := level } } t)

/-! ### Zones, hot water, pump -/

/-- ZONE_FALLBACK_TIMEOUT: a zone whose room unit has been silent for 600 s of power-on time enters fallback: the mark is set, the room temperature is ABSENT, the call state is the zone's fallback, and the setpoint is kept (R56). VALVE_TRAVEL_EXPIRY. Of a zone without an end switch the travel is complete, so a CLOSING valve of a zone that does not call is CLOSED, and an OPENING valve is OPEN; with the zone calling in WINTER and no draw the zone contributes, and the selected circuit is CH (R63, R69); from FROST with the burner in RUN its Tz is formed at once, with the curve and the offset of the last frame (R57, R83, R103). Of a zone with an end switch the travel has overrun: the overrun mark is set and ZONE_VALVE is raised with the zone as detail, the valve state standing (R62, R65). Model's choices: an expiry asserts the end of the running timer (log 2); the command asserts that the frames or seconds still missing have passed (log 3); latched tables are log 16. -/
def Obligations.ZoneTimersEnd : Prop :=
  ∀ (s : State) (z : Nat), s.power = .on → z < 8 → s.dm.zones.length = 8 →
    (hasRoomUnit s.st.zones s.st.nodes z = true → (s.zone z).fallback = false →
      600 ≤ s.time - (s.zone z).lastDemand → ∃ t, exec (.zoneFallbackTimeout z) s = .next t
        ∧ (t.zone z).fallback = true ∧ (t.zone z).temp = none
        ∧ (t.zone z).call = (if zoneFallbackCall s.st.zones z then .call else .noCall)
        ∧ (t.zone z).setpoint = (s.zone z).setpoint ∧ (t.zone z).lastDemand = (s.zone z).lastDemand)
    ∧ ∀ d, (s.zone z).travel = some d →
    (zoneEndSwitch s.st.zones z = false → (s.zone z).valve = .opening → (s.zone z).desired = .opened →
      zoneEnabled s.st.zones z = true → (s.zone z).call = .call → setMode s.latch.settings = .winter →
      s.mp.firstFrame = true → s.dm.draw.state = .idle → ∃ t, exec (.valveTravelExpiry z) s = .next t
        ∧ (t.zone z).valve = .opened ∧ (t.zone z).travel = none ∧ (t.zone z).ack = false ∧ t.dm.circuit = .ch
        ∧ t.clock.now = max s.clock.now d
        ∧ (s.dm.circuit = .frost → s.bs.state = .run →
            t.mu.tz.getD z none = some (interpolate (curvePoints s.latch.curve) s.mp.pub.outdoor + zoneOffset s.latch.zones z
              + (if (s.zone z).fallback then 0
                else match (s.zone z).temp with
                  | some x => clamp (-150) 150 (Int.tdiv (setKr s.latch.settings * ((s.zone z).setpoint - x)) 10)
                  | none => 0))))
    ∧ (zoneEndSwitch s.st.zones z = false → (s.zone z).valve = .closing → (s.zone z).desired = .closed →
      (s.zone z).call ≠ .call → s.dm.frost = false → ∃ t, exec (.valveTravelExpiry z) s = .next t
        ∧ (t.zone z).valve = .closed ∧ (t.zone z).travel = none ∧ (t.zone z).ack = false)
    ∧ (zoneEndSwitch s.st.zones z = true → ∃ t, exec (.valveTravelExpiry z) s = .next t
        ∧ (t.zone z).overrun = true ∧ (t.zone z).travel = none ∧ (t.zone z).valve = (s.zone z).valve
        ∧ ∃ r ∈ t.fm.active, r.source = .zoneValve ∧ r.detail = z)

/-- DM at FRAME_COMPLETION, with the settings of the frame and the flow q it publishes. The draw record follows the table of R67, the frost mark that of R70; a zone whose room unit has been silent for 600 s takes its fallback's call state (R56); the circuit is the first of DHW, CH, FROST and NONE whose condition holds (R69); and the diverter stands at, or drives towards, the end that the draw wants (R68). Model's choices: times are those of the model clock (log 1); the order of the blocks in a frame is log 8; latched tables are log 16. -/
def Obligations.DrawFrostAndCircuitFollowTheFrame : Prop :=
  ∀ (f : Frame) (s : State), s.power = .on →
    let set := s.st.settings
    let on := setDhwEnabled set = true ∧ setMode set ≠ .off
    let len := setDhwOverrun set
    let d := s.dm.draw
    ∃ t, exec (.frameCompletion f) s = .next t
      ∧ (d.state = .idle → on → 20 ≤ t.mp.pub.q →
          (2 ≤ d.startRun → t.dm.draw = { d with state := .active, startRun := 0, endRun := 0 })
          ∧ (d.startRun < 2 → t.dm.draw = { d with startRun := d.startRun + 1 }))
      ∧ (d.state = .idle → (¬on ∨ t.mp.pub.q < 20) → t.dm.draw = { d with startRun := 0 })
      ∧ (d.state = .active → ¬on → t.dm.draw = { d with state := .idle, startRun := 0, endRun := 0 })
      ∧ (d.state = .active → on → t.mp.pub.q < 15 →
          (4 ≤ d.endRun → t.dm.draw.endRun = 0
            ∧ (len = 0 → t.dm.draw.state = .idle ∧ t.dm.draw.overrun = none)
            ∧ (len ≠ 0 → t.dm.draw.state = .overrun
                ∧ t.dm.draw.overrun = some (t.clock.now + len * Config.second)))
          ∧ (d.endRun < 4 → t.dm.draw = { d with endRun := d.endRun + 1 }))
      ∧ (d.state = .active → on → 15 ≤ t.mp.pub.q → t.dm.draw = { d with endRun := 0 })
      ∧ (d.state = .overrun → ¬on → t.dm.draw = { state := .idle, startRun := 0, endRun := 0, overrun := none })
      ∧ (d.state = .overrun → on → 20 ≤ t.mp.pub.q →
          (2 ≤ d.startRun → t.dm.draw = { state := .active, startRun := 0, endRun := 0, overrun := none })
          ∧ (d.startRun < 2 → t.dm.draw = { d with startRun := d.startRun + 1 }))
      ∧ (d.state = .overrun → on → t.mp.pub.q < 20 → t.dm.draw = { d with startRun := 0 })
      ∧ (s.dm.frost = false → (t.dm.frost = true ↔ setFrostEnabled set = true
          ∧ (Value.lt t.mp.pub.flowCtl 70 = true ∨ Value.lt t.mp.ret.value 70 = true)))
      ∧ (s.dm.frost = true → (t.dm.frost = false ↔ Value.ge t.mp.pub.flowCtl 150 = true ∨ setFrostEnabled set = false))
      ∧ (∀ z < 8, s.dm.zones.length = 8 → hasRoomUnit s.st.zones s.st.nodes z = true → (s.zone z).fallback = false →
          600 ≤ s.time - (s.zone z).lastDemand →
          (t.zone z).fallback = true ∧ (t.zone z).temp = none
            ∧ (t.zone z).call = (if zoneFallbackCall s.st.zones z then .call else .noCall))
      ∧ (let heats := setMode set = .winter ∧ t.dm.draw.state ≠ .overrun
            ∧ ∃ z < 8, zoneEnabled s.st.zones z = true ∧ (t.zone z).call = .call ∧ (t.zone z).valve = .opened
        (t.dm.draw.state = .active → t.dm.circuit = .dhw)
          ∧ (t.dm.draw.state ≠ .active → heats → t.dm.circuit = .ch)
          ∧ (t.dm.draw.state ≠ .active → ¬heats → t.dm.circuit = if t.dm.frost then .frost else .none))
      ∧ (t.dm.draw.state = .idle → t.dm.diverter.state = .toCh ∨ t.dm.diverter.state = .atCh)
      ∧ (t.dm.draw.state ≠ .idle → t.dm.diverter.state = .toDhw ∨ t.dm.diverter.state = .atDhw)

/-- DHW_OVERRUN_EXPIRY: the draw is IDLE, and a diverter at DHW leaves for CH over the travel time of SETTINGS, driven by DIV_B (R67, R68). DIVERTER_END_REACHED: a diverter on its way to DHW stands at DHW at its travel time, one on its way to CH stands at CH at 0, and the drive ends (R68). Model's choices: an expiry asserts the end of the running timer (log 2); what the end of an event may add, AtEnd or the departure from STANDBY, is log 9. -/
def Obligations.DrawEndsAndTheDiverterTravels : Prop :=
  ∀ (s : State) (d : Nat), s.power = .on →
    (s.dm.draw.overrun = some d → ∃ t, exec .dhwOverrunExpiry s = .next t
      ∧ t.dm.draw.state = .idle ∧ t.dm.draw.overrun = none
      ∧ (s.dm.diverter.state = .atDhw →
          t.dm.diverter = { state := .toCh, pos := setTravel s.st.settings * Config.second
                            travel := setTravel s.st.settings * Config.second, since := max s.clock.now d }
            ∧ t.divB = true ∧ t.divA = false))
    ∧ (s.dm.diverter.state = .toDhw → s.mayStart = false → ∃ t, exec .diverterEndReached s = .next t
      ∧ AtEnd { s with
          dm := { s.dm with diverter := { s.dm.diverter with state := .atDhw, pos := s.dm.diverter.travel } }
          clock := { s.clock with
            now := max s.clock.now (s.dm.diverter.since + (s.dm.diverter.travel - s.dm.diverter.pos)) } } t
      ∧ t.divA = false ∧ t.divB = false)
    ∧ (s.dm.diverter.state = .toCh → s.mayStart = false → ∃ t, exec .diverterEndReached s = .next t
      ∧ AtEnd { s with
          dm := { s.dm with diverter := { s.dm.diverter with state := .atCh, pos := 0 } }
          clock := { s.clock with now := max s.clock.now (s.dm.diverter.since + s.dm.diverter.pos) } } t
      ∧ t.divA = false ∧ t.divB = false)

/-- ANTI_CYCLE_EXPIRY: the timer stops and ANTI_CYCLE leaves the start-inhibit set (R74); where that was the last reason that held an active request in STANDBY, the burner goes to PRE_CHECK in the same event, with tPCHK running, the fan target 0 and no retry mark (R26). Model's choices: an expiry asserts the end of the running timer (log 2). -/
def Obligations.AntiCycleEndsAndTheBurnerMayStart : Prop :=
  ∀ (s : State) (d : Nat), s.power = .on → s.dm.antiCycle = some d → s.mayStart = false → RelaysOpen s →
    ∃ t, exec .antiCycleExpiry s = .next t
      ∧ t.dm.antiCycle = none ∧ t.bs.inhibit = { s.bs.inhibit with antiCycle := false }
      ∧ t.clock.now = max s.clock.now d ∧ t.fm = s.fm ∧ t.mp = s.mp
      ∧ (s.bs.state = .standby → s.dm.active = true → s.bs.inhibit.blocking = false → s.bs.inhibit.commitHold = false →
          s.bs.inhibit.startUp = false →
          t.bs.state = .preCheck ∧ t.bs.tPchk = some (max s.clock.now d + Config.tPchk) ∧ t.bs.retry = false
            ∧ t.bs.fanTarget = 0)
      ∧ ((s.bs.state ≠ .standby ∨ s.dm.active = false ∨ s.bs.inhibit.blocking = true) →
          t.bs = { s.bs with inhibit := { s.bs.inhibit with antiCycle := false } })

/-! ### Modulation -/

/-- ON_PHASE_EXPIRY in a heating burn: the record is in OFF_PHASE with the latched off length to run, the OFF_PHASE mark withdraws the request, the burner post-purges with the gas off, and anti-cycle is not started (R73, R96). OFF_PHASE_EXPIRY: the OFF_PHASE mark is released and the record stays in OFF_PHASE with no time remaining; with no CH stop the request is active again, and a burner in STANDBY that nothing inhibits starts through PRE_CHECK (R26, R97). Model's choices: the command asserts that the frames or seconds still missing have passed (log 3). -/
def Obligations.CyclePhasesWithdrawAndReleaseTheRequest : Prop :=
  ∀ s : State, s.power = .on → s.dm.circuit = .ch →
    (s.mu.cyc.state = .onPhase → s.dm.active = true → s.bs.state = .run → ∃ t, exec .onPhaseExpiry s = .next t
      ∧ t.mu.cyc.state = .offPhase ∧ t.mu.cyc.remain = 1000 * s.mu.cyc.offLen ∧ t.dm.offPhase = true
      ∧ t.dm.active = false ∧ t.bs.state = .postPurge ∧ t.bs.gas1 = false ∧ t.bs.gas2 = false
      ∧ t.dm.antiCycle = s.dm.antiCycle ∧ t.bs.inhibit = s.bs.inhibit ∧ t.mu.iAcc = s.mu.iAcc)
    ∧ (s.mu.cyc.state = .offPhase → 0 < s.mu.cyc.remain → s.dm.chStop = false → s.dm.active = false → RelaysOpen s →
      ∃ t, exec .offPhaseExpiry s = .next t
        ∧ t.mu.cyc = { s.mu.cyc with remain := 0 } ∧ t.dm.offPhase = false ∧ t.dm.active = true
        ∧ (s.bs.state = .standby → s.inhibited = false → t.bs.state = .preCheck)
        ∧ (s.bs.state ≠ .standby → t.bs = s.bs))

/-- MU's stages 1 and 2 at FRAME_COMPLETION, with the tables of the frame and the values it publishes (R82 to R87, R89). CH: Tz of each contributing zone from the curve, its offset and its room correction, Ts the largest Tz clamped; e and P from Ts and flow_ctl; in RUN the integrator steps unless a skip condition of R87 holds, and u_raw is P + I clamped, or m_min without flow_ctl. FROST: Ts 300 and u_raw m_min. DHW: u_raw from the heat drawn and the trim on the outlet temperature. NONE: nothing is computed. Model's choices: the order of the blocks in a frame is log 8; latched tables are log 16; u_out at a RUN entry and a stage value not formed are log 30. -/
def Obligations.FlowTargetAndRawOutputFollowTheFrame : Prop :=
  ∀ (f : Frame) (s : State), s.power = .on →
    let set := s.st.settings
    ∃ t, exec (.frameCompletion f) s = .next t
      ∧ (t.dm.circuit = .ch →
          t.mu.tz.length = 8
          ∧ (∀ z < 8, t.mu.tz.getD z none =
              if zoneEnabled s.st.zones z = true ∧ (t.zone z).call = .call ∧ (t.zone z).valve = .opened then
                some (interpolate (curvePoints s.st.curve) t.mp.pub.outdoor + zoneOffset s.st.zones z
                  + (if (t.zone z).fallback then 0
                    else match (t.zone z).temp with
                      | some x => clamp (-150) 150 (Int.tdiv (setKr set * ((t.zone z).setpoint - x)) 10)
                      | none => 0))
              else none)
          ∧ (∃ m, some m ∈ t.mu.tz ∧ (∀ x, some x ∈ t.mu.tz → x ≤ m)
              ∧ t.mu.ts = some (clamp (setTchMin set) (setTchMax set) m))
          ∧ (t.mp.pub.flowCtl = none → t.mu.e = none ∧ t.mu.p = none ∧ t.mu.uRaw = some t.mMin
              ∧ (t.bs.state = .run → s.dm.circuit = .ch → t.mu.iAcc = s.mu.iAcc))
          ∧ ∀ flow ts c, t.mp.pub.flowCtl = some flow → t.mu.ts = some ts → t.mu.ceiling = some c →
              let e := clamp (-500) 500 (ts - flow)
              let p := Int.tdiv (setKp set * e) 10
              let sum := p + Int.tdiv s.mu.iAcc 100
              t.mu.e = some e ∧ t.mu.p = some p
                ∧ (t.bs.state = .run → t.mu.uRaw = some (clamp 0 1000 (p + Int.tdiv t.mu.iAcc 100)).toNat)
                ∧ (t.bs.state = .run → s.dm.circuit = .ch →
                    ((s.mu.cyc.state = .offPhase ∨ ((c : Int) ≤ sum ∧ 0 < e) ∨ (sum ≤ 0 ∧ e < 0)) → t.mu.iAcc = s.mu.iAcc)
                    ∧ (s.mu.cyc.state ≠ .offPhase → ¬((c : Int) ≤ sum ∧ 0 < e) → ¬(sum ≤ 0 ∧ e < 0) →
                        t.mu.iAcc = (clamp 0 100000 (s.mu.iAcc + setKi set * e)).toNat)))
      ∧ (t.dm.circuit = .frost → t.mu.ts = some 300 ∧ t.mu.uRaw = some t.mMin)
      ∧ (t.dm.circuit = .dhw → t.mu.ts = s.mu.ts ∧ (t.prated ≠ 0 →
          let cold : Int := match t.mp.coldIn.value with
            | some x => x
            | none => setTcoldFix set
          let watts := (t.mp.pub.q * (clamp 0 700 ((setTdhw set : Int) - cold)).toNat * 4186 + 3000) / 6000
          let trim : Int := match t.mp.dhwOut.value with
            | some x => Int.tdiv (setKd set * ((setTdhw set : Int) - x)) 10
            | none => 0
          t.mu.uRaw = some (clamp 0 1000 (((watts * 1000 + t.prated / 2) / t.prated : Nat) + trim)).toNat))
      ∧ (t.dm.circuit = .none → t.mu.tz = s.mu.tz ∧ t.mu.ts = s.mu.ts ∧ t.mu.e = s.mu.e ∧ t.mu.p = s.mu.p
          ∧ t.mu.uRaw = s.mu.uRaw ∧ t.mu.ceiling = s.mu.ceiling)

/-- Rising slew (R92), whatever the circuit: in RUN the output of stage 4 is the smaller of the ceiled output and the last applied output plus 20 per-mille, so that a fall is followed at once; and from an m_min of 150 to 1000 the slew takes 43 frames and no fewer. -/
def Obligations.OutputRisesByTwentyAtMost : Prop :=
  (∀ s : State, s.bs.state = .run →
    ∃ u c, (muCompute s).mu.uC = some c ∧ (muCompute s).mu.uS = some u ∧ u = min c (s.mu.uPrev + 20)
      ∧ (c ≤ s.mu.uPrev → u = c))
    ∧ (fun u => min 1000 (u + 20))^[43] 150 = 1000 ∧ (fun u => min 1000 (u + 20))^[42] 150 < 1000

/-- FRAME_COMPLETION of a burn: the ceiling is the smallest of its four limits but never below m_min, and the output that the frame delivers in RUN lies between m_min and that ceiling, becomes the last applied output, and its fan map value is the fan speed target (R91, R94, R102). Model's choices: the order of the blocks in a frame is log 8; latched tables are log 16. -/
def Obligations.DeliveredOutputKeepsFloorAndCeiling : Prop :=
  ∀ (f : Frame) (s : State), s.power = .on → ∃ t, exec (.frameCompletion f) s = .next t
    ∧ (t.bs.state = .run → t.dm.active = true → t.dm.circuit ≠ .none →
        ∃ c, t.mu.ceiling = some c
          ∧ (∀ x ∈ t.ceilingItems, (c : Int) ≤ max (t.mMin : Int) x)
          ∧ (∃ x ∈ t.ceilingItems, (c : Int) = max (t.mMin : Int) x)
          ∧ t.mMin ≤ t.mu.uOut ∧ t.mu.uOut ≤ c ∧ t.mu.uPrev = t.mu.uOut
          ∧ t.mu.fanOut = fanMap t.fanMapPoints t.mu.uOut ∧ t.bs.fanTarget = t.mu.fanOut)

/-! ### Faults, RESET_IN and time -/

/-- BLOCKING_TIMER_EXPIRY: a timer that has come due stops; the source's record leaves the list unless it is LOCKOUT, and BLOCKING leaves the start-inhibit set where no BLOCKING record remains (R106, R109, R112). A timer that has not come due changes nothing. Model's choices: the command asserts that the frames or seconds still missing have passed (log 3); what the end of an event may add, AtEnd or the departure from STANDBY, is log 9. -/
def Obligations.BlockingTimerRemovesItsRecord : Prop :=
  ∀ (s : State) (src : Source) (d : Nat), s.power = .on → s.fm.blockTimer src = some d →
    (d ≤ s.time → ∃ t, exec (.blockingTimerExpiry src.num) s = .next t ∧ t.fm.blockTimer src = none
      ∧ (∀ r, s.record src = some r → r.cls ≠ .lockout → t.record src = none
          ∧ ((∀ q ∈ s.fm.active, q.source ≠ src → q.cls ≠ .blocking) → t.bs.inhibit.blocking = false))
      ∧ (∀ r, s.record src = some r → r.cls = .lockout → s.mayStart = false →
          AtEnd { s with fm := s.fm.setBlockTimer src none } t))
    ∧ (s.time < d → s.mayStart = false → ∃ t, exec (.blockingTimerExpiry src.num) s = .next t ∧ AtEnd s t)

/-- A raising of an ordinary source, shown at PRE_PURGE_LIMIT_EXPIRY with FAN_NO_SPEED (R111, R114, R115, R127). With an escalation count above 0 the raise time joins the source's escalation list of 7. The record is created at the end of the list, or counted up in its place, every other record standing; as many times within the window as the escalation count make it LOCKOUT, and the burner locks out with it, the lockout record naming the source. A new record whose history flag is set appends its entry to the ring, and an escalation appends one of class LOCKOUT, each in the next slot with the next sequence number. Model's choices: an expiry asserts the end of the running timer (log 2). -/
def Obligations.RaisingsEscalateAndEnterTheHistory : Prop :=
  ∀ (s : State) (d : Nat), s.power = .on → SafeBurner s → s.bs.purgeLimit = some d → RelaysOpen s →
    s.fm.esc.length = 26 → s.fm.ring.length = 32 → s.fm.nextSlot < 32 → s.fm.rePages.length = 8 →
    s.newClass .fanNoSpeed ≠ .lockout → (∀ r, s.record .fanNoSpeed = some r → r.cls ≠ .lockout) →
    let codes := s.st.faultCodes
    let n := fcCount codes .fanNoSpeed
    let old := s.fm.esc.getD 10 []
    let times := if n = 0 then old else escAdd s.time old
    let listed := fun up : FaultClass → FaultClass =>
      match s.record .fanNoSpeed with
      | none => s.fm.active ++ [({ source := .fanNoSpeed, detail := noDetail, cls := up (s.newClass .fanNoSpeed), count := 1
                                   first := s.time, last := s.time } : Record)]
      | some _ => s.fm.active.map fun r =>
          if r.source = .fanNoSpeed then
            { r with detail := noDetail, cls := up r.cls, count := min 255 (r.count + 1), last := s.time }
          else r
    let count := match s.record .fanNoSpeed with
      | some r => min 255 (r.count + 1)
      | none => 1
    let rises := 0 < n ∧ n ≤ (times.filter (withinLast s.time (3600 * fcWindow codes .fanNoSpeed))).length
    let entry := fun (seq : Nat) (k : FaultClass) (m : Nat) =>
      some ({ seq := seq, source := .fanNoSpeed, code := fcCode codes .fanNoSpeed, cls := k, detail := noDetail
              hours := s.time / 3600, count := m } : Hist)
    let k := s.fm.nextSlot
    let k' := (k + 1) % 32
    ∃ t, exec .prePurgeLimitExpiry s = .next t
      ∧ t.fm.esc.getD 10 [] = times
      ∧ (rises → t.fm.active = listed (fun _ => .lockout)
          ∧ LockedOut t
          ∧ t.fm.lockout = { state := .active, source := some .fanNoSpeed, code := fcCode codes .fanNoSpeed, time := s.time })
      ∧ (¬rises → t.fm.active = listed id
          ∧ t.fm.lockout = s.fm.lockout)
      ∧ (s.record .fanNoSpeed = none → fcHistory codes .fanNoSpeed = true →
          t.fm.ring.getD k none = entry s.fm.nextSeq (s.newClass .fanNoSpeed) 1
            ∧ (JobStands t (27 + k / 4) ∨ t.fm.rePages.getD (k / 4) false = true)
            ∧ (rises → t.fm.ring.getD k' none = entry ((s.fm.nextSeq + 1) % 65536) .lockout 1
                ∧ t.fm.nextSlot = (k' + 1) % 32)
            ∧ (¬rises → t.fm.nextSlot = k' ∧ t.fm.nextSeq = (s.fm.nextSeq + 1) % 65536))
      ∧ ((s.record .fanNoSpeed ≠ none ∨ fcHistory codes .fanNoSpeed = false) →
          (rises → t.fm.ring.getD k none = entry s.fm.nextSeq .lockout count
            ∧ t.fm.nextSlot = k' ∧ t.fm.nextSeq = (s.fm.nextSeq + 1) % 65536)
          ∧ (¬rises → t.fm.ring = s.fm.ring ∧ t.fm.nextSlot = s.fm.nextSlot ∧ t.fm.nextSeq = s.fm.nextSeq))

/-- RESET_IN: a falling level starts the press timer of 0.5 s where the line has been high, a rising one stops it and arms the line; RESET_IN_PRESS is a reset request with DISPLAY rights, checked and taken by the table of R121, and it disarms the line (R119, R121, R123). Model's choices: times are those of the model clock (log 1); what the end of an event may add, AtEnd or the departure from STANDBY, is log 9. -/
def Obligations.ResetInPressIsADisplayReset : Prop :=
  ∀ (s : State) (dt : Nat), s.power = .on →
    (s.lines.resetLow = false → s.mayStart = false → ∃ t, exec (.resetInLevelChange true dt) s = .next t
      ∧ AtEnd { s with
          clock := { s.clock with now := s.clock.now + dt }, lines := { s.lines with resetLow := true }
          fm := { s.fm with
            press := if s.fm.armed then some (s.clock.now + dt + Config.tPress) else s.fm.press } } t)
    ∧ (s.lines.resetLow = true → s.mayStart = false → ∃ t, exec (.resetInLevelChange false dt) s = .next t
      ∧ AtEnd { s with
          clock := { s.clock with now := s.clock.now + dt }, lines := { s.lines with resetLow := false }
          fm := { s.fm with press := none, armed := true } } t)
    ∧ ∀ (d : Nat) (r : Result), s.fm.press = some d → (s.bs.state = .lockout ∨ RelaysOpen s) → ResetResult s .display r →
        ∃ t, exec .resetInPress s = .next t
          ∧ t.fm.press = none ∧ t.fm.armed = false ∧ ResetTaken s t .display .resetIn r

/-- POWER_ON_SECOND: power-on time rises by 1 and is held at 2^32 − 1; in STABILISE and RUN a burner run second is counted, and with it a CH run second for CH and FROST or a DHW run second for DHW; no other counter changes (R50, R200). At a multiple of 900 the counters job stands, or the counters-pending mark is set. With the pump off the idle timer counts, to 24 h at most (R77). Model's choices: times are those of the model clock (log 1); run seconds are counted at the power-on second (log 15). -/
def Obligations.SecondsAreCounted : Prop :=
  ∀ s : State, s.power = .on → s.st.counters.length = 7 → ∃ t, exec .powerOnSecond s = .next t
    ∧ t.time = min Config.counterMax (s.time + 1)
    ∧ t.clock.now = max s.clock.now (s.clock.secondAt + Config.second)
    ∧ ((s.bs.state ≠ .stabilise ∧ s.bs.state ≠ .run) → t.st.counters = countUp 0 s.st.counters)
    ∧ ((s.bs.state = .stabilise ∨ s.bs.state = .run) →
        (s.dm.circuit.heating = true → t.st.counters = countUp 5 (countUp 1 (countUp 0 s.st.counters)))
          ∧ (s.dm.circuit = .dhw → t.st.counters = countUp 6 (countUp 1 (countUp 0 s.st.counters)))
          ∧ (s.dm.circuit = .none → t.st.counters = countUp 1 (countUp 0 s.st.counters)))
    ∧ (t.time % 900 = 0 → JobStands t 10 ∨ t.st.countersPending = true)
    ∧ (s.pumpEn = false → t.dm.idle = min Config.idleLimit (s.dm.idle + 1))
    ∧ t.mp = s.mp ∧ t.zp = s.zp ∧ t.mg = s.mg ∧ t.nv = s.nv

/-! ### Zone bus and rounds -/

/-- TSETTLE_EXPIRY: the port is READY and PE holds it ready; in WAITING_PORT the next round starts, and so does a round in IDLE with no period timer running, as the first round after power-on does, which from the round number 0 is round 1; in IDLE with the period running none does (R132, R153, R159). PERIOD_TIMER_EXPIRY: in IDLE with the port ready the next round starts; otherwise the period timer only stops (R153). A round that starts has the next number and a new period from the POLL header. Model's choices: an expiry asserts the end of the running timer (log 2); what the end of an event may add, AtEnd or the departure from STANDBY, is log 9. -/
def Obligations.RoundsStartWithThePortReady : Prop :=
  ∀ (s : State) (d : Nat), s.power = .on →
    (s.zp.settle = some d → s.pe.round.state = .idle → s.pe.round.period ≠ none →
      ∃ t, exec .tsettleExpiry s = .next t
        ∧ t.zp = { s.zp with port := .ready, settle := none } ∧ t.pe.portReady = true ∧ t.pe.round = s.pe.round)
    ∧ (s.zp.settle = some d →
        (s.pe.round.state = .waitingPort ∨ (s.pe.round.state = .idle ∧ s.pe.round.period = none)) → s.mg.restart = false →
      ∃ t, exec .tsettleExpiry s = .next t
        ∧ t.pe.round.state = .running ∧ t.pe.round.number = (s.pe.round.number + 1) % 4294967296
        ∧ t.pe.round.period = some (max s.clock.now d + pollPeriod s.st.poll * Config.tenth))
    ∧ (s.pe.round.period = some d → s.pe.round.state = .idle → s.pe.portReady = true → s.mg.restart = false →
      ∃ t, exec .periodTimerExpiry s = .next t
        ∧ t.pe.round.state = .running ∧ t.pe.round.number = (s.pe.round.number + 1) % 4294967296
        ∧ t.pe.round.period = some (max s.clock.now d + pollPeriod s.st.poll * Config.tenth))
    ∧ (s.pe.round.period = some d → (s.pe.round.state ≠ .idle ∨ s.pe.portReady = false) → s.mayStart = false →
      ∃ t, exec .periodTimerExpiry s = .next t
        ∧ AtEnd { s with
            pe := { s.pe with round := { s.pe.round with period := none } }
            clock := { s.clock with now := max s.clock.now d } } t)

/-- What the line's level does in the line check and the sending phase. LINE_CHECK_IDLE: the line has been idle for 4 tBIT, and the start mark begins, the exchange now sending. LINE_DOMINANCE_TIMEOUT, 50 ms after the later of the check's start and the line's last change while it is dominant, and LINE_CHECK_TIMEOUT, 200 ms after the check's start: the bus is cleared, with all that the bus port reset does in PE, MG and DM (R66, R136, R142, R145, R150, R159, R185). BUS_LINE_LEVEL_CHANGE (R137): the level is noted. While ZP sends, a line that another party draws dominant stops the bit timer in a hold as soon as ZP drives idle, and the timer resumes from where it stood when the line returns to idle; a line that returns to idle before the hold has begun, ZP still driving dominant itself, has not stopped the timer at all. With no exchange, or with the level as it was, nothing else happens. Model's choices: times are those of the model clock (log 1); what the end of an event may add, AtEnd or the departure from STANDBY, is log 9; runs told in whole tBIT, the dominance counted from the change to dominant and the clear list in whole seconds are log 28. -/
def Obligations.TheLineIsCheckedAndHoldsTheBitTimer : Prop :=
  (∀ (s : State) (x : Exchange) (f : InFlight), InExchange s x f .lineCheck → s.dm.zones.length = 8 →
    (s.lines.busDominant = false → s.mayStart = false → ∃ t, exec .lineCheckIdle s = .next t
      ∧ AtEnd { s with
          zp := { s.zp with exch := some { x with
            phase := .sending, sent := 0, sentAt := max s.clock.now (s.lines.busSince + 4 * Config.tBit), hold := none } }
          clock := { s.clock with now := max s.clock.now (s.lines.busSince + 4 * Config.tBit) } } t)
    ∧ (s.lines.busDominant = true → ∃ t, exec .lineDominanceTimeout s = .next t
      ∧ BusCleared s t (max s.clock.now (max x.checkAt s.lines.busSince + Config.tDom)))
    ∧ ∃ t, exec .lineCheckTimeout s = .next t
      ∧ BusCleared s t (max s.clock.now (x.checkAt + Config.tLineCheck)))
  ∧ ∀ (s : State) (x : Exchange) (f : InFlight) (dt : Nat),
    (InExchange s x f .sending → s.busSupply = true →
      (s.lines.busDominant = false → x.hold = none → ∃ t y, exec (.busLineLevelChange true dt) s = .next t
        ∧ t.lines = { s.lines with busDominant := true, busSince := s.clock.now + dt } ∧ t.zp = { s.zp with exch := some y }
        ∧ y = { x with
            sent := x.sentBy (s.clock.now + dt) + x.toIdle (x.sentBy (s.clock.now + dt)), sentAt := s.clock.now + dt
            hold := some (s.clock.now + dt + x.toIdle (x.sentBy (s.clock.now + dt))) })
      ∧ (∀ h, s.lines.busDominant = true → x.hold = some h → h ≤ s.clock.now + dt →
        ∃ t, exec (.busLineLevelChange false dt) s = .next t
          ∧ t.lines = { s.lines with busDominant := false, busSince := s.clock.now + dt }
          ∧ t.zp = { s.zp with exch := some { x with sentAt := s.clock.now + dt, hold := none } })
      ∧ (∀ h, s.lines.busDominant = true → x.hold = some h → s.clock.now + dt < h →
        ∃ t, exec (.busLineLevelChange false dt) s = .next t
          ∧ t.lines = { s.lines with busDominant := false, busSince := s.clock.now + dt }
          ∧ t.zp = { s.zp with exch := some { x with
              sent := x.sent - (h - (s.clock.now + dt)), sentAt := s.clock.now + dt, hold := none } }))
    ∧ ∀ level, s.power = .on → s.mayStart = false → (s.zp.exch = none ∨ level = s.lines.busDominant) →
        ∃ t, exec (.busLineLevelChange level dt) s = .next t
          ∧ AtEnd { s with
              clock := { s.clock with now := s.clock.now + dt }
              lines := if level = s.lines.busDominant then s.lines
                else { s.lines with busDominant := level, busSince := s.clock.now + dt } } t

/-- The sending phase (R137). REQUEST_SENT, no hold standing: the exchange awaits its reply, tREPLY running from the moment at which the last stop bit has been sent. HOLD_TIMEOUT: a hold of 10 ms fails the exchange with STRETCH. Model's choices: times are those of the model clock (log 1). -/
def Obligations.RequestIsSentOrStretched : Prop :=
  ∀ (s : State) (x : Exchange) (f : InFlight), InExchange s x f .sending →
    (x.hold = none → ∃ t, exec .requestSent s = .next t
      ∧ t.clock.now = max s.clock.now (x.sentAt + (x.length - x.sent))
      ∧ t.zp = { s.zp with exch := some { x with
          phase := .awaiting, hold := none, reply := some (t.clock.now + Config.tReply), replyExpired := false } }
      ∧ t.pe.round = s.pe.round ∧ t.mg = s.mg ∧ t.mp = s.mp)
    ∧ ∀ h, x.hold = some h → ∃ t, exec .holdTimeout s = .next t
      ∧ t.clock.now = max s.clock.now (h + Config.tHold) ∧ FailureTaken s t x .stretch

/-- Receiving (R134, R138). REPLY_START_MARK, a dominant run of 10 to 14 tBIT that began within tREPLY: the exchange receives with an empty assembly, tRXMAX counted from the run's beginning. REPLY_BYTE_RECEIVED: the byte joins the assembly and the running check, but that a length byte above 16 breaks framing. Model's choices: times are those of the model clock (log 1); runs told in whole tBIT, the dominance counted from the change to dominant and the clear list in whole seconds are log 28. -/
def Obligations.RepliesAreAssembledByteByByte : Prop :=
  ∀ (s : State) (x : Exchange) (f : InFlight) (dt : Nat),
    (∀ run, InExchange s x f .awaiting → 10 ≤ run → run ≤ 14 →
      (∀ e, x.reply = some e → s.clock.now + dt - run * Config.tBit ≤ e) → (x.reply = none → x.replyExpired = true) →
      ∃ t, exec (.replyStartMark run dt) s = .next t
        ∧ t.clock.now = s.clock.now + dt
        ∧ t.zp = { s.zp with
            rx := [], rxCheck := 0
            exch := some { x with
              phase := .receiving, reply := none, replyExpired := false
              rxMax := some (s.clock.now + dt - run * Config.tBit + Config.tRxmax)
              gap := some (s.clock.now + dt + 10 * Config.tBit) } }
        ∧ t.pe.round = s.pe.round ∧ t.pe.nodes = s.pe.nodes)
    ∧ ∀ b : Byte, InExchange s x f .receiving → s.zp.checkDue = false →
      (¬(s.zp.rx.length = 3 ∧ 16 < b.toNat) → ∃ t, exec (.replyByteReceived b dt) s = .next t
        ∧ t.clock.now = s.clock.now + dt
        ∧ t.zp = { s.zp with
            rx := s.zp.rx ++ [b], rxCheck := crc8Byte s.zp.rxCheck b
            exch := some { x with gap := some (s.clock.now + dt + 10 * Config.tBit) } }
        ∧ t.pe.round = s.pe.round ∧ t.pe.nodes = s.pe.nodes)
      ∧ (s.zp.rx.length = 3 → 16 < b.toNat → ∃ t, exec (.replyByteReceived b dt) s = .next t
        ∧ FailureTaken s t x .framing)

/-- Replies that fail the exchange (R138, R139, R141). TREPLY_EXPIRY on an idle line and TRXMAX_EXPIRY: NO_REPLY; with a dominant run in progress TREPLY_EXPIRY leaves the decision to the run. REPLY_FRAMING: FRAMING. REPLY_RECEIVED: CHECK where the computed check is not the received one, and then MISMATCH where the destination is not 0, the source not the node addressed, or the kind not among those of the request. Model's choices: an expiry asserts the end of the running timer (log 2); a cause that breaks no framing is ill-formed (log 26). -/
def Obligations.BrokenRepliesFailTheExchange : Prop :=
  ∀ (s : State) (x : Exchange) (f : InFlight) (dt : Nat),
    (∀ d, InExchange s x f .awaiting → x.reply = some d →
      (s.lines.busDominant = false → ∃ t, exec .treplyExpiry s = .next t ∧ FailureTaken s t x .noReply)
      ∧ (s.lines.busDominant = true → ∃ t, exec .treplyExpiry s = .next t
        ∧ t.zp = { s.zp with exch := some { x with reply := none, replyExpired := true } }))
    ∧ (InExchange s x f .awaiting → ∃ t, exec (.replyFraming .overlongRun dt) s = .next t ∧ FailureTaken s t x .framing)
    ∧ (∀ d, InExchange s x f .receiving → x.rxMax = some d →
      ∃ t, exec .trxmaxExpiry s = .next t ∧ FailureTaken s t x .noReply)
    ∧ (∀ c, framingOk c = true → InExchange s x f .receiving → ∃ t, exec (.replyFraming c dt) s = .next t ∧ FailureTaken s t x .framing)
    ∧ ∀ b : Byte, InExchange s x f .receiving → s.zp.checkDue = true →
      (b ≠ s.zp.rxCheck → ∃ t, exec (.replyReceived b dt) s = .next t ∧ FailureTaken s t x .check)
      ∧ (b = s.zp.rxCheck →
          (u8 s.zp.rx 0 ≠ 0 ∨ u8 s.zp.rx 1 ≠ x.node ∨ x.replies.contains (u8 s.zp.rx 2) = false) →
          ∃ t, exec (.replyReceived b dt) s = .next t ∧ FailureTaken s t x .mismatch)

/-- REPLY_RECEIVED of a good reply that carries no management request (R139, R149): the node is PRESENT with no misses and its last good exchange now, BUS_FAULT's marker is clear and the assembly empty. A DEMAND with status OK from a room unit of an enabled zone sets the zone's setpoint, clamped to 50 to 300, its room temperature, the time of the demand and, by the table of R55, its call state, and ends its fallback (R54, R55, R161); an OUTDOOR with status OK from the outdoor unit sets the outdoor node value and its time (R163). Model's choices: times are those of the model clock (log 1). -/
def Obligations.GoodRepliesAreDelivered : Prop :=
  ∀ (s : State) (x : Exchange) (f : InFlight) (dt : Nat), InExchange s x f .receiving → s.zp.checkDue = true →
    u8 s.zp.rx 0 = 0 → u8 s.zp.rx 1 = x.node → x.replies.contains (u8 s.zp.rx 2) = true →
    u8 s.zp.rx 2 ≠ kindMgmtRequest → s.dm.zones.length = 8 →
    ∃ t, exec (.replyReceived s.zp.rxCheck dt) s = .next t
      ∧ t.nodeLive x.node = { presence := .present, miss := 0, lastGood := some s.time }
      ∧ t.zp.busFault = false ∧ t.zp.rx = [] ∧ t.zp.lastFail = s.zp.lastFail ∧ t.clock.now = s.clock.now + dt
      ∧ ∀ e, f = .entry → s.pe.round.cur = some e → replyBusy (u8 s.zp.rx 2) (s.zp.rx.drop 4) = false →
          (e.entry.kind = .demandQuery → s.kindOf x.node = .roomUnit → nodeZone s.st.nodes x.node < 8 →
            zoneEnabled s.st.zones (nodeZone s.st.nodes x.node) = true →
            (t.zone (nodeZone s.st.nodes x.node)).setpoint = clamp 50 300 (s16 (s.zp.rx.drop 4) 1)
              ∧ (t.zone (nodeZone s.st.nodes x.node)).temp = receivedTemp (s.zp.rx.drop 4) 3
              ∧ (t.zone (nodeZone s.st.nodes x.node)).fallback = false
              ∧ (t.zone (nodeZone s.st.nodes x.node)).lastDemand = s.time
              ∧ (let r := s.zone (nodeZone s.st.nodes x.node)
                let sp := clamp 50 300 (s16 (s.zp.rx.drop 4) 1)
                let flag := if bit (u8 (s.zp.rx.drop 4) 5) 0 then CallState.call else .noCall
                let got := (t.zone (nodeZone s.st.nodes x.node)).call
                (receivedTemp (s.zp.rx.drop 4) 3 = none → got = flag)
                  ∧ ∀ v, receivedTemp (s.zp.rx.drop 4) 3 = some v →
                    (v ≤ sp - 3 → got = .call) ∧ (sp + 2 ≤ v → got = .noCall)
                      ∧ (sp - 3 < v → v < sp + 2 →
                          ((r.call = .unknown ∨ r.fallback = true) → got = flag)
                            ∧ (r.call ≠ .unknown → r.fallback = false → got = r.call))))
          ∧ (e.entry.kind = .outdoorQuery → s.kindOf x.node = .outdoorUnit →
            t.pe.outdoor = receivedTemp (s.zp.rx.drop 4) 1 ∧ t.pe.outdoorAt = some s.time)

/-- VALVE_COMMANDs and the valves (R60 to R62, R162, R167 to R169). A HIGH entry at the head of the urgent queue is sent before a due entry of the round: the telegram goes to the zone's valve node with its channel and the position, and the entry is marked in flight. A good ACK to it acknowledges the travel, which runs for the valve's run time, twice that with an end switch; NODE_BUSY or a failed exchange leaves the valve UNKNOWN. A VALVE_STATE of the zone's valve node, the travel acknowledged, puts the valve of a zone with an end switch where it reports it. Model's choices: times are those of the model clock (log 1); an expiry asserts the end of the running timer (log 2). -/
def Obligations.ValveCommandsAreSentAndTheirResultsTaken : Prop :=
  ∀ (s : State) (x : Exchange) (z dt : Nat) (pos : Position), s.power = .on → z < 8 → s.dm.zones.length = 8 →
    s.hasValve z = true →
    (∀ d, s.pe.round.period = some d → s.pe.round.state = .idle → s.pe.portReady = true → s.mg.restart = false →
      s.pe.urgent.head? = some { item := .valve z pos } →
      dueIn ((s.pe.round.number + 1) % 4294967296) (pollEntry s.st.poll 0) = true →
      ∃ t y, exec .periodTimerExpiry s = .next t ∧ t.zp.exch = some y
        ∧ y.node = zoneValveNode s.st.zones z ∧ y.kind = kindValveCommand ∧ y.replies = [kindAck]
        ∧ y.out = telegram y.node kindValveCommand (put8 (zoneValveChannel s.st.zones z) ++ put8 pos.code)
        ∧ t.pe.round.inFlight = some (.valve z pos)
        ∧ t.pe.urgent.head? = some { item := .valve z pos, inFlight := true })
    ∧ (InExchange s x (.valve z pos) .receiving → s.zp.checkDue = true → u8 s.zp.rx 0 = 0 → u8 s.zp.rx 1 = x.node →
        u8 s.zp.rx 2 = kindAck → x.replies = [kindAck] →
        (replyBusy kindAck (s.zp.rx.drop 4) = false → s.selected = s.dm.circuit → (s.zone z).desired = pos →
          (s.zone z).valve = (if pos = .opened then .opening else .closing) →
          (s.dm.circuit = .dhw ∨ s.desiredOf z = pos) →
          ∃ t, exec (.replyReceived s.zp.rxCheck dt) s = .next t
            ∧ (t.zone z).ack = true ∧ (t.zone z).valve = (s.zone z).valve
            ∧ (t.zone z).travelLength = (if zoneEndSwitch s.st.zones z then 2 else 1) * zoneRunTime s.st.zones z
            ∧ (t.zone z).travel = some (s.clock.now + dt + (t.zone z).travelLength * Config.second))
        ∧ (replyBusy kindAck (s.zp.rx.drop 4) = true → ∃ t, exec (.replyReceived s.zp.rxCheck dt) s = .next t
            ∧ (t.zone z).valve = .unknown ∧ (t.zone z).travel = none ∧ (t.zone z).ack = false))
    ∧ (∀ d, InExchange s x (.valve z pos) .awaiting → x.reply = some d → s.lines.busDominant = false →
        ∃ t, exec .treplyExpiry s = .next t
          ∧ (t.zone z).valve = .unknown ∧ (t.zone z).travel = none ∧ (t.zone z).ack = false)
    ∧ (∀ e, InExchange s x .entry .receiving → s.zp.checkDue = true → u8 s.zp.rx 0 = 0 → u8 s.zp.rx 1 = x.node →
        u8 s.zp.rx 2 = kindValveState → x.replies = [kindValveState] → s.pe.round.cur = some e →
        e.entry.kind = .valveQuery → e.entry.block = z → zoneEndSwitch s.st.zones z = true →
        zoneValveNode s.st.zones z = x.node → replyBusy kindValveState (s.zp.rx.drop 4) = false → (s.zone z).ack = true →
        (u8 (s.zp.rx.drop 4) 1 = 1 → (s.zone z).valve = .opening → (s.zone z).desired = .opened →
          zoneEnabled s.st.zones z = true → (s.zone z).call = .call → setMode s.latch.settings = .winter →
          ∃ t, exec (.replyReceived s.zp.rxCheck dt) s = .next t
            ∧ (t.zone z).valve = .opened ∧ (t.zone z).travel = none ∧ (t.zone z).ack = false)
        ∧ (u8 (s.zp.rx.drop 4) 1 = 2 → (s.zone z).valve = .closing → (s.zone z).desired = .closed →
          (s.zone z).call ≠ .call → s.dm.frost = false →
          ∃ t, exec (.replyReceived s.zp.rxCheck dt) s = .next t
            ∧ (t.zone z).valve = .closed ∧ (t.zone z).travel = none ∧ (t.zone z).ack = false))

/-- The closing outcome (R140, R141, R172, R186). CLOSING_SENT with no hold standing: the outcome is SENT, and a proxy result being delivered leaves the slot EMPTY. HOLD_TIMEOUT in the closing phase: the outcome is STRETCH, which is kept as the last failure record (R141), and the slot keeps its result. Either way the exchange ends and the port returns to READY, where PE may hand the next request in the same event. Neither is reported as a failed exchange: every node's presence stands, and after SENT the last failure record too. After an accepted RESTART the port is left READY and nothing is handed on (R189). Model's choices: times are those of the model clock (log 1); RESTART_PROCEED is a step of its own (log 18). -/
def Obligations.ClosingOutcomeEndsTheExchange : Prop :=
  ∀ (s : State) (x : Exchange) (f : InFlight), InExchange s x f .closing →
    (x.hold = none → ∃ t, exec .closingSent s = .next t
      ∧ t.clock.now = max s.clock.now (x.sentAt + (x.length - x.sent))
      ∧ t.mg = { s.mg with slot := if s.mg.slot.delivering then {} else s.mg.slot }
      ∧ t.zp.lastFail = s.zp.lastFail ∧ t.pe.nodes = s.pe.nodes ∧ ExchangeEnded t
      ∧ (s.mg.restart = true → t.zp.exch = none ∧ t.zp.port = .ready))
    ∧ ∀ h, x.hold = some h → ∃ t, exec .holdTimeout s = .next t
      ∧ t.clock.now = max s.clock.now (h + Config.tHold)
      ∧ t.mg = { s.mg with slot := { s.mg.slot with delivering := false } }
      ∧ t.zp.lastFail = some { reason := .stretch, node := x.node, kind := x.kind, time := s.time } ∧ t.pe.nodes = s.pe.nodes
      ∧ ExchangeEnded t
      ∧ (s.mg.restart = true → t.zp.exch = none ∧ t.zp.port = .ready)

/-- The bus supply. TCLEAR_EXPIRY and FAULT_TIMER_EXPIRY switch it on again: the port is SETTLING with tSETTLE running (R142, R144). OVERCURRENT with the supply on: the port is in FAULT for 60 s with BUS_FAULT raised and the clear list empty, the exchange given up with the failure record NO_REPLY, and the bus port reset taken in PE, MG and DM: the round given up, every node's presence UNKNOWN with a miss count of 0, a proxy slot in FETCHING READY with NO_ANSWER, and every zone's valve UNKNOWN where it has a valve node (R66, R143, R145, R150, R159, R185). Without supply an overcurrent is no event. Model's choices: an expiry asserts the end of the running timer (log 2); the reason NO_REPLY of an exchange ended in its closing phase is log 39. -/
def Obligations.SupplyIsSwitchedOnAndOff : Prop :=
  ∀ (s : State) (d : Nat), s.power = .on → s.dm.zones.length = 8 →
    (s.zp.clear = some d → ∃ t, exec .tclearExpiry s = .next t
      ∧ t.zp = { s.zp with
          port := .settling, settle := some (max s.clock.now d + Config.tSettle), clear := none, fault := none }
      ∧ t.busSupply = true)
    ∧ (s.zp.fault = some d → ∃ t, exec .faultTimerExpiry s = .next t
      ∧ t.zp = { s.zp with
          port := .settling, settle := some (max s.clock.now d + Config.tSettle), clear := none, fault := none }
      ∧ t.busSupply = true)
    ∧ (s.busSupply = true → ∃ t, exec .overcurrent s = .next t
      ∧ t.busSupply = false ∧ t.zp.port = .fault ∧ t.zp.fault = some (s.clock.now + Config.tFault) ∧ t.zp.clears = []
      ∧ t.zp.busFault = true ∧ (∃ r ∈ t.fm.active, r.source = .busFault) ∧ BusReset s t s.clock.now
      ∧ (∀ x, s.zp.exch = some x →
          t.zp.lastFail = some { reason := .noReply, node := x.node, kind := x.kind, time := s.time })
      ∧ (s.zp.exch = none → t.zp.lastFail = s.zp.lastFail))
    ∧ (s.busSupply = false → s.mayStart = false → ∃ t, exec .overcurrent s = .next t ∧ AtEnd s t)

/-! ### Management requests -/

/-- READ_ENTRY, READ_STATE and READ_FAULTS of a node with rights (R128, R171, R173, R187, R188). An entry that exists is answered DONE with its bytes, one beyond its table INVALID; a part of a group's value string is answered DONE, an index that names nothing INVALID; a record of the active list is answered DONE, an index beyond the list END with the count. No table, no live image and no reading of the store changes; with no exchange in flight nothing changes but the ANSWER that MG keeps, and that a proxy result is not under delivery. A node with rights NONE is answered DENIED. In a poll the ANSWER is the closing telegram that is now being sent. Model's choices: a request with no exchange in flight is taken as a command of its own (log 6); what the end of an event may add, AtEnd or the departure from STANDBY, is log 9; codes and widths no rule gives are log 14; a negative difference and hours above 131,071 in READ_FAULTS are log 31; the order of the history by slots is log 38. -/
def Obligations.ReadsAnswerAndChangeNoTable : Prop :=
  ∀ (s : State) (node : Nat) (tag : Byte), Requests s node →
    (∀ table entry : Byte, ∃ t, exec (.readEntry node tag table entry) s = .next t
      ∧ (∀ k, t.tableImage k = s.tableImage k) ∧ t.nv = s.nv ∧ AnswerAlone s t
      ∧ (s.rightsOf node = .none → answered t node tag 1 .denied [])
      ∧ (s.rightsOf node ≠ .none → ∀ w, entryAt table.toNat entry.toNat = some w →
          answered t node tag 1 .done ([table, entry] ++ s.entryBytes table.toNat w))
      ∧ (s.rightsOf node ≠ .none → entryAt table.toNat entry.toNat = none → answered t node tag 1 .invalid [])
      ∧ ∀ x, s.zp.exch = some x → s.pe.round.inFlight ≠ none →
          ∃ a y, t.mg.answer = some a ∧ t.zp.exch = some y ∧ y.phase = .closing ∧ y.out = telegram node kindAnswer a.payload)
    ∧ (∀ group index part : Byte, ∃ t, exec (.readState node tag group index part) s = .next t
      ∧ (∀ k, t.tableImage k = s.tableImage k) ∧ t.nv = s.nv ∧ AnswerAlone s t
      ∧ (s.rightsOf node = .none → answered t node tag 4 .denied [])
      ∧ (s.rightsOf node ≠ .none → group.toNat ≤ 12 → groupIndexOk group.toNat index.toNat = true →
          answered t node tag 4 .done
            ([group, index, part] ++ partOf ((requestState node s).group group.toNat index.toNat) part.toNat))
      ∧ (s.rightsOf node ≠ .none → (12 < group.toNat ∨ groupIndexOk group.toNat index.toNat = false) →
          answered t node tag 4 .invalid []))
    ∧ ∀ list direction index : Byte, ∃ t, exec (.readFaults node tag list direction index) s = .next t
      ∧ (∀ k, t.tableImage k = s.tableImage k) ∧ t.nv = s.nv ∧ AnswerAlone s t
      ∧ (s.rightsOf node = .none → answered t node tag 5 .denied [])
      ∧ (s.rightsOf node ≠ .none → (1 < list.toNat ∨ 1 < direction.toNat) → answered t node tag 5 .invalid [])
      ∧ (s.rightsOf node ≠ .none → list = 0 → direction.toNat ≤ 1 →
          let u := requestState node s
          let l := if direction = 0 then u.fm.active else u.fm.active.reverse
          (∀ r, l[index.toNat]? = some r → answered t node tag 5 .done (u.recordBytes r))
            ∧ (l[index.toNat]? = none → answered t node tag 5 .listEnd (put8 l.length)))
      ∧ (s.rightsOf node ≠ .none → list = 1 → direction.toNat ≤ 1 →
          let u := requestState node s
          let l := if direction = 0 then u.fm.history else u.fm.history.reverse
          (∀ h, l[index.toNat]? = some h → answered t node tag 5 .done (histBytes l.length h))
            ∧ (l[index.toNat]? = none → answered t node tag 5 .listEnd (put8 l.length)))

/-- WRITE_ENTRY to a settings-class table, 0 to 5 (R171, R175). Fewer bytes than the entry's are answered INVALID, rights below the table's DENIED, an entry beyond the table or a refused field INVALID, and a changed entry that finds the store queue full BUSY, with every table as it was. Otherwise the entry with its clamped values is in the table's image, every other byte of every table as it was, and the answer is DONE, or CLAMPED with the entry as stored; a changed entry has its page's job standing. Model's choices: a request with no exchange in flight is taken as a command of its own (log 6); log 22 on lengths beyond a table. -/
def Obligations.WritesReachTheLiveImage : Prop :=
  ∀ (s : State) (node : Nat) (tag table entry : Byte) (data : List Byte), Requests s node → table.toNat ≤ 5 →
    ∃ t, exec (.writeEntry node tag table entry data) s = .next t
      ∧ ((s.rightsOf node).rank < writeRank table.toNat →
          (s.rightsOf node = .none ∨ ∀ w, entryAt table.toNat entry.toNat = some w → w.2 ≤ data.length) →
          answered t node tag 2 .denied [] ∧ ∀ k, t.tableImage k = s.tableImage k)
      ∧ (s.rightsOf node ≠ .none → (∀ w, entryAt table.toNat entry.toNat = some w → data.length < w.2) →
          entryAt table.toNat entry.toNat ≠ none →
          answered t node tag 2 .invalid [] ∧ ∀ k, t.tableImage k = s.tableImage k)
      ∧ (writeRank table.toNat ≤ (s.rightsOf node).rank →
          (entryAt table.toNat entry.toNat = none → answered t node tag 2 .invalid [] ∧ ∀ k, t.tableImage k = s.tableImage k)
          ∧ ∀ w, entryAt table.toNat entry.toNat = some w → w.2 ≤ data.length →
            (s.checkWrite table.toNat entry.toNat (data.take w.2) = none →
              answered t node tag 2 .invalid [] ∧ ∀ k, t.tableImage k = s.tableImage k)
            ∧ ∀ d c, s.checkWrite table.toNat entry.toNat (data.take w.2) = some (d, c) →
              (d = s.entryBytes table.toNat w →
                answered t node tag 2 (if c then .clamped else .done) (if c then d else [])
                  ∧ ∀ k, t.tableImage k = s.tableImage k)
              ∧ (d ≠ s.entryBytes table.toNat w → s.canTake (entryPage table.toNat entry.toNat) = false →
                answered t node tag 2 .busy [] ∧ ∀ k, t.tableImage k = s.tableImage k)
              ∧ (d ≠ s.entryBytes table.toNat w → s.canTake (entryPage table.toNat entry.toNat) = true →
                answered t node tag 2 (if c then .clamped else .done) (if c then d else [])
                  ∧ t.tableImage table.toNat = splice (s.tableImage table.toNat) w.1 d
                  ∧ (∀ k, k ≠ table.toNat → t.tableImage k = s.tableImage k)
                  ∧ JobStands t (entryPage table.toNat entry.toNat)))

/-- WRITE_ENTRY to COUNTERS and to SAFETY_STAGE with SERVICE rights (R174, R178). A counter other than the power-on seconds written 0 is 0 in the counters image, and every other value, or the power-on seconds, is answered INVALID. A staging entry is stored as written and the modified mark set, without change to the live block; the CRC field is answered INVALID, and during a commit every staging write BUSY. With lower rights both are answered DENIED. A WRITE_ENTRY to SAFETY or IDENT is answered DENIED whatever the rights (R174). Model's choices: a request with no exchange in flight is taken as a command of its own (log 6). -/
def Obligations.CountersAreZeroedAndStagingIsWritten : Prop :=
  ∀ (s : State) (node : Nat) (tag entry : Byte) (data : List Byte), Requests s node →
    (4 ≤ data.length → ∃ t, exec (.writeEntryCounters node tag entry data) s = .next t
      ∧ t.st.safety = s.st.safety ∧ t.mg.staging = s.mg.staging
      ∧ (s.rightsOf node ≠ .service → answered t node tag 2 .denied [] ∧ ∀ k, t.tableImage k = s.tableImage k)
      ∧ (s.rightsOf node = .service → (entry = 0 ∨ 7 ≤ entry.toNat ∨ u32 data 0 ≠ 0) →
          answered t node tag 2 .invalid [] ∧ ∀ k, t.tableImage k = s.tableImage k)
      ∧ (s.rightsOf node = .service → s.st.counters.length = 7 → 1 ≤ entry.toNat → entry.toNat ≤ 6 → u32 data 0 = 0 →
          s.canTake 10 = true →
          answered t node tag 2 .done []
            ∧ t.tableImage 9 = splice (s.tableImage 9) (4 * entry.toNat) [0, 0, 0, 0]
            ∧ ∀ k, k ≠ 9 → t.tableImage k = s.tableImage k))
    ∧ (∃ t, exec (.writeEntrySafetyStage node tag entry data) s = .next t
      ∧ t.st.safety = s.st.safety
      ∧ ∀ w, entryAt 7 entry.toNat = some w → w.2 ≤ data.length →
          (s.rightsOf node ≠ .service → answered t node tag 2 .denied [] ∧ t.mg.staging = s.mg.staging)
          ∧ (s.rightsOf node = .service → s.mg.commit = .committing →
              answered t node tag 2 .busy [] ∧ t.mg.staging = s.mg.staging)
          ∧ (s.rightsOf node = .service → s.mg.commit ≠ .committing → entry = 50 →
              answered t node tag 2 .invalid [] ∧ t.mg.staging = s.mg.staging)
          ∧ (s.rightsOf node = .service → s.mg.commit ≠ .committing → entry ≠ 50 →
              answered t node tag 2 .done [] ∧ t.mg.staging = splice s.mg.staging w.1 (data.take w.2)
                ∧ t.mg.modified = true))
    ∧ ∀ table : Byte, (table = 6 ∨ table = 8) → (∀ w, entryAt table.toNat entry.toNat = some w → w.2 ≤ data.length) →
        ∃ t, exec (.writeEntry node tag table entry data) s = .next t
          ∧ answered t node tag 2 .denied [] ∧ ∀ k, t.tableImage k = s.tableImage k

/-- COMMIT_SAFETY (R179, R181): the checks in the order of the table, each with its result and, for a refusal, the staging image and the commit state as they were. An accepted commit has the CRC in the staging image's field, the state COMMITTING, COMMIT_HOLD in the start-inhibit set, and its eight jobs in the store queue behind the waiting ones; the live block is as it was. Model's choices: a request with no exchange in flight is taken as a command of its own (log 6); log 22 on the entry that a fault of an order is named with; a fan map point beyond the point count is not checked, 0x8000 or not (log 42). -/
def Obligations.CommitIsCheckedAndQueued : Prop :=
  ∀ (s : State) (node : Nat) (tag : Byte) (crc : BitVec 16), Requests s node →
    let u := requestState node s
    let own := blockCrc s.mg.staging
    ∃ t, exec (.commitSafety node tag crc) s = .next t ∧ t.st.safety = s.st.safety
      ∧ (s.rightsOf node ≠ .service → answered t node tag 3 .denied [] ∧ t.mg.staging = s.mg.staging ∧ t.mg.commit = s.mg.commit)
      ∧ (s.rightsOf node = .service → s.mg.commit = .committing →
          answered t node tag 3 .busy [] ∧ t.mg.staging = s.mg.staging ∧ t.mg.commit = s.mg.commit)
      ∧ (s.rightsOf node = .service → s.mg.commit ≠ .committing →
          (u.bs.state ≠ .standby → u.bs.state ≠ .lockout →
            answered t node tag 3 .refusedState [] ∧ t.mg.staging = s.mg.staging ∧ t.mg.commit = s.mg.commit)
          ∧ ((u.bs.state = .standby ∨ u.bs.state = .lockout) →
            (∀ e, firstBad s.mg.staging = some e →
              answered t node tag 3 .invalid (put8 e) ∧ t.mg.staging = s.mg.staging ∧ t.mg.commit = s.mg.commit)
            ∧ (firstBad s.mg.staging = none → own ≠ crc →
              answered t node tag 3 .crcMismatch (put16 own.toNat) ∧ t.mg.staging = s.mg.staging
                ∧ t.mg.commit = s.mg.commit)
            ∧ (firstBad s.mg.staging = none → own = crc → s.freePlaces < 8 →
              answered t node tag 3 .busy [] ∧ t.mg.staging = s.mg.staging ∧ t.mg.commit = s.mg.commit)
            ∧ (firstBad s.mg.staging = none → own = crc → 8 ≤ s.freePlaces →
              answered t node tag 3 .accepted [] ∧ t.mg.commit = .committing
                ∧ t.mg.staging = splice s.mg.staging 254 (put16 crc.toNat)
                ∧ t.bs.inhibit.commitHold = true
                ∧ (s.st.write ≠ none → t.st.jobs = s.st.jobs ++ commitJobs)
                ∧ (s.st.write = none → s.st.lockJob = false → s.st.jobs = [] →
                    t.st.jobs = commitJobs.drop 1
                      ∧ ∃ w, t.st.write = some w ∧ w.page = 0 ∧ w.commit = true
                        ∧ w.copy = slice t.mg.staging 0 32))))

/-- LOCKOUT_RESET of a node with rights (R119, R121, R123, R188): the request is checked by the table of R121 and taken with the node as its origin, and the ANSWER carries the result, for CONDITION with the first source that holds the reset back. A node with rights NONE is answered DENIED and FM takes nothing. Model's choices: a request with no exchange in flight is taken as a command of its own (log 6). -/
def Obligations.LockoutResetFollowsItsTable : Prop :=
  ∀ (s : State) (node : Nat) (tag : Byte), Requests s node → (s.bs.state = .lockout ∨ RelaysOpen s) →
    (∀ r, s.rightsOf node ≠ .none → ResetResult (requestState node s) (s.rightsOf node) r →
      ∃ t data, exec (.lockoutReset node tag) s = .next t
        ∧ ResetTaken (requestState node s) t (s.rightsOf node) (.node node) r
        ∧ answered t node tag 6 r data
        ∧ (r = .condition → ∃ q, (requestState node s).holding = some q ∧ data = put8 q.source.num)
        ∧ (r ≠ .condition → data = []))
    ∧ (s.rightsOf node = .none → ∃ t, exec (.lockoutReset node tag) s = .next t ∧ answered t node tag 6 .denied []
      ∧ t.fm.lockout = s.fm.lockout ∧ t.fm.resets = s.fm.resets ∧ t.fm.lastReset = s.fm.lastReset)

/-- PROXY_READ with DISPLAY rights or above and PROXY_HOLD_EXPIRY (R184, R185). An EMPTY slot latches the key and FETCHES, a PROXY_FETCH placed behind the HIGH entries, and the answer is PENDING; while it fetches, its own key is answered PENDING and another BUSY; READY, its own key is answered with the result and its data and another BUSY. Lower rights are answered DENIED and a target that is no address INVALID, the slot standing. The hold's expiry empties the slot. Model's choices: times are those of the model clock (log 1); an expiry asserts the end of the running timer (log 2); a request with no exchange in flight is taken as a command of its own (log 6). -/
def Obligations.ProxySlotFetchesHoldsAndEmpties : Prop :=
  ∀ (s : State) (node : Nat) (tag target item : Byte),
    (Requests s node → ∃ t, exec (.proxyRead node tag target item) s = .next t
      ∧ (s.rightsOf node = .none → answered t node tag 7 .denied [] ∧ t.mg.slot.state = s.mg.slot.state)
      ∧ (s.rightsOf node ≠ .none → (target = 0 ∨ 15 < target.toNat) →
          answered t node tag 7 .invalid [] ∧ t.mg.slot.state = s.mg.slot.state)
      ∧ (s.rightsOf node = .room → 1 ≤ target.toNat → target.toNat ≤ 15 →
          answered t node tag 7 .denied [] ∧ t.mg.slot.state = s.mg.slot.state))
    ∧ (Requests s node → 2 ≤ (s.rightsOf node).rank → 1 ≤ target.toNat → target.toNat ≤ 15 →
      ∃ t, exec (.proxyRead node tag target item) s = .next t
        ∧ (s.mg.slot.state = .empty →
            answered t node tag 7 .pending []
              ∧ t.mg.slot = { state := .fetching, target := target.toNat, item := item.toNat }
              ∧ ((s.pe.urgent.all fun u => u.high) = true →
                  t.pe.urgent = s.pe.urgent ++ [{ item := .proxy target.toNat item.toNat }]))
        ∧ (s.mg.slot.state = .fetching → t.mg.slot.state = .fetching
            ∧ ((s.mg.slot.target = target.toNat ∧ s.mg.slot.item = item.toNat) → answered t node tag 7 .pending [])
            ∧ (¬(s.mg.slot.target = target.toNat ∧ s.mg.slot.item = item.toNat) → answered t node tag 7 .busy []))
        ∧ (s.mg.slot.state = .ready → t.mg.slot.state = .ready ∧ t.mg.slot.hold = s.mg.slot.hold
            ∧ ((s.mg.slot.target = target.toNat ∧ s.mg.slot.item = item.toNat) →
                answered t node tag 7 s.mg.slot.result s.mg.slot.data)
            ∧ (¬(s.mg.slot.target = target.toNat ∧ s.mg.slot.item = item.toNat) → answered t node tag 7 .busy [])))
    ∧ ∀ d, s.power = .on → s.mg.slot.hold = some d → ∃ t, exec .proxyHoldExpiry s = .next t
        ∧ t.mg = { s.mg with slot := {} } ∧ t.clock.now = max s.clock.now d

/-- CLEAR_HISTORY (R129). With SERVICE rights, where the store can take the jobs that are missing: every slot is empty, the next slot is 0, so that a raising appends there, the next sequence number is kept, the re-offer marks are clear, every history page's job stands, and the answer is DONE; where it cannot, the answer is BUSY and the ring is unchanged. With other rights it is DENIED and the ring unchanged. The active list, the escalation lists, the lockout record and the reset history are not changed by it; in a poll the reply that carried it has cleared BUS_FAULT (R139). Model's choices: a request with no exchange in flight is taken as a command of its own (log 6). -/
def Obligations.ClearHistoryEmptiesTheRing : Prop :=
  ∀ (s : State) (node : Nat) (tag : Byte), Requests s node → (s.bs.state = .lockout ∨ RelaysOpen s) → QueueFits s →
    let u := requestState node s
    let missing := historyPages.filter fun p => !s.jobWaiting p
    ∃ t, exec (.clearHistory node tag) s = .next t
      ∧ t.fm.active = (if s.pe.round.inFlight = none then u else busFaultClear u).fm.active
      ∧ t.fm.esc = u.fm.esc ∧ t.fm.lockout = u.fm.lockout ∧ t.fm.resets = u.fm.resets
      ∧ t.fm.nextSeq = s.fm.nextSeq
      ∧ (s.rightsOf node = .service → missing.length + s.st.jobs.length ≤ 16 →
          answered t node tag 8 .done [] ∧ t.fm.ring = List.replicate 32 none ∧ t.fm.nextSlot = 0
            ∧ t.fm.rePages = List.replicate 8 false ∧ ∀ p ∈ historyPages, JobStands t p)
      ∧ (s.rightsOf node = .service → 16 < missing.length + s.st.jobs.length →
          answered t node tag 8 .busy [] ∧ t.fm.ring = s.fm.ring ∧ t.fm.nextSlot = s.fm.nextSlot
            ∧ t.fm.rePages = s.fm.rePages)
      ∧ (s.rightsOf node ≠ .service →
          answered t node tag 8 .denied [] ∧ t.fm.ring = s.fm.ring ∧ t.fm.nextSlot = s.fm.nextSlot
            ∧ t.fm.rePages = s.fm.rePages)

/-- RESTART (R189): with rights below SERVICE it is answered DENIED, with the burner neither in STANDBY nor in LOCKOUT REFUSED_STATE, and otherwise DONE with the restart mark set. RESTART_PROCEED, once the closing outcome is taken and the store has no job and no write: every volatile state takes its power-on value, and the stored pages are kept. Without the restart mark, in the closing phase, or while a page write is in progress or a job waits, the lockout page's among them, it waits: nothing changes. Model's choices: the values of State.reset that no rule gives are named in log 5; a request with no exchange in flight is taken as a command of its own (log 6); reset values that no rule gives are the model's (log 7); RESTART_PROCEED is a step of its own (log 18). -/
def Obligations.RestartWaitsForTheStore : Prop :=
  ∀ (s : State) (node : Nat) (tag : Byte),
    (Requests s node → ∃ t, exec (.restart node tag) s = .next t
      ∧ (s.rightsOf node ≠ .service → answered t node tag 9 .denied [] ∧ t.mg.restart = s.mg.restart)
      ∧ (s.rightsOf node = .service →
          ((requestState node s).bs.state = .standby ∨ (requestState node s).bs.state = .lockout) →
          answered t node tag 9 .done [] ∧ t.mg.restart = true)
      ∧ (s.rightsOf node = .service → (requestState node s).bs.state ≠ .standby →
          (requestState node s).bs.state ≠ .lockout →
          answered t node tag 9 .refusedState [] ∧ t.mg.restart = s.mg.restart))
    ∧ (s.power = .on → s.mg.restart = true → s.inPhase .closing = false → s.st.write = none → s.st.jobs = [] →
        s.st.lockJob = false → ∃ t, exec .restartProceed s = .next t
          ∧ t = { State.reset with
              pending := s.pending, clock := s.clock, lines := s.lines, nv := s.nv, free := s.free })
    ∧ (s.power = .on →
        (s.mg.restart = false ∨ s.inPhase .closing = true ∨ s.st.write ≠ none ∨ s.st.jobs ≠ [] ∨ s.st.lockJob = true) →
        exec .restartProceed s = .next s)

/-! ### Store -/

/-- PAGE_WRITE_END (R193, R195 to R197). A good verify: the page holds the copy and every other page its bytes, and STORE_FAULT's marker is clear; with page 7 of a commit the commit is complete: the live block is the staging image, COMMIT_HOLD is gone (R182). A failed first attempt: the same copy is tried again for 6 ms and nothing else changes. A failed second attempt: the write is dropped, STORE_FAULT is raised with the page, every other page keeps its bytes, and of a commit no job is left, the commit FAILED at that page and the live block as it was (R183). Model's choices: times are those of the model clock (log 1); an expiry asserts the end of the running timer (log 2); what the end of an event may add, AtEnd or the departure from STANDBY, is log 9; the slots B are physical pages of the model (log 20). -/
def Obligations.PageWritesEndInTheStore : Prop :=
  ∀ (s : State) (w : Write), s.power = .on → s.st.write = some w → s.nv.wf = true →
    (w.copy.length = 32 → ∃ t, exec (.pageWriteEnd true) s = .next t
      ∧ (∀ i < 32, t.nv.read (32 * physPage w.page w.slotB + i) = w.copy.getD i 0)
      ∧ (∀ a, a / 32 ≠ physPage w.page w.slotB → t.nv.read a = s.nv.read a)
      ∧ t.nv.complete (physPage w.page w.slotB) = true ∧ t.st.storeFault = false
      ∧ (w.commit = true → w.page = 7 →
          t.st.safety = s.mg.staging ∧ t.mg.commit = .done ∧ t.mg.inconsistent = false ∧ t.mg.modified = false
            ∧ t.bs.inhibit.commitHold = false ∧ t.st.paramFault = false))
    ∧ (w.attempt < 2 → s.mayStart = false → ∃ t, exec (.pageWriteEnd false) s = .next t
      ∧ AtEnd { s with
          st := { s.st with write := some { w with attempt := 2, due := max s.clock.now w.due + Config.tPage } }
          clock := { s.clock with now := max s.clock.now w.due } } t
      ∧ t.st.write = some { w with attempt := 2, due := max s.clock.now w.due + Config.tPage }
      ∧ t.st.jobs = s.st.jobs ∧ t.st.lockJob = s.st.lockJob ∧ t.nv = s.nv)
    ∧ (2 ≤ w.attempt → ∃ t, exec (.pageWriteEnd false) s = .next t
      ∧ (∀ a, a / 32 ≠ physPage w.page w.slotB → t.nv.read a = s.nv.read a)
      ∧ t.st.storeFault = true ∧ t.st.lastDrop = some w.page ∧ t.st.dropAt = some s.time
      ∧ (∃ r ∈ t.fm.active, r.source = .storeFault ∧ r.detail = w.page)
      ∧ (w.commit = true →
          t.mg.commit = .failed ∧ t.mg.failedPage = some w.page ∧ t.mg.inconsistent = true
            ∧ t.bs.inhibit.commitHold = false ∧ (∀ j ∈ t.st.jobs, j.commit = false) ∧ t.st.safety = s.st.safety))

/-- The completion of a lockout reset (R49, R124): the good end of a write of page 8 whose copy carried NONE, with the record RESET_PENDING. The record is NONE, no LOCKOUT record is left in the active list and no time in an escalation list, and the burner has left LOCKOUT with its counts at 0: it has gone on to PRE_CHECK where the request is active and no reason of the start-inhibit set holds a start back, the retry mark counted as before (R24, R26), and is in STANDBY otherwise. Model's choices: what the end of an event may add, AtEnd or the departure from STANDBY, is log 9. -/
def Obligations.ResetCompletionLeavesLockout : Prop :=
  ∀ (s : State) (w : Write), s.power = .on → s.st.write = some w → w.page = 8 → w.carried = .none → w.commit = false →
    s.fm.lockout.state = .resetPending → SafeBurner s → RelaysOpen s →
    ∃ t, exec (.pageWriteEnd true) s = .next t
      ∧ t.fm.lockout = {} ∧ (∀ r ∈ t.fm.active, r.cls ≠ .lockout) ∧ t.fm.esc = List.replicate 26 []
      ∧ t.bs.state = (if t.dm.active = true ∧ { t with bs := { t.bs with retry := s.bs.retry } }.inhibited = false then .preCheck
          else .standby)
      ∧ t.bs.attempts = 0 ∧ t.bs.recycles = 0
      ∧ t.bs.gas1 = false ∧ t.bs.gas2 = false
end

