-- ==== Sys2Proof/Laws/State.lean ====
section
/-! SUPPORT. What each field of State is after an update of one block: one lemma per field per update, each true by unfolding. Later proofs use these and never unfold a record update. -/

namespace Sys2Proof.Machine

/-! ### onClock -/

section
variable (s : State) (f : Clock → Clock)
@[simp] theorem State.onClock_pending : (s.onClock f).pending = s.pending := rfl
@[simp] theorem State.onClock_power : (s.onClock f).power = s.power := rfl
@[simp] theorem State.onClock_clock : (s.onClock f).clock = f s.clock := rfl
@[simp] theorem State.onClock_lines : (s.onClock f).lines = s.lines := rfl
@[simp] theorem State.onClock_latch : (s.onClock f).latch = s.latch := rfl
@[simp] theorem State.onClock_mp : (s.onClock f).mp = s.mp := rfl
@[simp] theorem State.onClock_bs : (s.onClock f).bs = s.bs := rfl
@[simp] theorem State.onClock_dm : (s.onClock f).dm = s.dm := rfl
@[simp] theorem State.onClock_mu : (s.onClock f).mu = s.mu := rfl
@[simp] theorem State.onClock_fm : (s.onClock f).fm = s.fm := rfl
@[simp] theorem State.onClock_zp : (s.onClock f).zp = s.zp := rfl
@[simp] theorem State.onClock_pe : (s.onClock f).pe = s.pe := rfl
@[simp] theorem State.onClock_mg : (s.onClock f).mg = s.mg := rfl
@[simp] theorem State.onClock_st : (s.onClock f).st = s.st := rfl
@[simp] theorem State.onClock_nv : (s.onClock f).nv = s.nv := rfl
@[simp] theorem State.onClock_free : (s.onClock f).free = s.free := rfl
end

/-! ### onLines -/

section
variable (s : State) (f : Lines → Lines)
@[simp] theorem State.onLines_pending : (s.onLines f).pending = s.pending := rfl
@[simp] theorem State.onLines_power : (s.onLines f).power = s.power := rfl
@[simp] theorem State.onLines_clock : (s.onLines f).clock = s.clock := rfl
@[simp] theorem State.onLines_lines : (s.onLines f).lines = f s.lines := rfl
@[simp] theorem State.onLines_latch : (s.onLines f).latch = s.latch := rfl
@[simp] theorem State.onLines_mp : (s.onLines f).mp = s.mp := rfl
@[simp] theorem State.onLines_bs : (s.onLines f).bs = s.bs := rfl
@[simp] theorem State.onLines_dm : (s.onLines f).dm = s.dm := rfl
@[simp] theorem State.onLines_mu : (s.onLines f).mu = s.mu := rfl
@[simp] theorem State.onLines_fm : (s.onLines f).fm = s.fm := rfl
@[simp] theorem State.onLines_zp : (s.onLines f).zp = s.zp := rfl
@[simp] theorem State.onLines_pe : (s.onLines f).pe = s.pe := rfl
@[simp] theorem State.onLines_mg : (s.onLines f).mg = s.mg := rfl
@[simp] theorem State.onLines_st : (s.onLines f).st = s.st := rfl
@[simp] theorem State.onLines_nv : (s.onLines f).nv = s.nv := rfl
@[simp] theorem State.onLines_free : (s.onLines f).free = s.free := rfl
end

/-! ### onMp -/

section
variable (s : State) (f : Mp → Mp)
@[simp] theorem State.onMp_pending : (s.onMp f).pending = s.pending := rfl
@[simp] theorem State.onMp_power : (s.onMp f).power = s.power := rfl
@[simp] theorem State.onMp_clock : (s.onMp f).clock = s.clock := rfl
@[simp] theorem State.onMp_lines : (s.onMp f).lines = s.lines := rfl
@[simp] theorem State.onMp_latch : (s.onMp f).latch = s.latch := rfl
@[simp] theorem State.onMp_mp : (s.onMp f).mp = f s.mp := rfl
@[simp] theorem State.onMp_bs : (s.onMp f).bs = s.bs := rfl
@[simp] theorem State.onMp_dm : (s.onMp f).dm = s.dm := rfl
@[simp] theorem State.onMp_mu : (s.onMp f).mu = s.mu := rfl
@[simp] theorem State.onMp_fm : (s.onMp f).fm = s.fm := rfl
@[simp] theorem State.onMp_zp : (s.onMp f).zp = s.zp := rfl
@[simp] theorem State.onMp_pe : (s.onMp f).pe = s.pe := rfl
@[simp] theorem State.onMp_mg : (s.onMp f).mg = s.mg := rfl
@[simp] theorem State.onMp_st : (s.onMp f).st = s.st := rfl
@[simp] theorem State.onMp_nv : (s.onMp f).nv = s.nv := rfl
@[simp] theorem State.onMp_free : (s.onMp f).free = s.free := rfl
end

/-! ### onBs -/

section
variable (s : State) (f : Bs → Bs)
@[simp] theorem State.onBs_pending : (s.onBs f).pending = s.pending := rfl
@[simp] theorem State.onBs_power : (s.onBs f).power = s.power := rfl
@[simp] theorem State.onBs_clock : (s.onBs f).clock = s.clock := rfl
@[simp] theorem State.onBs_lines : (s.onBs f).lines = s.lines := rfl
@[simp] theorem State.onBs_latch : (s.onBs f).latch = s.latch := rfl
@[simp] theorem State.onBs_mp : (s.onBs f).mp = s.mp := rfl
@[simp] theorem State.onBs_bs : (s.onBs f).bs = f s.bs := rfl
@[simp] theorem State.onBs_dm : (s.onBs f).dm = s.dm := rfl
@[simp] theorem State.onBs_mu : (s.onBs f).mu = s.mu := rfl
@[simp] theorem State.onBs_fm : (s.onBs f).fm = s.fm := rfl
@[simp] theorem State.onBs_zp : (s.onBs f).zp = s.zp := rfl
@[simp] theorem State.onBs_pe : (s.onBs f).pe = s.pe := rfl
@[simp] theorem State.onBs_mg : (s.onBs f).mg = s.mg := rfl
@[simp] theorem State.onBs_st : (s.onBs f).st = s.st := rfl
@[simp] theorem State.onBs_nv : (s.onBs f).nv = s.nv := rfl
@[simp] theorem State.onBs_free : (s.onBs f).free = s.free := rfl
end

/-! ### onDm -/

section
variable (s : State) (f : Dm → Dm)
@[simp] theorem State.onDm_pending : (s.onDm f).pending = s.pending := rfl
@[simp] theorem State.onDm_power : (s.onDm f).power = s.power := rfl
@[simp] theorem State.onDm_clock : (s.onDm f).clock = s.clock := rfl
@[simp] theorem State.onDm_lines : (s.onDm f).lines = s.lines := rfl
@[simp] theorem State.onDm_latch : (s.onDm f).latch = s.latch := rfl
@[simp] theorem State.onDm_mp : (s.onDm f).mp = s.mp := rfl
@[simp] theorem State.onDm_bs : (s.onDm f).bs = s.bs := rfl
@[simp] theorem State.onDm_dm : (s.onDm f).dm = f s.dm := rfl
@[simp] theorem State.onDm_mu : (s.onDm f).mu = s.mu := rfl
@[simp] theorem State.onDm_fm : (s.onDm f).fm = s.fm := rfl
@[simp] theorem State.onDm_zp : (s.onDm f).zp = s.zp := rfl
@[simp] theorem State.onDm_pe : (s.onDm f).pe = s.pe := rfl
@[simp] theorem State.onDm_mg : (s.onDm f).mg = s.mg := rfl
@[simp] theorem State.onDm_st : (s.onDm f).st = s.st := rfl
@[simp] theorem State.onDm_nv : (s.onDm f).nv = s.nv := rfl
@[simp] theorem State.onDm_free : (s.onDm f).free = s.free := rfl
end

/-! ### onMu -/

section
variable (s : State) (f : Mu → Mu)
@[simp] theorem State.onMu_pending : (s.onMu f).pending = s.pending := rfl
@[simp] theorem State.onMu_power : (s.onMu f).power = s.power := rfl
@[simp] theorem State.onMu_clock : (s.onMu f).clock = s.clock := rfl
@[simp] theorem State.onMu_lines : (s.onMu f).lines = s.lines := rfl
@[simp] theorem State.onMu_latch : (s.onMu f).latch = s.latch := rfl
@[simp] theorem State.onMu_mp : (s.onMu f).mp = s.mp := rfl
@[simp] theorem State.onMu_bs : (s.onMu f).bs = s.bs := rfl
@[simp] theorem State.onMu_dm : (s.onMu f).dm = s.dm := rfl
@[simp] theorem State.onMu_mu : (s.onMu f).mu = f s.mu := rfl
@[simp] theorem State.onMu_fm : (s.onMu f).fm = s.fm := rfl
@[simp] theorem State.onMu_zp : (s.onMu f).zp = s.zp := rfl
@[simp] theorem State.onMu_pe : (s.onMu f).pe = s.pe := rfl
@[simp] theorem State.onMu_mg : (s.onMu f).mg = s.mg := rfl
@[simp] theorem State.onMu_st : (s.onMu f).st = s.st := rfl
@[simp] theorem State.onMu_nv : (s.onMu f).nv = s.nv := rfl
@[simp] theorem State.onMu_free : (s.onMu f).free = s.free := rfl
end

/-! ### onFm -/

section
variable (s : State) (f : Fm → Fm)
@[simp] theorem State.onFm_pending : (s.onFm f).pending = s.pending := rfl
@[simp] theorem State.onFm_power : (s.onFm f).power = s.power := rfl
@[simp] theorem State.onFm_clock : (s.onFm f).clock = s.clock := rfl
@[simp] theorem State.onFm_lines : (s.onFm f).lines = s.lines := rfl
@[simp] theorem State.onFm_latch : (s.onFm f).latch = s.latch := rfl
@[simp] theorem State.onFm_mp : (s.onFm f).mp = s.mp := rfl
@[simp] theorem State.onFm_bs : (s.onFm f).bs = s.bs := rfl
@[simp] theorem State.onFm_dm : (s.onFm f).dm = s.dm := rfl
@[simp] theorem State.onFm_mu : (s.onFm f).mu = s.mu := rfl
@[simp] theorem State.onFm_fm : (s.onFm f).fm = f s.fm := rfl
@[simp] theorem State.onFm_zp : (s.onFm f).zp = s.zp := rfl
@[simp] theorem State.onFm_pe : (s.onFm f).pe = s.pe := rfl
@[simp] theorem State.onFm_mg : (s.onFm f).mg = s.mg := rfl
@[simp] theorem State.onFm_st : (s.onFm f).st = s.st := rfl
@[simp] theorem State.onFm_nv : (s.onFm f).nv = s.nv := rfl
@[simp] theorem State.onFm_free : (s.onFm f).free = s.free := rfl
end

/-! ### onZp -/

section
variable (s : State) (f : Zp → Zp)
@[simp] theorem State.onZp_pending : (s.onZp f).pending = s.pending := rfl
@[simp] theorem State.onZp_power : (s.onZp f).power = s.power := rfl
@[simp] theorem State.onZp_clock : (s.onZp f).clock = s.clock := rfl
@[simp] theorem State.onZp_lines : (s.onZp f).lines = s.lines := rfl
@[simp] theorem State.onZp_latch : (s.onZp f).latch = s.latch := rfl
@[simp] theorem State.onZp_mp : (s.onZp f).mp = s.mp := rfl
@[simp] theorem State.onZp_bs : (s.onZp f).bs = s.bs := rfl
@[simp] theorem State.onZp_dm : (s.onZp f).dm = s.dm := rfl
@[simp] theorem State.onZp_mu : (s.onZp f).mu = s.mu := rfl
@[simp] theorem State.onZp_fm : (s.onZp f).fm = s.fm := rfl
@[simp] theorem State.onZp_zp : (s.onZp f).zp = f s.zp := rfl
@[simp] theorem State.onZp_pe : (s.onZp f).pe = s.pe := rfl
@[simp] theorem State.onZp_mg : (s.onZp f).mg = s.mg := rfl
@[simp] theorem State.onZp_st : (s.onZp f).st = s.st := rfl
@[simp] theorem State.onZp_nv : (s.onZp f).nv = s.nv := rfl
@[simp] theorem State.onZp_free : (s.onZp f).free = s.free := rfl
end

/-! ### onPe -/

section
variable (s : State) (f : Pe → Pe)
@[simp] theorem State.onPe_pending : (s.onPe f).pending = s.pending := rfl
@[simp] theorem State.onPe_power : (s.onPe f).power = s.power := rfl
@[simp] theorem State.onPe_clock : (s.onPe f).clock = s.clock := rfl
@[simp] theorem State.onPe_lines : (s.onPe f).lines = s.lines := rfl
@[simp] theorem State.onPe_latch : (s.onPe f).latch = s.latch := rfl
@[simp] theorem State.onPe_mp : (s.onPe f).mp = s.mp := rfl
@[simp] theorem State.onPe_bs : (s.onPe f).bs = s.bs := rfl
@[simp] theorem State.onPe_dm : (s.onPe f).dm = s.dm := rfl
@[simp] theorem State.onPe_mu : (s.onPe f).mu = s.mu := rfl
@[simp] theorem State.onPe_fm : (s.onPe f).fm = s.fm := rfl
@[simp] theorem State.onPe_zp : (s.onPe f).zp = s.zp := rfl
@[simp] theorem State.onPe_pe : (s.onPe f).pe = f s.pe := rfl
@[simp] theorem State.onPe_mg : (s.onPe f).mg = s.mg := rfl
@[simp] theorem State.onPe_st : (s.onPe f).st = s.st := rfl
@[simp] theorem State.onPe_nv : (s.onPe f).nv = s.nv := rfl
@[simp] theorem State.onPe_free : (s.onPe f).free = s.free := rfl
end

/-! ### onMg -/

section
variable (s : State) (f : Mg → Mg)
@[simp] theorem State.onMg_pending : (s.onMg f).pending = s.pending := rfl
@[simp] theorem State.onMg_power : (s.onMg f).power = s.power := rfl
@[simp] theorem State.onMg_clock : (s.onMg f).clock = s.clock := rfl
@[simp] theorem State.onMg_lines : (s.onMg f).lines = s.lines := rfl
@[simp] theorem State.onMg_latch : (s.onMg f).latch = s.latch := rfl
@[simp] theorem State.onMg_mp : (s.onMg f).mp = s.mp := rfl
@[simp] theorem State.onMg_bs : (s.onMg f).bs = s.bs := rfl
@[simp] theorem State.onMg_dm : (s.onMg f).dm = s.dm := rfl
@[simp] theorem State.onMg_mu : (s.onMg f).mu = s.mu := rfl
@[simp] theorem State.onMg_fm : (s.onMg f).fm = s.fm := rfl
@[simp] theorem State.onMg_zp : (s.onMg f).zp = s.zp := rfl
@[simp] theorem State.onMg_pe : (s.onMg f).pe = s.pe := rfl
@[simp] theorem State.onMg_mg : (s.onMg f).mg = f s.mg := rfl
@[simp] theorem State.onMg_st : (s.onMg f).st = s.st := rfl
@[simp] theorem State.onMg_nv : (s.onMg f).nv = s.nv := rfl
@[simp] theorem State.onMg_free : (s.onMg f).free = s.free := rfl
end

/-! ### onSt -/

section
variable (s : State) (f : St → St)
@[simp] theorem State.onSt_pending : (s.onSt f).pending = s.pending := rfl
@[simp] theorem State.onSt_power : (s.onSt f).power = s.power := rfl
@[simp] theorem State.onSt_clock : (s.onSt f).clock = s.clock := rfl
@[simp] theorem State.onSt_lines : (s.onSt f).lines = s.lines := rfl
@[simp] theorem State.onSt_latch : (s.onSt f).latch = s.latch := rfl
@[simp] theorem State.onSt_mp : (s.onSt f).mp = s.mp := rfl
@[simp] theorem State.onSt_bs : (s.onSt f).bs = s.bs := rfl
@[simp] theorem State.onSt_dm : (s.onSt f).dm = s.dm := rfl
@[simp] theorem State.onSt_mu : (s.onSt f).mu = s.mu := rfl
@[simp] theorem State.onSt_fm : (s.onSt f).fm = s.fm := rfl
@[simp] theorem State.onSt_zp : (s.onSt f).zp = s.zp := rfl
@[simp] theorem State.onSt_pe : (s.onSt f).pe = s.pe := rfl
@[simp] theorem State.onSt_mg : (s.onSt f).mg = s.mg := rfl
@[simp] theorem State.onSt_st : (s.onSt f).st = f s.st := rfl
@[simp] theorem State.onSt_nv : (s.onSt f).nv = s.nv := rfl
@[simp] theorem State.onSt_free : (s.onSt f).free = s.free := rfl
end

/-! ### onRound, onCyc, and the clock -/

section
variable (s : State)
@[simp] theorem State.onRound_pending (f : Round → Round) : (s.onRound f).pending = s.pending := rfl
@[simp] theorem State.onRound_power (f : Round → Round) : (s.onRound f).power = s.power := rfl
@[simp] theorem State.onRound_clock (f : Round → Round) : (s.onRound f).clock = s.clock := rfl
@[simp] theorem State.onRound_lines (f : Round → Round) : (s.onRound f).lines = s.lines := rfl
@[simp] theorem State.onRound_latch (f : Round → Round) : (s.onRound f).latch = s.latch := rfl
@[simp] theorem State.onRound_mp (f : Round → Round) : (s.onRound f).mp = s.mp := rfl
@[simp] theorem State.onRound_bs (f : Round → Round) : (s.onRound f).bs = s.bs := rfl
@[simp] theorem State.onRound_dm (f : Round → Round) : (s.onRound f).dm = s.dm := rfl
@[simp] theorem State.onRound_mu (f : Round → Round) : (s.onRound f).mu = s.mu := rfl
@[simp] theorem State.onRound_fm (f : Round → Round) : (s.onRound f).fm = s.fm := rfl
@[simp] theorem State.onRound_zp (f : Round → Round) : (s.onRound f).zp = s.zp := rfl
@[simp] theorem State.onRound_pe (f : Round → Round) : (s.onRound f).pe = { s.pe with round := f s.pe.round } := rfl
@[simp] theorem State.onRound_mg (f : Round → Round) : (s.onRound f).mg = s.mg := rfl
@[simp] theorem State.onRound_st (f : Round → Round) : (s.onRound f).st = s.st := rfl
@[simp] theorem State.onRound_nv (f : Round → Round) : (s.onRound f).nv = s.nv := rfl
@[simp] theorem State.onRound_free (f : Round → Round) : (s.onRound f).free = s.free := rfl
@[simp] theorem State.onCyc_pending (f : Cycle → Cycle) : (s.onCyc f).pending = s.pending := rfl
@[simp] theorem State.onCyc_power (f : Cycle → Cycle) : (s.onCyc f).power = s.power := rfl
@[simp] theorem State.onCyc_clock (f : Cycle → Cycle) : (s.onCyc f).clock = s.clock := rfl
@[simp] theorem State.onCyc_lines (f : Cycle → Cycle) : (s.onCyc f).lines = s.lines := rfl
@[simp] theorem State.onCyc_latch (f : Cycle → Cycle) : (s.onCyc f).latch = s.latch := rfl
@[simp] theorem State.onCyc_mp (f : Cycle → Cycle) : (s.onCyc f).mp = s.mp := rfl
@[simp] theorem State.onCyc_bs (f : Cycle → Cycle) : (s.onCyc f).bs = s.bs := rfl
@[simp] theorem State.onCyc_dm (f : Cycle → Cycle) : (s.onCyc f).dm = s.dm := rfl
@[simp] theorem State.onCyc_mu (f : Cycle → Cycle) : (s.onCyc f).mu = { s.mu with cyc := f s.mu.cyc } := rfl
@[simp] theorem State.onCyc_fm (f : Cycle → Cycle) : (s.onCyc f).fm = s.fm := rfl
@[simp] theorem State.onCyc_zp (f : Cycle → Cycle) : (s.onCyc f).zp = s.zp := rfl
@[simp] theorem State.onCyc_pe (f : Cycle → Cycle) : (s.onCyc f).pe = s.pe := rfl
@[simp] theorem State.onCyc_mg (f : Cycle → Cycle) : (s.onCyc f).mg = s.mg := rfl
@[simp] theorem State.onCyc_st (f : Cycle → Cycle) : (s.onCyc f).st = s.st := rfl
@[simp] theorem State.onCyc_nv (f : Cycle → Cycle) : (s.onCyc f).nv = s.nv := rfl
@[simp] theorem State.onCyc_free (f : Cycle → Cycle) : (s.onCyc f).free = s.free := rfl
@[simp] theorem State.advance_pending (dt : Nat) : (s.advance dt).pending = s.pending := rfl
@[simp] theorem State.advance_power (dt : Nat) : (s.advance dt).power = s.power := rfl
@[simp] theorem State.advance_clock (dt : Nat) : (s.advance dt).clock = { s.clock with now := s.clock.now + dt } := rfl
@[simp] theorem State.advance_lines (dt : Nat) : (s.advance dt).lines = s.lines := rfl
@[simp] theorem State.advance_latch (dt : Nat) : (s.advance dt).latch = s.latch := rfl
@[simp] theorem State.advance_mp (dt : Nat) : (s.advance dt).mp = s.mp := rfl
@[simp] theorem State.advance_bs (dt : Nat) : (s.advance dt).bs = s.bs := rfl
@[simp] theorem State.advance_dm (dt : Nat) : (s.advance dt).dm = s.dm := rfl
@[simp] theorem State.advance_mu (dt : Nat) : (s.advance dt).mu = s.mu := rfl
@[simp] theorem State.advance_fm (dt : Nat) : (s.advance dt).fm = s.fm := rfl
@[simp] theorem State.advance_zp (dt : Nat) : (s.advance dt).zp = s.zp := rfl
@[simp] theorem State.advance_pe (dt : Nat) : (s.advance dt).pe = s.pe := rfl
@[simp] theorem State.advance_mg (dt : Nat) : (s.advance dt).mg = s.mg := rfl
@[simp] theorem State.advance_st (dt : Nat) : (s.advance dt).st = s.st := rfl
@[simp] theorem State.advance_nv (dt : Nat) : (s.advance dt).nv = s.nv := rfl
@[simp] theorem State.advance_free (dt : Nat) : (s.advance dt).free = s.free := rfl
@[simp] theorem State.reach_pending (t : Nat) : (s.reach t).pending = s.pending := rfl
@[simp] theorem State.reach_power (t : Nat) : (s.reach t).power = s.power := rfl
@[simp] theorem State.reach_clock (t : Nat) : (s.reach t).clock = { s.clock with now := max s.clock.now t } := rfl
@[simp] theorem State.reach_lines (t : Nat) : (s.reach t).lines = s.lines := rfl
@[simp] theorem State.reach_latch (t : Nat) : (s.reach t).latch = s.latch := rfl
@[simp] theorem State.reach_mp (t : Nat) : (s.reach t).mp = s.mp := rfl
@[simp] theorem State.reach_bs (t : Nat) : (s.reach t).bs = s.bs := rfl
@[simp] theorem State.reach_dm (t : Nat) : (s.reach t).dm = s.dm := rfl
@[simp] theorem State.reach_mu (t : Nat) : (s.reach t).mu = s.mu := rfl
@[simp] theorem State.reach_fm (t : Nat) : (s.reach t).fm = s.fm := rfl
@[simp] theorem State.reach_zp (t : Nat) : (s.reach t).zp = s.zp := rfl
@[simp] theorem State.reach_pe (t : Nat) : (s.reach t).pe = s.pe := rfl
@[simp] theorem State.reach_mg (t : Nat) : (s.reach t).mg = s.mg := rfl
@[simp] theorem State.reach_st (t : Nat) : (s.reach t).st = s.st := rfl
@[simp] theorem State.reach_nv (t : Nat) : (s.reach t).nv = s.nv := rfl
@[simp] theorem State.reach_free (t : Nat) : (s.reach t).free = s.free := rfl
@[simp] theorem State.onZone_pending (z : Nat) (f : Zone → Zone) : (s.onZone z f).pending = s.pending := rfl
@[simp] theorem State.onZone_power (z : Nat) (f : Zone → Zone) : (s.onZone z f).power = s.power := rfl
@[simp] theorem State.onZone_clock (z : Nat) (f : Zone → Zone) : (s.onZone z f).clock = s.clock := rfl
@[simp] theorem State.onZone_lines (z : Nat) (f : Zone → Zone) : (s.onZone z f).lines = s.lines := rfl
@[simp] theorem State.onZone_latch (z : Nat) (f : Zone → Zone) : (s.onZone z f).latch = s.latch := rfl
@[simp] theorem State.onZone_mp (z : Nat) (f : Zone → Zone) : (s.onZone z f).mp = s.mp := rfl
@[simp] theorem State.onZone_bs (z : Nat) (f : Zone → Zone) : (s.onZone z f).bs = s.bs := rfl
@[simp] theorem State.onZone_dm (z : Nat) (f : Zone → Zone) : (s.onZone z f).dm = { s.dm with zones := updateAt s.dm.zones z f } := rfl
@[simp] theorem State.onZone_mu (z : Nat) (f : Zone → Zone) : (s.onZone z f).mu = s.mu := rfl
@[simp] theorem State.onZone_fm (z : Nat) (f : Zone → Zone) : (s.onZone z f).fm = s.fm := rfl
@[simp] theorem State.onZone_zp (z : Nat) (f : Zone → Zone) : (s.onZone z f).zp = s.zp := rfl
@[simp] theorem State.onZone_pe (z : Nat) (f : Zone → Zone) : (s.onZone z f).pe = s.pe := rfl
@[simp] theorem State.onZone_mg (z : Nat) (f : Zone → Zone) : (s.onZone z f).mg = s.mg := rfl
@[simp] theorem State.onZone_st (z : Nat) (f : Zone → Zone) : (s.onZone z f).st = s.st := rfl
@[simp] theorem State.onZone_nv (z : Nat) (f : Zone → Zone) : (s.onZone z f).nv = s.nv := rfl
@[simp] theorem State.onZone_free (z : Nat) (f : Zone → Zone) : (s.onZone z f).free = s.free := rfl
@[simp] theorem State.onNode_pending (a : Nat) (f : NodeLive → NodeLive) : (s.onNode a f).pending = s.pending := rfl
@[simp] theorem State.onNode_power (a : Nat) (f : NodeLive → NodeLive) : (s.onNode a f).power = s.power := rfl
@[simp] theorem State.onNode_clock (a : Nat) (f : NodeLive → NodeLive) : (s.onNode a f).clock = s.clock := rfl
@[simp] theorem State.onNode_lines (a : Nat) (f : NodeLive → NodeLive) : (s.onNode a f).lines = s.lines := rfl
@[simp] theorem State.onNode_latch (a : Nat) (f : NodeLive → NodeLive) : (s.onNode a f).latch = s.latch := rfl
@[simp] theorem State.onNode_mp (a : Nat) (f : NodeLive → NodeLive) : (s.onNode a f).mp = s.mp := rfl
@[simp] theorem State.onNode_bs (a : Nat) (f : NodeLive → NodeLive) : (s.onNode a f).bs = s.bs := rfl
@[simp] theorem State.onNode_dm (a : Nat) (f : NodeLive → NodeLive) : (s.onNode a f).dm = s.dm := rfl
@[simp] theorem State.onNode_mu (a : Nat) (f : NodeLive → NodeLive) : (s.onNode a f).mu = s.mu := rfl
@[simp] theorem State.onNode_fm (a : Nat) (f : NodeLive → NodeLive) : (s.onNode a f).fm = s.fm := rfl
@[simp] theorem State.onNode_zp (a : Nat) (f : NodeLive → NodeLive) : (s.onNode a f).zp = s.zp := rfl
@[simp] theorem State.onNode_pe (a : Nat) (f : NodeLive → NodeLive) : (s.onNode a f).pe = { s.pe with nodes := updateAt s.pe.nodes (a - 1) f } := rfl
@[simp] theorem State.onNode_mg (a : Nat) (f : NodeLive → NodeLive) : (s.onNode a f).mg = s.mg := rfl
@[simp] theorem State.onNode_st (a : Nat) (f : NodeLive → NodeLive) : (s.onNode a f).st = s.st := rfl
@[simp] theorem State.onNode_nv (a : Nat) (f : NodeLive → NodeLive) : (s.onNode a f).nv = s.nv := rfl
@[simp] theorem State.onNode_free (a : Nat) (f : NodeLive → NodeLive) : (s.onNode a f).free = s.free := rfl
end

end Sys2Proof.Machine
end

