-- ==== Sys2Proof/Laws/Frames.lean ====
section
/-! SUPPORT. What the operations of BS, DM, MU and FM leave alone, said once for each operation: everything that `State.outer` keeps. -/

namespace Sys2Proof.Machine

/-- The state with the parts that the operations of BS, DM, MU and FM may change blotted out: those four blocks, the urgent queue and the lead code in PE, the counters and waiting jobs in ST, and the free-value counter. -/
def State.outer (s : State) : State :=
  { s with
    bs := {}, dm := {}, mu := {}, fm := {}, free := 0
    pe := { s.pe with leadCode := 0, urgent := [] }
    st := { s.st with counters := [], jobs := [], lockJob := false, countersPending := false } }

@[simp] theorem State.onBs_outer (s : State) (f : Bs → Bs) : (s.onBs f).outer = s.outer := rfl
@[simp] theorem State.onDm_outer (s : State) (f : Dm → Dm) : (s.onDm f).outer = s.outer := rfl
@[simp] theorem State.onMu_outer (s : State) (f : Mu → Mu) : (s.onMu f).outer = s.outer := rfl
@[simp] theorem State.onFm_outer (s : State) (f : Fm → Fm) : (s.onFm f).outer = s.outer := rfl
@[simp] theorem State.onZone_outer (s : State) (z : Nat) (f : Zone → Zone) : (s.onZone z f).outer = s.outer := rfl
@[simp] theorem State.onCyc_outer (s : State) (f : Cycle → Cycle) : (s.onCyc f).outer = s.outer := rfl

/-- A fold of steps that each keep the outer part keeps it. -/
theorem foldl_outer {α : Type} (f : State → α → State) (h : ∀ s a, (f s a).outer = s.outer) (l : List α) (s : State) :
    (l.foldl f s).outer = s.outer := by
  induction l generalizing s with
  | nil => rfl
  | cons a l ih => simp [ih, h]

/-! ### Ops -/

@[simp] theorem State.offer_outer (s : State) (page : Nat) : (State.offer s page).outer = s.outer := by
  simp only [State.offer]
  repeat' split
  all_goals rfl

@[simp] theorem State.offerCounters_outer (s : State) : (State.offerCounters s).outer = s.outer := by
  simp only [State.offerCounters]
  split
  · simp
  · rfl

@[simp] theorem State.bump_outer (s : State) (i : Nat) : (State.bump s i).outer = s.outer := rfl

/-! ### Flags -/

@[simp] theorem State.setBlocking_outer (s : State) (v : Bool) : (State.setBlocking s v).outer = s.outer := rfl

@[simp] theorem State.setCommitHold_outer (s : State) (v : Bool) : (State.setCommitHold s v).outer = s.outer := rfl

@[simp] theorem State.setStartUp_outer (s : State) (v : Bool) : (State.setStartUp s v).outer = s.outer := rfl

@[simp] theorem State.setAntiCycle_outer (s : State) (v : Bool) : (State.setAntiCycle s v).outer = s.outer := rfl

@[simp] theorem State.setCond_outer (s : State) (src : Source) : (State.setCond s src).outer = s.outer := rfl

@[simp] theorem State.clearCond_outer (s : State) (src : Source) : (State.clearCond s src).outer = s.outer := rfl

/-! ### Modulation -/

@[simp] theorem muStage1_outer (s : State) : (muStage1 s).outer = s.outer := by
  simp only [muStage1]
  split <;> rfl

@[simp] theorem muCompute_outer (s0 : State) : (muCompute s0).outer = s0.outer := by simp [muCompute]

@[simp] theorem muPending_outer (s : State) : (muPending s).outer = s.outer := rfl

@[simp] theorem onPhaseStart_outer (s : State) : (onPhaseStart s).outer = s.outer := rfl

@[simp] theorem offPhaseStart_outer (s : State) : (offPhaseStart s).outer = s.outer := rfl

@[simp] theorem cycleInactive_outer (s : State) : (cycleInactive s).outer = s.outer := rfl

@[simp] theorem muPreset_outer (u : Nat) (s : State) : (muPreset u s).outer = s.outer := by
  simp only [muPreset]
  split <;> rfl

@[simp] theorem setFanTarget_outer (t : Nat) (s : State) : (setFanTarget t s).outer = s.outer := rfl

@[simp] theorem entryOutput_outer (u : Nat) (s : State) : (entryOutput u s).outer = s.outer := rfl

@[simp] theorem muRunEntry_outer (s : State) : (muRunEntry s).outer = s.outer := by
  simp only [muRunEntry]
  repeat' split
  all_goals simp

@[simp] theorem muStabiliseEntry_outer (s : State) : (muStabiliseEntry s).outer = s.outer := rfl

@[simp] theorem muReturn_outer (s : State) : (muReturn s).outer = s.outer := by
  simp only [muReturn]
  split <;> rfl

@[simp] theorem muLockout_outer (s : State) : (muLockout s).outer = s.outer := by
  simp only [muLockout]
  split <;> rfl

@[simp] theorem muCircuit_outer (old : Circuit) (s : State) : (muCircuit old s).outer = s.outer := by
  simp only [muCircuit]
  repeat' split
  all_goals simp

/-! ### Burner -/

@[simp] theorem setMismatch_outer (r : Relay) (t : Timer) (m : Bool) (s : State) : (setMismatch r t m s).outer = s.outer := rfl

@[simp] theorem mismatchSync_outer (r : Relay) (s : State) : (mismatchSync r s).outer = s.outer := by
  simp only [mismatchSync]
  repeat' split
  all_goals rfl

@[simp] theorem relaySync_outer (s : State) : (relaySync s).outer = s.outer := by simp [relaySync]

@[simp] theorem safeOff_outer (s : State) : (safeOff s).outer = s.outer := by
  simp only [safeOff]
  split <;> simp

@[simp] theorem antiCycleStart_outer (s : State) : (antiCycleStart s).outer = s.outer := by
  simp only [antiCycleStart]
  split <;> rfl

@[simp] theorem pumpOverrunStart_outer (s : State) : (pumpOverrunStart s).outer = s.outer := rfl

@[simp] theorem dmDeparture_outer (cause : Cause) (byOff : Bool) (s : State) : (dmDeparture cause byOff s).outer = s.outer := by
  simp only [dmDeparture]
  repeat' split
  all_goals simp

@[simp] theorem dmFiring_outer (s : State) : (dmFiring s).outer = s.outer := by
  simp only [dmFiring]
  split <;> rfl

@[simp] theorem bsReport_outer (was : Bool) (cause : Cause) (byOff : Bool) (s : State) : (bsReport was cause byOff s).outer = s.outer := by
  simp only [bsReport]
  repeat' split
  all_goals simp

@[simp] theorem bsMove_outer (st : BurnerState) (cause : Cause) (byOff : Bool) (s : State) : (bsMove st cause byOff s).outer = s.outer := by
  simp only [bsMove]
  split <;> simp

@[simp] theorem toStandby_outer (cause : Cause) (s : State) : (toStandby cause s).outer = s.outer := by simp [toStandby]

@[simp] theorem toPostPurge_outer (cause : Cause) (byOff : Bool) (retry : Bool) (s : State) : (toPostPurge cause byOff retry s).outer = s.outer := by simp [toPostPurge]

@[simp] theorem faultStop_outer (s : State) : (faultStop s).outer = s.outer := by
  simp only [faultStop]
  repeat' split
  all_goals simp

@[simp] theorem lockoutEntry_outer (src : Source) (s : State) : (lockoutEntry src s).outer = s.outer := by
  simp only [lockoutEntry]
  repeat' split
  all_goals simp

@[simp] theorem withdraw_outer (byOff : Bool) (s : State) : (withdraw byOff s).outer = s.outer := by
  simp only [withdraw]
  repeat' split
  all_goals simp

@[simp] theorem deliverRecord_outer (byOff : Bool) (s : State) : (deliverRecord byOff s).outer = s.outer := by
  simp only [deliverRecord]
  split <;> simp

@[simp] theorem toPrePurge_outer (s : State) : (toPrePurge s).outer = s.outer := by simp [toPrePurge]

@[simp] theorem toIgnition_outer (s : State) : (toIgnition s).outer = s.outer := by simp [toIgnition]

@[simp] theorem openGas_outer (s : State) : (openGas s).outer = s.outer := by simp [openGas]

@[simp] theorem toRun_outer (s : State) : (toRun s).outer = s.outer := by simp [toRun]

@[simp] theorem establishFlame_outer (s : State) : (establishFlame s).outer = s.outer := by
  simp only [establishFlame]
  split <;> simp

@[simp] theorem purgeStep_outer (s : State) : (purgeStep s).outer = s.outer := by
  simp only [purgeStep]
  repeat' split
  all_goals simp

@[simp] theorem fanControl_outer (s : State) : (fanControl s).outer = s.outer := rfl

/-! ### Faults -/

@[simp] theorem fmLead_outer (s : State) : (fmLead s).outer = s.outer := rfl

@[simp] theorem fmSync_outer (s : State) : (fmSync s).outer = s.outer := by
  simp only [fmSync]
  repeat' split
  all_goals simp

@[simp] theorem offerHistory_outer (page : Nat) (s : State) : (offerHistory page s).outer = s.outer := by
  simp only [offerHistory]
  split <;> simp

@[simp] theorem histAppend_outer (r : Record) (s : State) : (histAppend r s).outer = s.outer := by simp [histAppend]

@[simp] theorem queueLockoutPage_outer (s : State) : (queueLockoutPage s).outer = s.outer := rfl

@[simp] theorem lockActive_outer (src : Source) (s : State) : (lockActive src s).outer = s.outer := rfl

@[simp] theorem lockoutPath_outer (src : Source) (s : State) : (lockoutPath src s).outer = s.outer := by
  simp only [lockoutPath]
  split <;> simp

@[simp] theorem raiseEscalation_outer (src : Source) (s : State) : (raiseEscalation src s).outer = s.outer := by
  simp only [raiseEscalation]
  split <;> rfl

@[simp] theorem raiseRecord_outer (src : Source) (detail : Nat) (s : State) : (raiseRecord src detail s).outer = s.outer := by
  simp only [raiseRecord]
  repeat' split
  all_goals simp

@[simp] theorem raiseCondition_outer (src : Source) (s : State) : (raiseCondition src s).outer = s.outer := by
  simp only [raiseCondition]
  repeat' split
  all_goals rfl

@[simp] theorem escalateRecord_outer (src : Source) (s : State) : (escalateRecord src s).outer = s.outer := rfl

@[simp] theorem raiseClass_outer (src : Source) (s : State) : (raiseClass src s).outer = s.outer := by
  simp only [raiseClass]
  repeat' split
  all_goals simp

@[simp] theorem fmRaise_outer (src : Source) (detail : Nat) (s : State) : (fmRaise src detail s).outer = s.outer := by
  simp only [fmRaise]
  split <;> simp

@[simp] theorem removeRecord_outer (src : Source) (s : State) : (removeRecord src s).outer = s.outer := by
  simp only [removeRecord]
  repeat' split
  all_goals simp

@[simp] theorem fmClear_outer (src : Source) (s : State) : (fmClear src s).outer = s.outer := by simp [fmClear]

@[simp] theorem offerResets_outer (s : State) : (offerResets s).outer = s.outer := by
  simp only [offerResets]
  split <;> simp

@[simp] theorem resetAccept_outer (rights : Rights) (s : State) : (resetAccept rights s).outer = s.outer := by
  simp only [resetAccept]
  split <;> simp

@[simp] theorem fmReset_outer (rights : Rights) (origin : Origin) (s : State) : (fmReset rights origin s).outer = s.outer := by
  simp only [fmReset]
  repeat' split
  all_goals simp

@[simp] theorem resetComplete_outer (s : State) : (resetComplete s).outer = s.outer := by simp [resetComplete]

@[simp] theorem clearRing_outer (s : State) : (clearRing s).outer = s.outer := by
  simp only [clearRing]
  rw [foldl_outer _ (fun s p => State.offer_outer s p)]
  rfl

/-! ### Demand -/

@[simp] theorem changeCircuit_outer (new : Circuit) (s : State) : (changeCircuit new s).outer = s.outer := by
  simp only [changeCircuit]
  repeat' split
  all_goals simp

@[simp] theorem select_outer (s : State) : (select s).outer = s.outer := by simp [select]

@[simp] theorem placeValve_outer (z : Nat) (p : Position) (s : State) : (placeValve z p s).outer = s.outer := rfl

@[simp] theorem clearOverrun_outer (z : Nat) (s : State) : (clearOverrun z s).outer = s.outer := by
  simp only [clearOverrun]
  repeat' split
  all_goals simp

@[simp] theorem setValve_outer (z : Nat) (v : ValveState) (s : State) : (setValve z v s).outer = s.outer := by simp [setValve]

@[simp] theorem commandValve_outer (z : Nat) (p : Position) (s : State) : (commandValve z p s).outer = s.outer := by
  simp only [commandValve]
  split <;> simp

@[simp] theorem compareValve_outer (z : Nat) (s : State) : (compareValve z s).outer = s.outer := by
  simp only [compareValve]
  repeat' split
  all_goals simp

@[simp] theorem evaluateZone_outer (s : State) (z : Nat) : (evaluateZone s z).outer = s.outer := by
  simp only [evaluateZone]
  split <;> simp

@[simp] theorem refresh_outer (s : State) : (refresh s).outer = s.outer := by
  simp only [refresh]
  rw [foldl_outer _ (fun s z => evaluateZone_outer s z)]
  simp

@[simp] theorem valveArrived_outer (z : Nat) (v : ValveState) (s : State) : (valveArrived z v s).outer = s.outer := by simp [valveArrived]

@[simp] theorem valveResult_outer (z : Nat) (p : Position) (r : ValveResult) (s : State) : (valveResult z p r s).outer = s.outer := by
  simp only [valveResult]
  repeat' split
  all_goals simp

@[simp] theorem valveReport_outer (z : Nat) (node : Nat) (pos : Nat) (s : State) : (valveReport z node pos s).outer = s.outer := by
  simp only [valveReport]
  repeat' split
  all_goals simp

@[simp] theorem travelExpired_outer (z : Nat) (s : State) : (travelExpired z s).outer = s.outer := by
  simp only [travelExpired]
  repeat' split
  all_goals simp

@[simp] theorem reconcileZone_outer (s : State) (z : Nat) : (reconcileZone s z).outer = s.outer := by
  simp only [reconcileZone]
  split <;> simp

@[simp] theorem reconcile_outer (s : State) : (reconcile s).outer = s.outer := by
  simp only [reconcile]
  rw [foldl_outer _ (fun s z => reconcileZone_outer s z)]

@[simp] theorem enterFallback_outer (z : Nat) (s : State) : (enterFallback z s).outer = s.outer := rfl

@[simp] theorem applyDemand_outer (z : Nat) (setpoint : Int) (temp : Value) (flag : Bool) (s : State) : (applyDemand z setpoint temp flag s).outer = s.outer := by simp [applyDemand]

@[simp] theorem takeDemand_outer (node : Nat) (setpoint : Int) (temp : Value) (flag : Bool) (s : State) : (takeDemand node setpoint temp flag s).outer = s.outer := by
  simp only [takeDemand]
  split <;> simp

@[simp] theorem roomUnitAbsent_outer (node : Nat) (s : State) : (roomUnitAbsent node s).outer = s.outer := by
  simp only [roomUnitAbsent]
  split <;> simp

@[simp] theorem renewValve_outer (z : Nat) (s : State) : (renewValve z s).outer = s.outer := by simp [renewValve]

@[simp] theorem zoneWritten_outer (old : List Byte) (z : Nat) (s : State) : (zoneWritten old z s).outer = s.outer := by
  simp only [zoneWritten]
  repeat' split
  all_goals simp

@[simp] theorem nodeWrittenZone_outer (old : List Byte) (s : State) (z : Nat) : (nodeWrittenZone old s z).outer = s.outer := by
  simp only [nodeWrittenZone]
  repeat' split
  all_goals rfl

@[simp] theorem nodesWritten_outer (old : List Byte) (s : State) : (nodesWritten old s).outer = s.outer := by
  simp only [nodesWritten, refresh_outer]
  rw [foldl_outer _ (fun s z => nodeWrittenZone_outer old s z)]

@[simp] theorem divertSync_outer (s : State) : (divertSync s).outer = s.outer := rfl

@[simp] theorem frameFallback_outer (s : State) (z : Nat) : (frameFallback s z).outer = s.outer := by
  simp only [frameFallback]
  split <;> rfl

@[simp] theorem dmFrame_outer (s : State) : (dmFrame s).outer = s.outer := by
  simp only [dmFrame, refresh_outer, divertSync_outer, State.onDm_outer]
  rw [foldl_outer _ (fun s z => frameFallback_outer s z)]

@[simp] theorem antiCycleEnd_outer (s : State) : (antiCycleEnd s).outer = s.outer := rfl

@[simp] theorem antiCycleCheck_outer (s : State) : (antiCycleCheck s).outer = s.outer := by
  simp only [antiCycleCheck]
  repeat' split
  all_goals rfl

@[simp] theorem dmBusReset_outer (s : State) : (dmBusReset s).outer = s.outer := by
  simp only [dmBusReset, refresh_outer]
  split
  all_goals
    try rw [fmClear_outer]
    rw [foldl_outer]
    intro s z
    split <;> rfl

end Sys2Proof.Machine
end

