-- ==== Sys2Proof/Laws/Base.lean ====
section
/-! SUPPORT. What no event but a page write, a loss of power and the load may change, said once for each operation: everything that `State.base` keeps. -/

namespace Sys2Proof.Machine

/-- The queue of commands, the power, the store memory and the live safety block. -/
def State.base (s : State) : State :=
  { pending := s.outer.pending, power := s.outer.power, nv := s.outer.nv, st := { safety := s.outer.st.safety } }

section
variable (s : State)
@[simp] theorem State.onClock_base (f : Clock → Clock) : (s.onClock f).base = s.base := rfl
@[simp] theorem State.onLines_base (f : Lines → Lines) : (s.onLines f).base = s.base := rfl
@[simp] theorem State.onMp_base (f : Mp → Mp) : (s.onMp f).base = s.base := rfl
@[simp] theorem State.onBs_base (f : Bs → Bs) : (s.onBs f).base = s.base := rfl
@[simp] theorem State.onDm_base (f : Dm → Dm) : (s.onDm f).base = s.base := rfl
@[simp] theorem State.onMu_base (f : Mu → Mu) : (s.onMu f).base = s.base := rfl
@[simp] theorem State.onFm_base (f : Fm → Fm) : (s.onFm f).base = s.base := rfl
@[simp] theorem State.onZp_base (f : Zp → Zp) : (s.onZp f).base = s.base := rfl
@[simp] theorem State.onPe_base (f : Pe → Pe) : (s.onPe f).base = s.base := rfl
@[simp] theorem State.onMg_base (f : Mg → Mg) : (s.onMg f).base = s.base := rfl
@[simp] theorem State.onSt_base (f : St → St) (h : (f s.st).safety = s.st.safety) : (s.onSt f).base = s.base := by
  simp [State.base, State.outer, State.onSt, h]
@[simp] theorem State.onRound_base (f : Round → Round) : (s.onRound f).base = s.base := rfl
@[simp] theorem State.onCyc_base (f : Cycle → Cycle) : (s.onCyc f).base = s.base := rfl
@[simp] theorem State.onZone_base (z : Nat) (f : Zone → Zone) : (s.onZone z f).base = s.base := rfl
@[simp] theorem State.onNode_base (a : Nat) (f : NodeLive → NodeLive) : (s.onNode a f).base = s.base := rfl
@[simp] theorem State.onExch_base (f : Exchange → Exchange) : (s.onExch f).base = s.base := rfl
@[simp] theorem State.advance_base (dt : Nat) : (s.advance dt).base = s.base := rfl
@[simp] theorem State.reach_base (t : Nat) : (s.reach t).base = s.base := rfl
end

/-- An operation that keeps the outer part keeps the base. -/
theorem base_of_outer {t s : State} (h : t.outer = s.outer) : t.base = s.base := by simp [State.base, h]

/-- A fold of steps that each keep the base keeps it. -/
theorem foldl_base {α : Type} (f : State → α → State) (h : ∀ s a, (f s a).base = s.base) (l : List α) (s : State) :
    (l.foldl f s).base = s.base := by
  induction l generalizing s with
  | nil => rfl
  | cons a l ih => simp [ih, h]

/-! ### Ops -/

@[simp] theorem State.offer_base (s : State) (page : Nat) : (State.offer s page).base = s.base := base_of_outer (by simp)

@[simp] theorem State.offerCounters_base (s : State) : (State.offerCounters s).base = s.base := base_of_outer (by simp)

@[simp] theorem State.bump_base (s : State) (i : Nat) : (State.bump s i).base = s.base := base_of_outer (by simp)

/-! ### Flags -/

@[simp] theorem State.setBlocking_base (s : State) (v : Bool) : (State.setBlocking s v).base = s.base := base_of_outer (by simp)

@[simp] theorem State.setCommitHold_base (s : State) (v : Bool) : (State.setCommitHold s v).base = s.base := base_of_outer (by simp)

@[simp] theorem State.setStartUp_base (s : State) (v : Bool) : (State.setStartUp s v).base = s.base := base_of_outer (by simp)

@[simp] theorem State.setAntiCycle_base (s : State) (v : Bool) : (State.setAntiCycle s v).base = s.base := base_of_outer (by simp)

@[simp] theorem State.setCond_base (s : State) (src : Source) : (State.setCond s src).base = s.base := base_of_outer (by simp)

@[simp] theorem State.clearCond_base (s : State) (src : Source) : (State.clearCond s src).base = s.base := base_of_outer (by simp)

/-! ### Modulation -/

@[simp] theorem muStage1_base (s : State) : (muStage1 s).base = s.base := base_of_outer (by simp)

@[simp] theorem muCompute_base (s0 : State) : (muCompute s0).base = s0.base := base_of_outer (by simp)

@[simp] theorem muPending_base (s : State) : (muPending s).base = s.base := base_of_outer (by simp)

@[simp] theorem onPhaseStart_base (s : State) : (onPhaseStart s).base = s.base := base_of_outer (by simp)

@[simp] theorem offPhaseStart_base (s : State) : (offPhaseStart s).base = s.base := base_of_outer (by simp)

@[simp] theorem cycleInactive_base (s : State) : (cycleInactive s).base = s.base := base_of_outer (by simp)

@[simp] theorem muPreset_base (u : Nat) (s : State) : (muPreset u s).base = s.base := base_of_outer (by simp)

@[simp] theorem setFanTarget_base (t : Nat) (s : State) : (setFanTarget t s).base = s.base := base_of_outer (by simp)

@[simp] theorem entryOutput_base (u : Nat) (s : State) : (entryOutput u s).base = s.base := base_of_outer (by simp)

@[simp] theorem muRunEntry_base (s : State) : (muRunEntry s).base = s.base := base_of_outer (by simp)

@[simp] theorem muStabiliseEntry_base (s : State) : (muStabiliseEntry s).base = s.base := base_of_outer (by simp)

@[simp] theorem muReturn_base (s : State) : (muReturn s).base = s.base := base_of_outer (by simp)

@[simp] theorem muLockout_base (s : State) : (muLockout s).base = s.base := base_of_outer (by simp)

@[simp] theorem muCircuit_base (old : Circuit) (s : State) : (muCircuit old s).base = s.base := base_of_outer (by simp)

/-! ### Burner -/

@[simp] theorem setMismatch_base (r : Relay) (t : Timer) (m : Bool) (s : State) : (setMismatch r t m s).base = s.base := base_of_outer (by simp)

@[simp] theorem mismatchSync_base (r : Relay) (s : State) : (mismatchSync r s).base = s.base := base_of_outer (by simp)

@[simp] theorem relaySync_base (s : State) : (relaySync s).base = s.base := base_of_outer (by simp)

@[simp] theorem safeOff_base (s : State) : (safeOff s).base = s.base := base_of_outer (by simp)

@[simp] theorem antiCycleStart_base (s : State) : (antiCycleStart s).base = s.base := base_of_outer (by simp)

@[simp] theorem pumpOverrunStart_base (s : State) : (pumpOverrunStart s).base = s.base := base_of_outer (by simp)

@[simp] theorem dmDeparture_base (cause : Cause) (byOff : Bool) (s : State) : (dmDeparture cause byOff s).base = s.base := base_of_outer (by simp)

@[simp] theorem dmFiring_base (s : State) : (dmFiring s).base = s.base := base_of_outer (by simp)

@[simp] theorem bsReport_base (was : Bool) (cause : Cause) (byOff : Bool) (s : State) : (bsReport was cause byOff s).base = s.base := base_of_outer (by simp)

@[simp] theorem bsMove_base (st : BurnerState) (cause : Cause) (byOff : Bool) (s : State) : (bsMove st cause byOff s).base = s.base := base_of_outer (by simp)

@[simp] theorem toStandby_base (cause : Cause) (s : State) : (toStandby cause s).base = s.base := base_of_outer (by simp)

@[simp] theorem toPostPurge_base (cause : Cause) (byOff : Bool) (retry : Bool) (s : State) : (toPostPurge cause byOff retry s).base = s.base := base_of_outer (by simp)

@[simp] theorem faultStop_base (s : State) : (faultStop s).base = s.base := base_of_outer (by simp)

@[simp] theorem lockoutEntry_base (src : Source) (s : State) : (lockoutEntry src s).base = s.base := base_of_outer (by simp)

@[simp] theorem withdraw_base (byOff : Bool) (s : State) : (withdraw byOff s).base = s.base := base_of_outer (by simp)

@[simp] theorem deliverRecord_base (byOff : Bool) (s : State) : (deliverRecord byOff s).base = s.base := base_of_outer (by simp)

@[simp] theorem toPrePurge_base (s : State) : (toPrePurge s).base = s.base := base_of_outer (by simp)

@[simp] theorem toIgnition_base (s : State) : (toIgnition s).base = s.base := base_of_outer (by simp)

@[simp] theorem openGas_base (s : State) : (openGas s).base = s.base := base_of_outer (by simp)

@[simp] theorem toRun_base (s : State) : (toRun s).base = s.base := base_of_outer (by simp)

@[simp] theorem establishFlame_base (s : State) : (establishFlame s).base = s.base := base_of_outer (by simp)

@[simp] theorem purgeStep_base (s : State) : (purgeStep s).base = s.base := base_of_outer (by simp)

@[simp] theorem fanControl_base (s : State) : (fanControl s).base = s.base := base_of_outer (by simp)

/-! ### Faults -/

@[simp] theorem fmLead_base (s : State) : (fmLead s).base = s.base := base_of_outer (by simp)

@[simp] theorem fmSync_base (s : State) : (fmSync s).base = s.base := base_of_outer (by simp)

@[simp] theorem offerHistory_base (page : Nat) (s : State) : (offerHistory page s).base = s.base := base_of_outer (by simp)

@[simp] theorem histAppend_base (r : Record) (s : State) : (histAppend r s).base = s.base := base_of_outer (by simp)

@[simp] theorem queueLockoutPage_base (s : State) : (queueLockoutPage s).base = s.base := base_of_outer (by simp)

@[simp] theorem lockActive_base (src : Source) (s : State) : (lockActive src s).base = s.base := base_of_outer (by simp)

@[simp] theorem lockoutPath_base (src : Source) (s : State) : (lockoutPath src s).base = s.base := base_of_outer (by simp)

@[simp] theorem raiseEscalation_base (src : Source) (s : State) : (raiseEscalation src s).base = s.base := base_of_outer (by simp)

@[simp] theorem raiseRecord_base (src : Source) (detail : Nat) (s : State) : (raiseRecord src detail s).base = s.base := base_of_outer (by simp)

@[simp] theorem raiseCondition_base (src : Source) (s : State) : (raiseCondition src s).base = s.base := base_of_outer (by simp)

@[simp] theorem escalateRecord_base (src : Source) (s : State) : (escalateRecord src s).base = s.base := base_of_outer (by simp)

@[simp] theorem raiseClass_base (src : Source) (s : State) : (raiseClass src s).base = s.base := base_of_outer (by simp)

@[simp] theorem fmRaise_base (src : Source) (detail : Nat) (s : State) : (fmRaise src detail s).base = s.base := base_of_outer (by simp)

@[simp] theorem removeRecord_base (src : Source) (s : State) : (removeRecord src s).base = s.base := base_of_outer (by simp)

@[simp] theorem fmClear_base (src : Source) (s : State) : (fmClear src s).base = s.base := base_of_outer (by simp)

@[simp] theorem offerResets_base (s : State) : (offerResets s).base = s.base := base_of_outer (by simp)

@[simp] theorem resetAccept_base (rights : Rights) (s : State) : (resetAccept rights s).base = s.base := base_of_outer (by simp)

@[simp] theorem fmReset_base (rights : Rights) (origin : Origin) (s : State) : (fmReset rights origin s).base = s.base := base_of_outer (by simp)

@[simp] theorem resetComplete_base (s : State) : (resetComplete s).base = s.base := base_of_outer (by simp)

@[simp] theorem clearRing_base (s : State) : (clearRing s).base = s.base := base_of_outer (by simp)

/-! ### Demand -/

@[simp] theorem changeCircuit_base (new : Circuit) (s : State) : (changeCircuit new s).base = s.base := base_of_outer (by simp)

@[simp] theorem select_base (s : State) : (select s).base = s.base := base_of_outer (by simp)

@[simp] theorem placeValve_base (z : Nat) (p : Position) (s : State) : (placeValve z p s).base = s.base := base_of_outer (by simp)

@[simp] theorem clearOverrun_base (z : Nat) (s : State) : (clearOverrun z s).base = s.base := base_of_outer (by simp)

@[simp] theorem setValve_base (z : Nat) (v : ValveState) (s : State) : (setValve z v s).base = s.base := base_of_outer (by simp)

@[simp] theorem commandValve_base (z : Nat) (p : Position) (s : State) : (commandValve z p s).base = s.base := base_of_outer (by simp)

@[simp] theorem compareValve_base (z : Nat) (s : State) : (compareValve z s).base = s.base := base_of_outer (by simp)

@[simp] theorem evaluateZone_base (s : State) (z : Nat) : (evaluateZone s z).base = s.base := base_of_outer (by simp)

@[simp] theorem refresh_base (s : State) : (refresh s).base = s.base := base_of_outer (by simp)

@[simp] theorem valveArrived_base (z : Nat) (v : ValveState) (s : State) : (valveArrived z v s).base = s.base := base_of_outer (by simp)

@[simp] theorem valveResult_base (z : Nat) (p : Position) (r : ValveResult) (s : State) : (valveResult z p r s).base = s.base := base_of_outer (by simp)

@[simp] theorem valveReport_base (z : Nat) (node : Nat) (pos : Nat) (s : State) : (valveReport z node pos s).base = s.base := base_of_outer (by simp)

@[simp] theorem travelExpired_base (z : Nat) (s : State) : (travelExpired z s).base = s.base := base_of_outer (by simp)

@[simp] theorem reconcileZone_base (s : State) (z : Nat) : (reconcileZone s z).base = s.base := base_of_outer (by simp)

@[simp] theorem reconcile_base (s : State) : (reconcile s).base = s.base := base_of_outer (by simp)

@[simp] theorem enterFallback_base (z : Nat) (s : State) : (enterFallback z s).base = s.base := base_of_outer (by simp)

@[simp] theorem applyDemand_base (z : Nat) (setpoint : Int) (temp : Value) (flag : Bool) (s : State) : (applyDemand z setpoint temp flag s).base = s.base := base_of_outer (by simp)

@[simp] theorem takeDemand_base (node : Nat) (setpoint : Int) (temp : Value) (flag : Bool) (s : State) : (takeDemand node setpoint temp flag s).base = s.base := base_of_outer (by simp)

@[simp] theorem roomUnitAbsent_base (node : Nat) (s : State) : (roomUnitAbsent node s).base = s.base := base_of_outer (by simp)

@[simp] theorem renewValve_base (z : Nat) (s : State) : (renewValve z s).base = s.base := base_of_outer (by simp)

@[simp] theorem zoneWritten_base (old : List Byte) (z : Nat) (s : State) : (zoneWritten old z s).base = s.base := base_of_outer (by simp)

@[simp] theorem nodeWrittenZone_base (old : List Byte) (s : State) (z : Nat) : (nodeWrittenZone old s z).base = s.base := base_of_outer (by simp)

@[simp] theorem nodesWritten_base (old : List Byte) (s : State) : (nodesWritten old s).base = s.base := base_of_outer (by simp)

@[simp] theorem divertSync_base (s : State) : (divertSync s).base = s.base := base_of_outer (by simp)

@[simp] theorem frameFallback_base (s : State) (z : Nat) : (frameFallback s z).base = s.base := base_of_outer (by simp)

@[simp] theorem dmFrame_base (s : State) : (dmFrame s).base = s.base := base_of_outer (by simp)

@[simp] theorem antiCycleEnd_base (s : State) : (antiCycleEnd s).base = s.base := base_of_outer (by simp)

@[simp] theorem antiCycleCheck_base (s : State) : (antiCycleCheck s).base = s.base := base_of_outer (by simp)

@[simp] theorem dmBusReset_base (s : State) : (dmBusReset s).base = s.base := base_of_outer (by simp)

/-! ### Measure -/

@[simp] theorem measure_base (f : Frame) (s : State) : (measure f s).base = s.base := rfl

@[simp] theorem channelEvent_base (old : Mp) (s : State) (c : Chan) : (channelEvent old s c).base = s.base := by
  simp only [channelEvent]
  repeat' split
  all_goals simp

@[simp] theorem disagreeReached_base (s : State) : (disagreeReached s).base = s.base := by simp [disagreeReached]

@[simp] theorem disagreeStep_base (s : State) : (disagreeStep s).base = s.base := by
  simp only [disagreeStep]
  repeat' split
  all_goals simp

@[simp] theorem lowPressureStep_base (s : State) : (lowPressureStep s).base = s.base := by
  simp only [lowPressureStep]
  repeat' split
  all_goals simp

@[simp] theorem highPressureStep_base (s : State) : (highPressureStep s).base = s.base := by
  simp only [highPressureStep]
  repeat' split
  all_goals simp

@[simp] theorem flueHighStep_base (s : State) : (flueHighStep s).base = s.base := by
  simp only [flueHighStep]
  repeat' split
  all_goals simp

@[simp] theorem circulationReached_base (s : State) : (circulationReached s).base = s.base := by simp [circulationReached]

@[simp] theorem circulationStep_base (s : State) : (circulationStep s).base = s.base := by
  simp only [circulationStep]
  repeat' split
  all_goals simp

@[simp] theorem measureEvents_base (old : Mp) (s : State) : (measureEvents old s).base = s.base := by
  simp only [measureEvents, circulationStep_base, flueHighStep_base, highPressureStep_base, lowPressureStep_base, disagreeStep_base]
  rw [foldl_base _ (fun s c => channelEvent_base old s c)]

@[simp] theorem flameOnEvent_base (s : State) : (flameOnEvent s).base = s.base := by
  simp only [flameOnEvent]
  repeat' split
  all_goals simp

@[simp] theorem flameLossEvent_base (s : State) : (flameLossEvent s).base = s.base := by
  simp only [flameLossEvent]
  repeat' split
  all_goals simp

/-! ### ModFrame -/

@[simp] theorem endOnPhase_base (s : State) : (endOnPhase s).base = s.base := by simp [endOnPhase]

@[simp] theorem endOffPhase_base (s : State) : (endOffPhase s).base = s.base := by simp [endOffPhase]

@[simp] theorem countPhase_base (s : State) : (countPhase s).base = s.base := by simp [countPhase]

@[simp] theorem onPhaseFrame_base (count : Bool) (s : State) : (onPhaseFrame count s).base = s.base := by
  simp only [onPhaseFrame]
  repeat' split
  all_goals simp

@[simp] theorem offPhaseFrame_base (s : State) : (offPhaseFrame s).base = s.base := by
  simp only [offPhaseFrame]
  repeat' split
  all_goals simp

@[simp] theorem chStopFrame_base (s : State) : (chStopFrame s).base = s.base := by
  simp only [chStopFrame]
  repeat' split
  all_goals simp

@[simp] theorem dhwStopFrame_base (s : State) : (dhwStopFrame s).base = s.base := by
  simp only [dhwStopFrame]
  repeat' split
  all_goals simp

@[simp] theorem chCycleFrame_base (s : State) : (chCycleFrame s).base = s.base := by
  simp only [chCycleFrame]
  repeat' split
  all_goals simp

@[simp] theorem deliverOutput_base (s : State) : (deliverOutput s).base = s.base := rfl

@[simp] theorem muFrame_base (s0 : State) : (muFrame s0).base = s0.base := by
  simp only [muFrame]
  repeat' split
  all_goals simp

/-! ### Frame -/

@[simp] theorem limitStep_base (s : State) : (limitStep s).base = s.base := by
  simp only [limitStep]
  repeat' split
  all_goals simp

@[simp] theorem overheatStep_base (s : State) : (overheatStep s).base = s.base := by
  simp only [overheatStep]
  repeat' split
  all_goals simp

@[simp] theorem mismatchFound_base (r : Relay) (s : State) : (mismatchFound r s).base = s.base := by simp [mismatchFound]

@[simp] theorem preCheckRelay_base (before : State) (s : State) (r : Relay) : (preCheckRelay before s r).base = s.base := by
  simp only [preCheckRelay]
  split <;> simp

@[simp] theorem relayCheck_base (s : State) : (relayCheck s).base = s.base := by
  simp only [relayCheck]
  split
  · rw [foldl_base _ (fun t r => preCheckRelay_base s t r)]
  · rfl

@[simp] theorem preCheckStep_base (s : State) : (preCheckStep s).base = s.base := by
  simp only [preCheckStep]
  split <;> simp

@[simp] theorem fanDeviationReached_base (s : State) : (fanDeviationReached s).base = s.base := by
  simp only [fanDeviationReached]
  split <;> simp

@[simp] theorem fanDeviationStep_base (s : State) : (fanDeviationStep s).base = s.base := by
  simp only [fanDeviationStep]
  repeat' split
  all_goals simp

@[simp] theorem bsFrame_base (s : State) : (bsFrame s).base = s.base := by
  simp only [bsFrame]
  split <;> simp

@[simp] theorem latchTables_base (s : State) : (latchTables s).base = s.base := rfl

@[simp] theorem frameClock_base (s : State) : (frameClock s).base = s.base := rfl

@[simp] theorem startUpRemoval_base (first : Bool) (s : State) : (startUpRemoval first s).base = s.base := by
  simp only [startUpRemoval]
  split <;> rfl

@[simp] theorem frameMeasure_base (f : Frame) (s : State) : (frameMeasure f s).base = s.base := by simp [frameMeasure]

@[simp] theorem frameStep_base (f : Frame) (s : State) : (frameStep f s).base = s.base := by simp [frameStep]

@[simp] theorem passFrames_base (n : Nat) (s : State) : (passFrames n s).base = s.base := rfl

/-! ### Settle -/

@[simp] theorem beginWrite_base (j : Job) (s : State) : (beginWrite j s).base = s.base := rfl

@[simp] theorem startWrite_base (s : State) : (startWrite s).base = s.base := by
  simp only [startWrite]
  repeat' split
  all_goals rfl

@[simp] theorem toPreCheck_base (s : State) : (toPreCheck s).base = s.base := by simp [toPreCheck]

@[simp] theorem leaveStandby_base (s : State) : (leaveStandby s).base = s.base := by
  simp only [leaveStandby]
  split <;> simp

@[simp] theorem idleSync_base (s : State) : (idleSync s).base = s.base := by
  simp only [idleSync]
  split <;> rfl

@[simp] theorem settle_base (s : State) : (settle s).base = s.base := by simp [settle]

/-- An event changes no base that its effect keeps. -/
theorem State.event_base (s : State) (f : State → State) (h : ∀ s, (f s).base = s.base) : (s.event f).base = s.base := by
  simp only [State.event]
  split
  · simp [h]
  · rfl

theorem State.expire_base (s : State) (t : Timer) (f : State → State) (h : ∀ s, (f s).base = s.base) : (s.expire t f).base = s.base := by
  simp only [State.expire]
  split
  · simp [h]
  · rfl

/-! ### Link -/

@[simp] theorem lineIdleFor_base (n : Nat) (s : State) : (lineIdleFor n s).base = s.base := rfl

@[simp] theorem lineDominant_base (s : State) : (lineDominant s).base = s.base := rfl

@[simp] theorem startSending_base (s : State) : (startSending s).base = s.base := rfl

@[simp] theorem zpRequest_base (node : Nat) (kind : Nat) (payload : List Byte) (replies : List Nat) (s : State) : (zpRequest node kind payload replies s).base = s.base := by
  simp only [zpRequest]
  split <;> rfl

@[simp] theorem requestSent_base (s : State) : (requestSent s).base = s.base := by
  simp only [requestSent]
  split <;> rfl

@[simp] theorem zpClosing_base (payload : List Byte) (s : State) : (zpClosing payload s).base = s.base := rfl

@[simp] theorem startReceiving_base (edge : Nat) (s : State) : (startReceiving edge s).base = s.base := rfl

@[simp] theorem rxByte_base (b : Byte) (s : State) : (rxByte b s).base = s.base := rfl

@[simp] theorem exchangeOver_base (s : State) : (exchangeOver s).base = s.base := rfl

@[simp] theorem recordFailure_base (r : Reason) (s : State) : (recordFailure r s).base = s.base := by
  simp only [recordFailure]
  split <;> rfl

@[simp] theorem toSettling_base (s : State) : (toSettling s).base = s.base := rfl

@[simp] theorem toClearing_base (kept : List Nat) (s : State) : (toClearing kept s).base = s.base := rfl

@[simp] theorem toFault_base (s : State) : (toFault s).base = s.base := by simp [toFault]

@[simp] theorem busFaultClear_base (s : State) : (busFaultClear s).base = s.base := by
  simp only [busFaultClear]
  split <;> simp

/-! ### Manage -/

@[simp] theorem setAnswer_base (node : Nat) (p : List Byte) (s : State) : (setAnswer node p s).base = s.base := rfl

@[simp] theorem nodeRecordWritten_base (old : NodeKind) (a : Nat) (s : State) : (nodeRecordWritten old a s).base = s.base := by
  simp only [nodeRecordWritten]
  repeat' split
  all_goals simp

@[simp] theorem applyWrite_base (table : Nat) (e : Nat) (off : Nat) (d : List Byte) (s : State) : (applyWrite table e off d s).base = s.base := by
  simp only [applyWrite]
  split <;> simp

@[simp] theorem mgWriteLive_base (table : Nat) (e : Nat) (data : List Byte) (s : State) : (mgWriteLive table e data s).1.base = s.base := by
  simp only [mgWriteLive]
  repeat' split
  all_goals simp

@[simp] theorem mgWriteStage_base (e : Nat) (data : List Byte) (s : State) : (mgWriteStage e data s).1.base = s.base := by
  simp only [mgWriteStage]
  repeat' split
  all_goals rfl

@[simp] theorem mgWriteEntry_base (table : Nat) (e : Nat) (data : List Byte) (s : State) : (mgWriteEntry table e data s).1.base = s.base := by
  simp only [mgWriteEntry]
  split <;> simp

@[simp] theorem commitAccept_base (crc : Nat) (s : State) : (commitAccept crc s).base = s.base := rfl

@[simp] theorem mgCommit_base (crc : Nat) (s : State) : (mgCommit crc s).1.base = s.base := by
  simp only [mgCommit]
  repeat' split
  all_goals rfl

@[simp] theorem clampTchMax_base (s : State) : (clampTchMax s).base = s.base := by
  simp only [clampTchMax]
  split <;> rfl

@[simp] theorem reclampTchMax_base (s : State) : (reclampTchMax s).base = s.base := by
  simp only [reclampTchMax]
  repeat' split
  all_goals simp

@[simp] theorem lowerCounts_base (s : State) : (lowerCounts s).base = s.base := rfl

@[simp] theorem commitAbort_base (k : Nat) (s : State) : (commitAbort k s).base = s.base := rfl

@[simp] theorem placeProxy_base (target : Nat) (item : Nat) (s : State) : (placeProxy target item s).base = s.base := by
  simp only [placeProxy]
  split <;> rfl

@[simp] theorem mgProxyRead_base (target : Nat) (item : Nat) (s : State) : (mgProxyRead target item s).1.base = s.base := by
  simp only [mgProxyRead]
  repeat' split
  all_goals simp

@[simp] theorem slotReady_base (r : Result) (data : List Byte) (s : State) : (slotReady r data s).base = s.base := rfl

@[simp] theorem fetchResult_base (r : Result) (data : List Byte) (s : State) : (fetchResult r data s).base = s.base := by
  simp only [fetchResult]
  split <;> rfl

@[simp] theorem mgBusReset_base (s : State) : (mgBusReset s).base = s.base := by simp [mgBusReset]

@[simp] theorem mgClosing_base (sent : Bool) (s : State) : (mgClosing sent s).base = s.base := rfl

@[simp] theorem slotExpired_base (s : State) : (slotExpired s).base = s.base := rfl

@[simp] theorem mgLockoutReset_base (rights : Rights) (node : Nat) (s : State) : (mgLockoutReset rights node s).1.base = s.base := by simp [mgLockoutReset]

@[simp] theorem mgClearHistory_base (s : State) : (mgClearHistory s).1.base = s.base := by
  simp only [mgClearHistory]
  split <;> simp

@[simp] theorem mgRestart_base (s : State) : (mgRestart s).1.base = s.base := by
  simp only [mgRestart]
  split <;> rfl

@[simp] theorem mgCarryOut_base (node : Nat) (kind : Nat) (ps : List Byte) (s : State) : (mgCarryOut node kind ps s).1.base = s.base := by
  simp only [mgCarryOut]
  split <;> simp

@[simp] theorem mgDecide_base (node : Nat) (kind : Nat) (ps : List Byte) (s : State) : (mgDecide node kind ps s).1.base = s.base := by
  simp only [mgDecide]
  repeat' split
  all_goals simp

@[simp] theorem mgHandle_base (node : Nat) (kind : Byte) (tag : Byte) (ps : List Byte) (s : State) : (mgHandle node kind tag ps s).base = s.base := by simp [mgHandle]

/-! ### Poll -/

@[simp] theorem presenceGood_base (a : Nat) (s : State) : (presenceGood a s).base = s.base := by
  simp only [presenceGood]
  split <;> simp

@[simp] theorem nodeBecomesAbsent_base (a : Nat) (s : State) : (nodeBecomesAbsent a s).base = s.base := by
  simp only [nodeBecomesAbsent]
  split <;> simp

@[simp] theorem presenceMiss_base (a : Nat) (s : State) : (presenceMiss a s).base = s.base := by
  simp only [presenceMiss]
  repeat' split
  all_goals simp

@[simp] theorem hand_base (f : InFlight) (node : Nat) (kind : Nat) (payload : List Byte) (replies : List Nat) (s : State) : (hand f node kind payload replies s).base = s.base := by simp [hand]

@[simp] theorem noteOverflow_base (t : Taken) (s : State) : (noteOverflow t s).base = s.base := by
  simp only [noteOverflow]
  split <;> rfl

@[simp] theorem handEntry_base (t : Taken) (s : State) : (handEntry t s).base = s.base := by simp [handEntry]

@[simp] theorem handServicePoll_base (s : State) : (handServicePoll s).base = s.base := by simp [handServicePoll]

@[simp] theorem removeInFlight_base (s : State) : (removeInFlight s).base = s.base := rfl

@[simp] theorem afterService_base (s : State) : (afterService s).base = s.base := by
  simp only [afterService]
  repeat' split
  all_goals simp

@[simp] theorem serveLow_base (low : Bool) (s : State) : (serveLow low s).base = s.base := by
  simp only [serveLow]
  repeat' split
  all_goals simp

@[simp] theorem serveZones_base (low : Bool) (zs : List Nat) (s : State) : (serveZones low zs s).base = s.base := by
  induction zs generalizing s with
  | nil => simp [serveZones]
  | cons z r ih =>
    simp only [serveZones]
    repeat' split
    all_goals simp [ih]

@[simp] theorem servicePoint_base (s : State) : (servicePoint s).base = s.base := by simp [servicePoint]

@[simp] theorem passEnd_base (s : State) : (passEnd s).base = s.base := by simp [passEnd]

@[simp] theorem takeUp_base (n : Nat) (t : Taken) (s : State) : (takeUp n t s).base = s.base := by
  induction n generalizing t s with
  | zero => rfl
  | succ n ih =>
    simp only [takeUp]
    repeat' split
    all_goals simp [ih]

@[simp] theorem startRound_base (s : State) : (startRound s).base = s.base := by
  simp only [startRound]
  split <;> simp

@[simp] theorem maybeStart_base (s : State) : (maybeStart s).base = s.base := by
  simp only [maybeStart]
  split <;> simp

@[simp] theorem roundEnd_base (s : State) : (roundEnd s).base = s.base := by simp [roundEnd]

@[simp] theorem afterEntry_base (s : State) : (afterEntry s).base = s.base := by
  simp only [afterEntry]
  repeat' split
  all_goals simp

@[simp] theorem peContinue_base (f : InFlight) (s : State) : (peContinue f s).base = s.base := by
  simp only [peContinue]
  repeat' split
  all_goals simp

@[simp] theorem readyReport_base (s : State) : (readyReport s).base = s.base := by
  simp only [readyReport]
  split <;> simp

@[simp] theorem modifierSkip_base (s : State) : (modifierSkip s).base = s.base := by
  simp only [modifierSkip]
  repeat' split
  all_goals rfl

@[simp] theorem takeOutdoor_base (node : Nat) (p : List Byte) (s : State) : (takeOutdoor node p s).base = s.base := by
  simp only [takeOutdoor]
  split <;> rfl

@[simp] theorem handToMg_base (node : Nat) (p : List Byte) (s : State) : (handToMg node p s).base = s.base := by simp [handToMg]

@[simp] theorem takeEntryReply_base (t : Taken) (node : Nat) (kind : Nat) (p : List Byte) (s : State) : (takeEntryReply t node kind p s).base = s.base := by
  simp only [takeEntryReply]
  repeat' split
  all_goals simp

@[simp] theorem takeReply_base (f : InFlight) (node : Nat) (kind : Nat) (p : List Byte) (s : State) : (takeReply f node kind p s).base = s.base := by
  simp only [takeReply]
  repeat' split
  all_goals simp

@[simp] theorem takeFailure_base (f : InFlight) (node : Nat) (s : State) : (takeFailure f node s).base = s.base := by
  simp only [takeFailure]
  split <;> simp

@[simp] theorem peBusReset_base (s : State) : (peBusReset s).base = s.base := by
  simp only [peBusReset]
  split <;> simp

/-! ### Bus -/

@[simp] theorem failExchange_base (r : Reason) (s : State) : (failExchange r s).base = s.base := by
  simp only [failExchange]
  split <;> simp

@[simp] theorem closingOutcome_base (sent : Bool) (s : State) : (closingOutcome sent s).base = s.base := by
  cases sent <;> simp only [closingOutcome] <;> split <;> simp

@[simp] theorem finishReply_base (closing : Bool) (f : InFlight) (s : State) : (finishReply closing f s).base = s.base := by
  simp only [finishReply]
  split <;> simp

@[simp] theorem goodReply_base (f : InFlight) (node : Nat) (kind : Nat) (p : List Byte) (s : State) : (goodReply f node kind p s).base = s.base := by simp [goodReply]

@[simp] theorem replyComplete_base (check : Byte) (s : State) : (replyComplete check s).base = s.base := by
  simp only [replyComplete]
  repeat' split
  all_goals simp

@[simp] theorem resetExchange_base (s : State) : (resetExchange s).base = s.base := by
  simp only [resetExchange]
  repeat' split
  all_goals simp

@[simp] theorem busPortReset_base (s : State) : (busPortReset s).base = s.base := by simp [busPortReset]

@[simp] theorem busClear_base (s : State) : (busClear s).base = s.base := by
  simp only [busClear]
  split <;> simp

@[simp] theorem overcurrent_base (s : State) : (overcurrent s).base = s.base := by
  simp only [overcurrent]
  split <;> simp

@[simp] theorem mgmtRequest_base (node : Nat) (kind : Byte) (tag : Byte) (ps : List Byte) (s : State) : (mgmtRequest node kind tag ps s).base = s.base := by
  simp only [mgmtRequest]
  repeat' split
  all_goals simp

/-! ### Store -/

@[simp] theorem reofferPage_base (s : State) (page : Nat) : (reofferPage s page).base = s.base := by
  simp only [reofferPage]
  split <;> simp

@[simp] theorem fmReoffer_base (s : State) : (fmReoffer s).base = s.base := by
  simp only [fmReoffer]
  rw [foldl_base _ (fun s p => reofferPage_base s p)]
  split <;> simp

@[simp] theorem reofferLockout_base (page : Nat) (good : Bool) (s : State) : (reofferLockout page good s).base = s.base := by
  simp only [reofferLockout]
  split <;> rfl

@[simp] theorem fmPage8_base (good : Bool) (carried : LockState) (s : State) : (fmPage8 good carried s).base = s.base := by
  simp only [fmPage8]
  repeat' split
  all_goals simp

@[simp] theorem fmReport_base (w : Write) (good : Bool) (s : State) : (fmReport w good s).base = s.base := by
  simp only [fmReport]
  split <;> simp

@[simp] theorem reofferCounters_base (s : State) : (reofferCounters s).base = s.base := by
  simp only [reofferCounters]
  split <;> simp

@[simp] theorem locateHistory_base (s : State) : (locateHistory s).base = s.base := by
  simp only [locateHistory]
  split <;> rfl

@[simp] theorem restoreLockout_base (s : State) : (restoreLockout s).base = s.base := by
  simp only [restoreLockout]
  split <;> simp

@[simp] theorem fmLoaded_base (s : State) : (fmLoaded s).base = s.base := by simp [fmLoaded]

@[simp] theorem raiseTorn_base (s : State) (page : Nat) : (raiseTorn s page).base = s.base := by
  simp only [raiseTorn]
  split <;> simp

@[simp] theorem raiseFound_base (s : State) : (raiseFound s).base = s.base := by
  simp only [raiseFound]
  split
  · simp only [fmRaise_base]
    rw [foldl_base _ (fun s p => raiseTorn_base s p)]
  · rw [foldl_base _ (fun s p => raiseTorn_base s p)]

@[simp] theorem dmLoaded_base (s : State) : (dmLoaded s).base = s.base := by simp [dmLoaded]

@[simp] theorem scanStart_base (s : State) : (scanStart s).base = s.base := rfl

@[simp] theorem runSecond_base (s : State) : (runSecond s).base = s.base := by
  simp only [runSecond]
  repeat' split
  all_goals rfl

@[simp] theorem idleSecond_base (s : State) : (idleSecond s).base = s.base := by
  simp only [idleSecond]
  split <;> rfl

@[simp] theorem secondClock_base (s : State) : (secondClock s).base = s.base := rfl

@[simp] theorem secondStep_base (s : State) : (secondStep s).base = s.base := by
  simp only [secondStep]
  split <;> simp

/-! ### Meaning -/

@[simp] theorem disagreeTimeout_base (s : State) : (disagreeTimeout s).base = s.base := by
  simp only [disagreeTimeout]
  split <;> simp

@[simp] theorem circulationTimeout_base (s : State) : (circulationTimeout s).base = s.base := by
  simp only [circulationTimeout]
  split <;> simp

@[simp] theorem fanDeviationTimeout_base (s : State) : (fanDeviationTimeout s).base = s.base := by
  simp only [fanDeviationTimeout]
  split <;> simp

@[simp] theorem purgeTimeout_base (s : State) : (purgeTimeout s).base = s.base := by
  simp only [purgeTimeout]
  repeat' split
  all_goals simp

@[simp] theorem onPhaseTimeout_base (s : State) : (onPhaseTimeout s).base = s.base := by
  simp only [onPhaseTimeout]
  split <;> simp

@[simp] theorem offPhaseTimeout_base (s : State) : (offPhaseTimeout s).base = s.base := by
  simp only [offPhaseTimeout]
  split <;> simp

@[simp] theorem fallbackTimeout_base (z : Nat) (s : State) : (fallbackTimeout z s).base = s.base := by
  simp only [fallbackTimeout]
  split <;> simp

@[simp] theorem flameSampled_base (raw : Sample) (s : State) : (flameSampled raw s).base = s.base := by
  simp only [flameSampled]
  split <;> simp

@[simp] theorem pulseCounted_base (line : PulseLine) (s : State) : (pulseCounted line s).base = s.base := rfl

@[simp] theorem tpchkExpired_base (s : State) : (tpchkExpired s).base = s.base := by
  simp only [tpchkExpired]
  split <;> simp

@[simp] theorem purgeLimitExpired_base (s : State) : (purgeLimitExpired s).base = s.base := by simp [purgeLimitExpired]

@[simp] theorem falseFlameFound_base (s : State) : (falseFlameFound s).base = s.base := by simp [falseFlameFound]

@[simp] theorem tprespkExpired_base (s : State) : (tprespkExpired s).base = s.base := by
  simp only [tprespkExpired]
  split <;> simp

@[simp] theorem tsparkExpired_base (s : State) : (tsparkExpired s).base = s.base := rfl

@[simp] theorem tsafeExpired_base (s : State) : (tsafeExpired s).base = s.base := by
  simp only [tsafeExpired]
  split <;> simp

@[simp] theorem tstabExpired_base (s : State) : (tstabExpired s).base = s.base := by simp [tstabExpired]

@[simp] theorem tpostExpired_base (s : State) : (tpostExpired s).base = s.base := by
  simp only [tpostExpired]
  split <;> simp

@[simp] theorem lockPurgeExpired_base (s : State) : (lockPurgeExpired s).base = s.base := rfl

@[simp] theorem tffpostExpired_base (s : State) : (tffpostExpired s).base = s.base := by
  simp only [tffpostExpired]
  split <;> simp

@[simp] theorem overrunExpired_base (s : State) : (overrunExpired s).base = s.base := by simp [overrunExpired]

@[simp] theorem divertEnded_base (s : State) : (divertEnded s).base = s.base := rfl

@[simp] theorem kickBegins_base (s : State) : (kickBegins s).base = s.base := by
  simp only [kickBegins]
  split <;> rfl

@[simp] theorem kickEnds_base (s : State) : (kickEnds s).base = s.base := rfl

@[simp] theorem blockingExpired_base (src : Source) (s : State) : (blockingExpired src s).base = s.base := by simp [blockingExpired]

@[simp] theorem resetInChanged_base (low : Bool) (s : State) : (resetInChanged low s).base = s.base := by
  simp only [resetInChanged]
  split <;> rfl

@[simp] theorem resetInPressed_base (s : State) : (resetInPressed s).base = s.base := by simp [resetInPressed]

@[simp] theorem settleExpired_base (s : State) : (settleExpired s).base = s.base := by simp [settleExpired]

@[simp] theorem periodExpired_base (s : State) : (periodExpired s).base = s.base := by simp [periodExpired]

@[simp] theorem lineCheckIdle_base (s : State) : (lineCheckIdle s).base = s.base := by
  simp only [lineCheckIdle]
  split <;> rfl

@[simp] theorem lineDominance_base (s : State) : (lineDominance s).base = s.base := by
  simp only [lineDominance]
  repeat' split
  all_goals simp

@[simp] theorem lineCheckLong_base (s : State) : (lineCheckLong s).base = s.base := by
  simp only [lineCheckLong]
  repeat' split
  all_goals simp

@[simp] theorem requestEnd_base (s : State) : (requestEnd s).base = s.base := by
  simp only [requestEnd]
  repeat' split
  all_goals simp

@[simp] theorem holdReached_base (s : State) : (holdReached s).base = s.base := by
  simp only [holdReached]
  repeat' split
  all_goals simp

@[simp] theorem markSeen_base (run : Nat) (s : State) : (markSeen run s).base = s.base := by
  simp only [markSeen]
  repeat' split
  all_goals rfl

@[simp] theorem replyWindowEnds_base (s : State) : (replyWindowEnds s).base = s.base := by
  simp only [replyWindowEnds]
  split <;> simp

@[simp] theorem rxTooLong_base (s : State) : (rxTooLong s).base = s.base := by simp [rxTooLong]

@[simp] theorem framingBroken_base (c : FramingCause) (s : State) : (framingBroken c s).base = s.base := by
  simp only [framingBroken]
  repeat' split
  all_goals simp

@[simp] theorem replyByte_base (b : Byte) (s : State) : (replyByte b s).base = s.base := by
  simp only [replyByte]
  repeat' split
  all_goals simp

@[simp] theorem replyCheck_base (b : Byte) (s : State) : (replyCheck b s).base = s.base := by
  simp only [replyCheck]
  split <;> simp

@[simp] theorem closingEnd_base (s : State) : (closingEnd s).base = s.base := by
  simp only [closingEnd]
  repeat' split
  all_goals simp

@[simp] theorem lineFalls_base (s : State) : (lineFalls s).base = s.base := rfl

@[simp] theorem lineRises_base (since : Nat) (s : State) : (lineRises since s).base = s.base := by
  simp only [lineRises]
  repeat' split
  all_goals simp

@[simp] theorem lineChanged_base (dominant : Bool) (since : Nat) (s : State) : (lineChanged dominant since s).base = s.base := by
  simp only [lineChanged]
  repeat' split
  all_goals simp

theorem State.due_base (s : State) (t : Timer) (f : State → State) (h : ∀ s, (f s).base = s.base) : (s.due t f).base = s.base := by
  simp only [State.due]
  repeat' split
  all_goals simp [h]

end Sys2Proof.Machine
end

