-- ==== Sys2Proof/Laws/Burner.lean ====
section
/-! SUPPORT. The burner's phase and the lockout record under each operation: `State.drive` says what safe operation depends on; an operation either keeps it or keeps `SafeOn`. -/

namespace Sys2Proof.Machine

/-- The part of BS that says where the burner stands and what it drives. -/
def Bs.phase (b : Bs) : Bs :=
  { state := b.state, gas1 := b.gas1, gas2 := b.gas2, spark := b.spark, tPchk := b.tPchk, purgeLimit := b.purgeLimit
    purge := b.purge, tPrespk := b.tPrespk, tSafe := b.tSafe, tSpark := b.tSpark, tStab := b.tStab, tPost := b.tPost
    lockPurge := b.lockPurge }

/-- What safe operation depends on. -/
def State.drive (s : State) : Bs × LockState := (s.bs.phase, s.fm.lockout.state)

/-- Safe operation of a part in operation. -/
def SafeOn (s : State) : Prop := BurnerOk s.bs ∧ (s.fm.lockout.state ≠ .none ↔ s.bs.state = .lockout)

theorem burnerOk_phase (b : Bs) : BurnerOk b.phase ↔ BurnerOk b := Iff.rfl

theorem safeOn_of_drive {s t : State} (h : t.drive = s.drive) : SafeOn t ↔ SafeOn s := by
  simp only [State.drive, Prod.mk.injEq] at h
  have hs : t.bs.state = s.bs.state := (congrArg Bs.state h.1 : t.bs.phase.state = s.bs.phase.state)
  rw [SafeOn, SafeOn, ← burnerOk_phase, ← burnerOk_phase s.bs, h.1, h.2, hs]

section
variable (s : State)
@[simp] theorem State.onClock_drive (f : Clock → Clock) : (s.onClock f).drive = s.drive := rfl
@[simp] theorem State.onLines_drive (f : Lines → Lines) : (s.onLines f).drive = s.drive := rfl
@[simp] theorem State.onMp_drive (f : Mp → Mp) : (s.onMp f).drive = s.drive := rfl
@[simp] theorem State.onDm_drive (f : Dm → Dm) : (s.onDm f).drive = s.drive := rfl
@[simp] theorem State.onMu_drive (f : Mu → Mu) : (s.onMu f).drive = s.drive := rfl
@[simp] theorem State.onZp_drive (f : Zp → Zp) : (s.onZp f).drive = s.drive := rfl
@[simp] theorem State.onPe_drive (f : Pe → Pe) : (s.onPe f).drive = s.drive := rfl
@[simp] theorem State.onMg_drive (f : Mg → Mg) : (s.onMg f).drive = s.drive := rfl
@[simp] theorem State.onSt_drive (f : St → St) : (s.onSt f).drive = s.drive := rfl
@[simp] theorem State.onRound_drive (f : Round → Round) : (s.onRound f).drive = s.drive := rfl
@[simp] theorem State.onCyc_drive (f : Cycle → Cycle) : (s.onCyc f).drive = s.drive := rfl
@[simp] theorem State.onZone_drive (z : Nat) (f : Zone → Zone) : (s.onZone z f).drive = s.drive := rfl
@[simp] theorem State.onNode_drive (a : Nat) (f : NodeLive → NodeLive) : (s.onNode a f).drive = s.drive := rfl
@[simp] theorem State.onExch_drive (f : Exchange → Exchange) : (s.onExch f).drive = s.drive := rfl
@[simp] theorem State.advance_drive (dt : Nat) : (s.advance dt).drive = s.drive := rfl
@[simp] theorem State.reach_drive (t : Nat) : (s.reach t).drive = s.drive := rfl
@[simp] theorem State.onBs_drive (f : Bs → Bs) (h : (f s.bs).phase = s.bs.phase) : (s.onBs f).drive = s.drive := by
  simp [State.drive, h]
@[simp] theorem State.onFm_drive (f : Fm → Fm) (h : (f s.fm).lockout = s.fm.lockout) : (s.onFm f).drive = s.drive := by
  simp [State.drive, h]
end

theorem foldl_drive {α : Type} (f : State → α → State) (h : ∀ s a, (f s a).drive = s.drive) (l : List α) (s : State) :
    (l.foldl f s).drive = s.drive := by
  induction l generalizing s with
  | nil => rfl
  | cons a l ih => simp [ih, h]

theorem foldl_safe {α : Type} (f : State → α → State) (h : ∀ s a, SafeOn s → SafeOn (f s a)) (l : List α) (s : State)
    (hs : SafeOn s) : SafeOn (l.foldl f s) := by
  induction l generalizing s with
  | nil => exact hs
  | cons a l ih => exact ih _ (h _ _ hs)

@[simp] theorem State.offer_drive (s : State) (page : Nat) : (State.offer s page).drive = s.drive := by
  simp only [State.offer]
  repeat' split
  all_goals rfl

@[simp] theorem State.offerCounters_drive (s : State) : (State.offerCounters s).drive = s.drive := by
  simp only [State.offerCounters]
  split <;> simp

@[simp] theorem State.bump_drive (s : State) (i : Nat) : (State.bump s i).drive = s.drive := by rfl

@[simp] theorem State.setBlocking_drive (s : State) (v : Bool) : (State.setBlocking s v).drive = s.drive := by rfl

@[simp] theorem State.setCommitHold_drive (s : State) (v : Bool) : (State.setCommitHold s v).drive = s.drive := by rfl

@[simp] theorem State.setStartUp_drive (s : State) (v : Bool) : (State.setStartUp s v).drive = s.drive := by rfl

@[simp] theorem State.setAntiCycle_drive (s : State) (v : Bool) : (State.setAntiCycle s v).drive = s.drive := by rfl

@[simp] theorem State.setCond_drive (s : State) (src : Source) : (State.setCond s src).drive = s.drive := by rfl

@[simp] theorem State.clearCond_drive (s : State) (src : Source) : (State.clearCond s src).drive = s.drive := by rfl

@[simp] theorem muStage1_drive (s : State) : (muStage1 s).drive = s.drive := by
  simp only [muStage1]
  split <;> rfl

@[simp] theorem muCompute_drive (s0 : State) : (muCompute s0).drive = s0.drive := by simp [muCompute]

@[simp] theorem muPending_drive (s : State) : (muPending s).drive = s.drive := by rfl

@[simp] theorem onPhaseStart_drive (s : State) : (onPhaseStart s).drive = s.drive := by rfl

@[simp] theorem offPhaseStart_drive (s : State) : (offPhaseStart s).drive = s.drive := by rfl

@[simp] theorem cycleInactive_drive (s : State) : (cycleInactive s).drive = s.drive := by rfl

@[simp] theorem muPreset_drive (u : Nat) (s : State) : (muPreset u s).drive = s.drive := by
  simp only [muPreset]
  split <;> rfl

@[simp] theorem setFanTarget_drive (t : Nat) (s : State) : (setFanTarget t s).drive = s.drive := by rfl

@[simp] theorem entryOutput_drive (u : Nat) (s : State) : (entryOutput u s).drive = s.drive := by rfl

@[simp] theorem muRunEntry_drive (s : State) : (muRunEntry s).drive = s.drive := by
  simp only [muRunEntry]
  repeat' split
  all_goals simp

@[simp] theorem muStabiliseEntry_drive (s : State) : (muStabiliseEntry s).drive = s.drive := by rfl

@[simp] theorem muReturn_drive (s : State) : (muReturn s).drive = s.drive := by
  simp only [muReturn]
  split <;> rfl

@[simp] theorem muLockout_drive (s : State) : (muLockout s).drive = s.drive := by
  simp only [muLockout]
  split <;> rfl

@[simp] theorem muCircuit_drive (old : Circuit) (s : State) : (muCircuit old s).drive = s.drive := by
  simp only [muCircuit]
  repeat' split
  all_goals simp

@[simp] theorem setMismatch_drive (r : Relay) (t : Timer) (m : Bool) (s : State) : (setMismatch r t m s).drive = s.drive := by
  simp only [setMismatch]
  split <;> rfl

@[simp] theorem mismatchSync_drive (r : Relay) (s : State) : (mismatchSync r s).drive = s.drive := by
  simp only [mismatchSync]
  repeat' split
  all_goals simp

@[simp] theorem relaySync_drive (s : State) : (relaySync s).drive = s.drive := by simp [relaySync]

@[simp] theorem antiCycleStart_drive (s : State) : (antiCycleStart s).drive = s.drive := by
  simp only [antiCycleStart]
  split <;> rfl

@[simp] theorem pumpOverrunStart_drive (s : State) : (pumpOverrunStart s).drive = s.drive := by rfl

@[simp] theorem dmDeparture_drive (cause : Cause) (byOff : Bool) (s : State) : (dmDeparture cause byOff s).drive = s.drive := by
  simp only [dmDeparture]
  repeat' split
  all_goals simp

@[simp] theorem dmFiring_drive (s : State) : (dmFiring s).drive = s.drive := by
  simp only [dmFiring]
  split <;> rfl

@[simp] theorem bsReport_drive (was : Bool) (cause : Cause) (byOff : Bool) (s : State) : (bsReport was cause byOff s).drive = s.drive := by
  simp only [bsReport]
  repeat' split
  all_goals simp

@[simp] theorem fanControl_drive (s : State) : (fanControl s).drive = s.drive := by rfl

/-- Safe-off: both drives and the spark off, the rest of the phase kept (R22). -/
theorem safeOff_drive (s : State) :
    (safeOff s).drive = ({ s.bs.phase with gas1 := false, gas2 := false, spark := false }, s.fm.lockout.state) := by
  simp only [safeOff, relaySync_drive]
  split <;> rfl

/-- A change of burner state: the new state, no phase timer running, and safe-off unless the new state keeps the gas (R22). -/
theorem bsMove_drive (st : BurnerState) (c : Cause) (o : Bool) (s : State) :
    (bsMove st c o s).drive =
      ({ state := st
         gas1 := if st = .stabilise ∨ st = .run then s.bs.gas1 else false
         gas2 := if st = .stabilise ∨ st = .run then s.bs.gas2 else false
         spark := if st = .stabilise ∨ st = .run then s.bs.spark else false }, s.fm.lockout.state) := by
  simp only [bsMove, bsReport_drive]
  split
  · rfl
  · have h := safeOff_drive s
    simp only [State.drive, Prod.mk.injEq] at h
    have h1 := congrArg Bs.gas1 h.1
    have h2 := congrArg Bs.gas2 h.1
    have h3 := congrArg Bs.spark h.1
    simp only [Bs.phase] at h1 h2 h3
    simp [State.drive, Bs.phase, stopPhase, h.2, h1, h2, h3]

theorem drive_state {s t : State} (h : t.drive = s.drive) : t.bs.state = s.bs.state :=
  congrArg (fun d => d.1.state) h

theorem toStandby_drive (c : Cause) (s : State) : (toStandby c s).drive = ({}, s.fm.lockout.state) := by
  simp [toStandby, bsMove_drive]

theorem toPostPurge_drive (c : Cause) (o r : Bool) (s : State) :
    ∃ t, (toPostPurge c o r s).drive = ({ state := .postPurge, tPost := t }, s.fm.lockout.state) := by
  have h := bsMove_drive .postPurge c o s
  simp only [State.drive, Prod.mk.injEq, reduceCtorEq, or_self, if_false] at h
  refine ⟨(toPostPurge c o r s).bs.tPost, ?_⟩
  simp only [State.drive, toPostPurge, setFanTarget, State.onBs_bs, State.onBs_fm, h.2, Prod.mk.injEq, and_true]
  have h1 := h.1
  simp only [Bs.phase, Bs.mk.injEq] at h1 ⊢
  simp [h1]

theorem safe_none {s : State} (h : SafeOn s) (n : s.bs.state ≠ .lockout) : s.fm.lockout.state = .none := by
  by_contra x
  exact n (h.2.1 x)

theorem safeOn_standby {s : State} (h : s.drive = ({}, .none)) : SafeOn s := by
  rw [safeOn_of_drive (s := { bs := {} }) (by rw [h]; rfl)]
  simp [SafeOn, BurnerOk, onlyIn]

theorem safeOn_postPurge {s : State} (t : Timer) (h : s.drive = ({ state := .postPurge, tPost := t }, .none)) : SafeOn s := by
  rw [safeOn_of_drive (s := { bs := { state := .postPurge, tPost := t } }) (by rw [h]; rfl)]
  simp [SafeOn, BurnerOk, onlyIn]

theorem toStandby_safe (c : Cause) (s : State) (h : s.fm.lockout.state = .none) : SafeOn (toStandby c s) :=
  safeOn_standby (by rw [toStandby_drive, h])

theorem toPostPurge_safe (c : Cause) (o r : Bool) (s : State) (h : s.fm.lockout.state = .none) :
    SafeOn (toPostPurge c o r s) := by
  obtain ⟨t, ht⟩ := toPostPurge_drive c o r s
  exact safeOn_postPurge t (by rw [ht, h])

theorem faultStop_safe (s : State) (h : SafeOn s) : SafeOn (faultStop s) := by
  simp only [faultStop]
  repeat' split
  all_goals first
    | with_reducible exact h
    | (with_reducible refine toPostPurge_safe _ _ _ _ (safe_none h ?_)); simp [*]
    | (with_reducible refine toStandby_safe _ _ (safe_none h ?_)); simp [*]


theorem safeOn_lockout {s : State} (t : Timer) (n : LockState) (hn : n ≠ .none)
    (h : s.drive = ({ state := .lockout, lockPurge := t }, n)) : SafeOn s := by
  rw [safeOn_of_drive (s := { bs := { state := .lockout, lockPurge := t }, fm := { lockout := { state := n } } })
    (by rw [h]; rfl)]
  simp [SafeOn, BurnerOk, onlyIn, hn]

theorem setFanTarget_safe (t : Nat) (s : State) (h : SafeOn s) : SafeOn (setFanTarget t s) :=
  (safeOn_of_drive (setFanTarget_drive t s)).2 h

theorem withdraw_safe (o : Bool) (s : State) (h : SafeOn s) : SafeOn (withdraw o s) := by
  have key : ∀ u : State, u.drive = s.drive → SafeOn u := fun u hu => (safeOn_of_drive hu).2 h
  simp only [withdraw]
  generalize hu : (if s.bs.state = .postPurge ∧ o = false ∧ s.dm.burn.heating = true
        ∧ (s.dm.lastDeparture = some .flameLossRecycle ∨ s.dm.lastDeparture = some .ignitionFailure)
      then antiCycleStart s else s) = u
  have hd : u.drive = s.drive := by
    rw [← hu]
    split <;> simp
  have hv : (u.onBs fun b => { b with attempts := 0, recycles := 0, retry := false }).drive = s.drive := by
    rw [← hd]
    rfl
  have hk := key _ hv
  generalize (u.onBs fun b => { b with attempts := 0, recycles := 0, retry := false }) = v at hk
  repeat' split
  all_goals first
    | with_reducible exact hk
    | (with_reducible refine toPostPurge_safe _ _ _ _ (safe_none hk ?_)); simp [*]
    | (with_reducible refine toStandby_safe _ _ (safe_none hk ?_)); simp [*]

theorem deliverRecord_safe (o : Bool) (s : State) (h : SafeOn s) : SafeOn (deliverRecord o s) := by
  simp only [deliverRecord]
  have h' : SafeOn (s.onDm fun d => { d with active := activeOf d }) := (safeOn_of_drive rfl).2 h
  split
  · exact withdraw_safe _ _ h'
  · exact h'

theorem toPrePurge_safe (s : State) (h : s.fm.lockout.state = .none) : SafeOn (toPrePurge s) := by
  have hb := bsMove_drive .prePurge .fault false s
  simp only [State.drive, Prod.mk.injEq, reduceCtorEq, or_self, if_false] at hb
  have hd : (toPrePurge s).drive = ({ state := .prePurge, purgeLimit := (toPrePurge s).bs.purgeLimit }, .none) := by
    have h1 := hb.1
    simp only [Bs.phase, Bs.mk.injEq] at h1
    simp only [State.drive, toPrePurge, setFanTarget, State.onBs_bs, State.onBs_fm, hb.2, h, Bs.phase]
    simp [h1]
  rw [safeOn_of_drive (s := { bs := { state := .prePurge, purgeLimit := (toPrePurge s).bs.purgeLimit } }) (by rw [hd]; rfl)]
  simp [SafeOn, BurnerOk, onlyIn]

theorem toIgnition_safe (s : State) (h : s.fm.lockout.state = .none) : SafeOn (toIgnition s) := by
  have hb := bsMove_drive .ignition .fault false s
  simp only [State.drive, Prod.mk.injEq, reduceCtorEq, or_self, if_false] at hb
  obtain ⟨d, hd⟩ : ∃ d : Nat, (toIgnition s).drive = ({ state := .ignition, spark := true, tPrespk := some d }, .none) := by
    have h1 := hb.1
    simp only [Bs.phase, Bs.mk.injEq] at h1
    simp only [State.drive, toIgnition, setFanTarget, State.onBs_bs, State.onBs_fm, hb.2, h, Bs.phase, State.deadline]
    simp [h1]
  rw [safeOn_of_drive (s := { bs := { state := .ignition, spark := true, tPrespk := some d } }) (by rw [hd]; rfl)]
  simp [SafeOn, BurnerOk, onlyIn]

theorem openGas_safe (s : State) (h : SafeOn s) (hi : s.bs.state = .ignition) : SafeOn (openGas s) := by
  have hn := safe_none h (by simp [hi])
  have hd := State.drive
  rw [openGas, safeOn_of_drive (bsReport_drive _ _ _ _), safeOn_of_drive (relaySync_drive _)]
  obtain ⟨hb, _⟩ := h
  simp only [SafeOn, BurnerOk, onlyIn, State.onBs_bs, State.onBs_fm, hn, hi, State.deadline] at hb ⊢
  simp_all

theorem toRun_safe (s : State) (h : SafeOn s) (hs : s.bs.state = .stabilise) : SafeOn (toRun s) := by
  have hn := safe_none h (by simp [hs])
  obtain ⟨⟨e, g, sp, _⟩, _⟩ := h
  have h1 : s.bs.gas1 = true := g.2 (Or.inl hs)
  have h2 : s.bs.gas2 = true := e.symm.trans h1
  have h3 : s.bs.spark = false := by
    cases hsp : s.bs.spark
    · rfl
    · have := sp hsp
      simp [hs] at this
  rw [safeOn_of_drive (s := { bs := { state := .run, gas1 := true, gas2 := true } }) (by
    rw [toRun, bsMove_drive, h1, h2, h3, hn]
    rfl)]
  simp [SafeOn, BurnerOk, onlyIn]

theorem establishFlame_safe (s : State) (h : SafeOn s) (hi : s.bs.state = .ignition) (hf : firing s.bs = true) :
    SafeOn (establishFlame s) := by
  have hn := safe_none h (by simp [hi])
  simp only [firing, hi] at hf
  obtain ⟨ho, _⟩ := h
  have hb := bsMove_drive .stabilise .fault false (s.onBs fun b => { b with spark := false, attempts := 0 })
  have hs : (setFanTarget (State.ignitionSpeed ((bsMove .stabilise .fault false
      (s.onBs fun b => { b with spark := false, attempts := 0 })).bump 2))
      ((bsMove .stabilise .fault false (s.onBs fun b => { b with spark := false, attempts := 0 })).bump 2)).drive
      = ({ state := .stabilise, gas1 := true, gas2 := true }, .none) := by
    rw [setFanTarget_drive, State.bump_drive, hb]
    simp_all
  simp only [establishFlame]
  generalize setFanTarget _ _ = u at hs
  have hu : SafeOn u := by
    rw [safeOn_of_drive (s := { bs := { state := .stabilise, gas1 := true, gas2 := true } }) (by rw [hs]; rfl)]
    simp [SafeOn, BurnerOk, onlyIn]
  have hst : u.bs.state = .stabilise := congrArg (fun d => d.1.state) hs
  split
  · exact toRun_safe u hu hst
  · have hd : ∀ d : Timer, (u.onBs fun b => { b with tStab := d }).drive = ({ u.drive.1 with tStab := d }, u.drive.2) :=
      fun _ => rfl
    generalize u.deadline _ = d
    rw [safeOn_of_drive (s := { bs := { state := .stabilise, gas1 := true, gas2 := true, tStab := d } })
      (by rw [hd, hs]; rfl)]
    simp [SafeOn, BurnerOk, onlyIn]

theorem purgeStep_safe (s : State) (h : SafeOn s) (hp : s.bs.state = .prePurge) : SafeOn (purgeStep s) := by
  have hn := safe_none h (by simp [hp])
  have key : ∀ p, SafeOn (s.onBs fun b => { b with purge := p }) := by
    intro p
    obtain ⟨⟨e, hb⟩, hl⟩ := h
    have e := e.symm
    simp only [SafeOn, BurnerOk, onlyIn, State.onBs_bs, State.onBs_fm, hp] at hb hl ⊢
    simp_all
  simp only [purgeStep]
  repeat' split
  all_goals first
    | exact toIgnition_safe s hn
    | exact key _


@[simp] theorem Fm.setBlockTimer_lockout (f : Fm) (src : Source) (t : Timer) : (f.setBlockTimer src t).lockout = f.lockout := by
  cases src <;> rfl

@[simp] theorem fmLead_drive (s : State) : (fmLead s).drive = s.drive := by rfl

@[simp] theorem offerHistory_drive (page : Nat) (s : State) : (offerHistory page s).drive = s.drive := by
  simp only [offerHistory]
  split <;> simp

@[simp] theorem histAppend_drive (r : Record) (s : State) : (histAppend r s).drive = s.drive := by simp [histAppend]

@[simp] theorem queueLockoutPage_drive (s : State) : (queueLockoutPage s).drive = s.drive := by rfl

@[simp] theorem raiseEscalation_drive (src : Source) (s : State) : (raiseEscalation src s).drive = s.drive := by
  simp only [raiseEscalation]
  split <;> rfl

@[simp] theorem raiseRecord_drive (src : Source) (detail : Nat) (s : State) : (raiseRecord src detail s).drive = s.drive := by
  simp only [raiseRecord]
  repeat' split
  all_goals simp

@[simp] theorem raiseCondition_drive (src : Source) (s : State) : (raiseCondition src s).drive = s.drive := by
  simp only [raiseCondition]
  repeat' split
  all_goals simp

@[simp] theorem escalateRecord_drive (src : Source) (s : State) : (escalateRecord src s).drive = s.drive := by rfl

@[simp] theorem offerResets_drive (s : State) : (offerResets s).drive = s.drive := by
  simp only [offerResets]
  split <;> simp

@[simp] theorem clearRing_drive (s : State) : (clearRing s).drive = s.drive := by
  simp only [clearRing]
  rw [foldl_drive _ (fun s p => State.offer_drive s p)]
  rfl

theorem fmSync_safe (s : State) (h : SafeOn s) : SafeOn (fmSync s) := by
  simp only [fmSync]
  repeat' split
  all_goals repeat' first
    | (with_reducible assumption)
    | (with_reducible refine faultStop_safe _  ?_)
    | (with_reducible refine (safeOn_of_drive (State.setBlocking_drive _ _ )).2 ?_)

theorem lockoutEntry_drive (src : Source) (s : State) (h : s.bs.state ≠ .lockout) :
    ∃ t, (lockoutEntry src s).drive = ({ state := .lockout, lockPurge := t }, s.fm.lockout.state) := by
  have hb := bsMove_drive .lockout .lockout false s
  simp only [reduceCtorEq, or_self, if_false] at hb
  simp only [lockoutEntry, h, if_false]
  split
  · have hd : ∀ d : Timer, (((bsMove .lockout .lockout false s).onBs fun b => { b with retry := false }).onBs
        fun b => { b with lockPurge := d }).drive =
        ({ (bsMove .lockout .lockout false s).drive.1 with lockPurge := d }, (bsMove .lockout .lockout false s).drive.2) :=
      fun _ => rfl
    exact ⟨_, by rw [setFanTarget_drive, hd, hb]⟩
  · refine ⟨none, ?_⟩
    rw [setFanTarget_drive, State.onBs_drive _ _ rfl, hb]

theorem lockActive_drive (src : Source) (s : State) : (lockActive src s).drive = (s.bs.phase, .active) := rfl

theorem lockoutPath_safe (src : Source) (s : State) (h : SafeOn s) : SafeOn (lockoutPath src s) := by
  simp only [lockoutPath]
  split
  case h_1 hl =>
    have hn : s.bs.state ≠ .lockout := fun e => (h.2.2 e) hl
    have hq : (queueLockoutPage (lockActive src s)).offerCounters.drive = (s.bs.phase, .active) := by
      rw [State.offerCounters_drive, queueLockoutPage_drive, lockActive_drive]
    have hs : (queueLockoutPage (lockActive src s)).offerCounters.bs.state = s.bs.state := congrArg (fun d => d.1.state) hq
    have hf : (queueLockoutPage (lockActive src s)).offerCounters.fm.lockout.state = .active := congrArg Prod.snd hq
    obtain ⟨t, ht⟩ := lockoutEntry_drive src _ (hs ▸ hn)
    exact safeOn_lockout t _ (by rw [hf]; decide) ht
  case h_2 hl =>
    have hk : s.bs.state = .lockout := h.2.1 (by rw [hl]; decide)
    simp only [lockoutEntry, hk, if_true]
    exact h
  case h_3 hl =>
    have hk : s.bs.state = .lockout := h.2.1 (by rw [hl]; decide)
    rw [safeOn_of_drive (queueLockoutPage_drive _)]
    exact ⟨h.1, by simp [lockActive, hk]⟩


theorem raiseClass_safe (src : Source) (s : State) (h : SafeOn s) : SafeOn (raiseClass src s) := by
  simp only [raiseClass]
  repeat' split
  all_goals repeat' first
    | (with_reducible assumption)
    | (with_reducible refine lockoutPath_safe _ _  ?_)
    | (with_reducible refine (safeOn_of_drive (escalateRecord_drive _ _ )).2 ?_)
    | (with_reducible refine (safeOn_of_drive (histAppend_drive _ _ )).2 ?_)

theorem fmRaise_safe (src : Source) (detail : Nat) (s : State) (h : SafeOn s) : SafeOn (fmRaise src detail s) := by
  simp only [fmRaise]
  split
  all_goals repeat' first
    | (with_reducible assumption)
    | (with_reducible refine fmSync_safe _  ?_)
    | (with_reducible refine raiseClass_safe _ _  ?_)
    | (with_reducible refine (safeOn_of_drive (raiseEscalation_drive _ _ )).2 ?_)
    | (with_reducible refine (safeOn_of_drive (raiseCondition_drive _ _ )).2 ?_)
    | (with_reducible refine (safeOn_of_drive (raiseRecord_drive _ _ _ )).2 ?_)
    | (with_reducible refine (safeOn_of_drive (fmLead_drive _ )).2 ?_)

theorem removeRecord_safe (src : Source) (s : State) (h : SafeOn s) : SafeOn (removeRecord src s) := by
  simp only [removeRecord]
  repeat' split
  all_goals repeat' first
    | (with_reducible assumption)
    | (with_reducible refine fmSync_safe _  ?_)
    | (with_reducible refine (safeOn_of_drive (fmLead_drive _ )).2 ?_)
    | ((with_reducible refine (safeOn_of_drive (State.onFm_drive _ _ ?_)).2 ?_); rfl)

theorem fmClear_safe (src : Source) (s : State) (h : SafeOn s) : SafeOn (fmClear src s) := by
  rw [fmClear]
  repeat' first
    | (with_reducible assumption)
    | (with_reducible refine removeRecord_safe _ _  ?_)
    | (with_reducible refine (safeOn_of_drive (State.clearCond_drive _ _ )).2 ?_)

theorem resetAccept_safe (r : Rights) (s : State) (h : SafeOn s) (ha : s.fm.lockout.state = .active) :
    SafeOn (resetAccept r s) := by
  have hk : s.bs.state = .lockout := h.2.1 (by rw [ha]; decide)
  have hu : SafeOn (s.onFm fun f => { f with lockout := { f.lockout with state := .resetPending }, reLock := false }) :=
    ⟨h.1, by simp [hk]⟩
  simp only [resetAccept]
  generalize (s.onFm fun f => { f with lockout := { f.lockout with state := .resetPending }, reLock := false }) = u at hu
  have h2 : SafeOn (if r = .service then u else u.onFm fun f => { f with resets := resetAdd u.time f.resets }) := by
    split
    · exact hu
    · exact (safeOn_of_drive (State.onFm_drive _ _ rfl)).2 hu
  have h3 := (safeOn_of_drive (queueLockoutPage_drive _)).2 h2
  by_cases hr : r = .service
  · rw [if_pos hr] at h3 ⊢
    simpa [hr] using h3
  · rw [if_neg hr] at h3 ⊢
    simp only [hr, if_false] at h3 ⊢
    exact (safeOn_of_drive (offerResets_drive _)).2 h3

theorem fmReset_safe (r : Rights) (o : Origin) (s : State) (h : SafeOn s) : SafeOn (fmReset r o s) := by
  simp only [fmReset]
  refine (safeOn_of_drive (State.onFm_drive _ _ rfl)).2 ?_
  split
  case isTrue hr =>
    refine resetAccept_safe r s h ?_
    simp only [State.resetResult] at hr
    revert hr
    cases s.fm.lockout.state <;> simp
  case isFalse =>
    split
    · exact (safeOn_of_drive (queueLockoutPage_drive _)).2 h
    · exact h

theorem resetComplete_safe (s : State) : SafeOn (resetComplete s) := by
  simp only [resetComplete]
  refine (safeOn_of_drive (fmLead_drive _)).2 (fmSync_safe _ (toStandby_safe _ _ rfl))


@[simp] theorem placeValve_drive (z : Nat) (p : Position) (s : State) : (placeValve z p s).drive = s.drive := by rfl

@[simp] theorem antiCycleEnd_drive (s : State) : (antiCycleEnd s).drive = s.drive := by rfl

@[simp] theorem enterFallback_drive (z : Nat) (s : State) : (enterFallback z s).drive = s.drive := by rfl

theorem clearOverrun_safe (z : Nat) (s : State) (h : SafeOn s) : SafeOn (clearOverrun z s) := by
  simp only [clearOverrun]
  repeat' split
  all_goals repeat' first
    | (with_reducible assumption)
    | (with_reducible refine fmClear_safe _ _  ?_)
    | (with_reducible refine (safeOn_of_drive (State.onZone_drive _ _ _)).2 ?_)

theorem setValve_safe (z : Nat) (v : ValveState) (s : State) (h : SafeOn s) : SafeOn (setValve z v s) := by
  rw [setValve]
  repeat' first
    | (with_reducible assumption)
    | (with_reducible refine clearOverrun_safe _ _  ?_)
    | (with_reducible refine (safeOn_of_drive (State.onZone_drive _ _ _)).2 ?_)

theorem commandValve_safe (z : Nat) (p : Position) (s : State) (h : SafeOn s) : SafeOn (commandValve z p s) := by
  simp only [commandValve]
  split
  all_goals repeat' first
    | (with_reducible assumption)
    | (with_reducible refine setValve_safe _ _ _  ?_)
    | (with_reducible refine (safeOn_of_drive (placeValve_drive _ _ _ )).2 ?_)

theorem compareValve_safe (z : Nat) (s : State) (h : SafeOn s) : SafeOn (compareValve z s) := by
  simp only [compareValve]
  repeat' split
  all_goals repeat' first
    | (with_reducible assumption)
    | (with_reducible refine commandValve_safe _ _ _  ?_)

theorem changeCircuit_safe (new : Circuit) (s : State) (h : SafeOn s) : SafeOn (changeCircuit new s) := by
  simp only [changeCircuit]
  split
  · with_reducible assumption
  · refine deliverRecord_safe _ _ ((safeOn_of_drive (muCircuit_drive _ _)).2 ?_)
    split
    · exact (safeOn_of_drive (dmFiring_drive _)).2 ((safeOn_of_drive rfl).2 h)
    · exact (safeOn_of_drive rfl).2 h

theorem select_safe (s : State) (h : SafeOn s) : SafeOn (select s) := by
  rw [select]
  repeat' first
    | (with_reducible assumption)
    | (with_reducible refine changeCircuit_safe _ _  ?_)

theorem evaluateZone_safe (s : State) (z : Nat) (h : SafeOn s) : SafeOn (evaluateZone s z) := by
  simp only [evaluateZone]
  split
  all_goals repeat' first
    | (with_reducible assumption)
    | (with_reducible refine compareValve_safe _ _  ?_)
    | (with_reducible refine (safeOn_of_drive (State.onZone_drive _ _ _)).2 ?_)

theorem refresh_safe (s : State) (h : SafeOn s) : SafeOn (refresh s) := by
  rw [refresh]
  exact foldl_safe _ (fun s z h => evaluateZone_safe s z h) _ _ (select_safe s h)

theorem valveArrived_safe (z : Nat) (v : ValveState) (s : State) (h : SafeOn s) : SafeOn (valveArrived z v s) := by
  rw [valveArrived]
  repeat' first
    | (with_reducible assumption)
    | (with_reducible refine refresh_safe _  ?_)
    | (with_reducible refine setValve_safe _ _ _  ?_)
    | (with_reducible refine compareValve_safe _ _  ?_)

theorem valveResult_safe (z : Nat) (p : Position) (r : ValveResult) (s : State) (h : SafeOn s) : SafeOn (valveResult z p r s) := by
  simp only [valveResult]
  repeat' split
  all_goals repeat' first
    | (with_reducible assumption)
    | (with_reducible refine setValve_safe _ _ _  ?_)
    | (with_reducible refine compareValve_safe _ _  ?_)
    | (with_reducible refine refresh_safe _  ?_)
    | (with_reducible refine (safeOn_of_drive (State.onZone_drive _ _ _)).2 ?_)

theorem valveReport_safe (z : Nat) (node : Nat) (pos : Nat) (s : State) (h : SafeOn s) : SafeOn (valveReport z node pos s) := by
  simp only [valveReport]
  repeat' split
  all_goals repeat' first
    | (with_reducible assumption)
    | (with_reducible refine valveArrived_safe _ _ _  ?_)

theorem travelExpired_safe (z : Nat) (s : State) (h : SafeOn s) : SafeOn (travelExpired z s) := by
  simp only [travelExpired]
  repeat' split
  all_goals repeat' first
    | (with_reducible assumption)
    | (with_reducible refine valveArrived_safe _ _ _  ?_)
    | (with_reducible refine fmRaise_safe _ _ _  ?_)
    | (with_reducible refine (safeOn_of_drive (State.onZone_drive _ _ _)).2 ?_)

theorem reconcileZone_safe (s : State) (z : Nat) (h : SafeOn s) : SafeOn (reconcileZone s z) := by
  simp only [reconcileZone]
  split
  all_goals repeat' first
    | (with_reducible assumption)
    | (with_reducible refine commandValve_safe _ _ _  ?_)

theorem reconcile_safe (s : State) (h : SafeOn s) : SafeOn (reconcile s) := by
  rw [reconcile]
  exact foldl_safe _ (fun s z h => reconcileZone_safe s z h) _ _ h

theorem applyDemand_safe (z : Nat) (setpoint : Int) (temp : Value) (flag : Bool) (s : State) (h : SafeOn s) : SafeOn (applyDemand z setpoint temp flag s) := by
  rw [applyDemand]
  repeat' first
    | (with_reducible assumption)
    | (with_reducible refine refresh_safe _  ?_)
    | (with_reducible refine (safeOn_of_drive (State.onZone_drive _ _ _)).2 ?_)

theorem takeDemand_safe (node : Nat) (setpoint : Int) (temp : Value) (flag : Bool) (s : State) (h : SafeOn s) : SafeOn (takeDemand node setpoint temp flag s) := by
  simp only [takeDemand]
  split
  all_goals repeat' first
    | (with_reducible assumption)
    | (with_reducible refine applyDemand_safe _ _ _ _ _  ?_)

theorem roomUnitAbsent_safe (node : Nat) (s : State) (h : SafeOn s) : SafeOn (roomUnitAbsent node s) := by
  simp only [roomUnitAbsent]
  split
  all_goals repeat' first
    | (with_reducible assumption)
    | (with_reducible refine refresh_safe _  ?_)
    | (with_reducible refine (safeOn_of_drive (enterFallback_drive _ _ )).2 ?_)

theorem renewValve_safe (z : Nat) (s : State) (h : SafeOn s) : SafeOn (renewValve z s) := by
  rw [renewValve]
  repeat' first
    | (with_reducible assumption)
    | (with_reducible refine setValve_safe _ _ _  ?_)

theorem zoneWritten_safe (old : List Byte) (z : Nat) (s : State) (h : SafeOn s) : SafeOn (zoneWritten old z s) := by
  simp only [zoneWritten]
  repeat' split
  all_goals repeat' first
    | (with_reducible assumption)
    | (with_reducible refine renewValve_safe _ _  ?_)
    | (with_reducible refine refresh_safe _  ?_)
    | (with_reducible refine clearOverrun_safe _ _  ?_)
    | (with_reducible refine (safeOn_of_drive (State.onZone_drive _ _ _)).2 ?_)

@[simp] theorem nodeWrittenZone_drive (old : List Byte) (s : State) (z : Nat) : (nodeWrittenZone old s z).drive = s.drive := by
  simp only [nodeWrittenZone]
  repeat' split
  all_goals rfl

theorem nodesWritten_safe (old : List Byte) (s : State) (h : SafeOn s) : SafeOn (nodesWritten old s) := by
  rw [nodesWritten]
  exact refresh_safe _ ((safeOn_of_drive (foldl_drive _ (fun s z => nodeWrittenZone_drive old s z) _ _)).2 h)

@[simp] theorem divertSync_drive (s : State) : (divertSync s).drive = s.drive := by rfl

@[simp] theorem frameFallback_drive (s : State) (z : Nat) : (frameFallback s z).drive = s.drive := by
  simp only [frameFallback]
  split <;> rfl

theorem dmFrame_safe (s : State) (h : SafeOn s) : SafeOn (dmFrame s) := by
  simp only [dmFrame]
  refine refresh_safe _ ((safeOn_of_drive (divertSync_drive _)).2 ((safeOn_of_drive (State.onDm_drive _ _)).2 ?_))
  exact (safeOn_of_drive (foldl_drive _ (fun s z => frameFallback_drive s z) _ _)).2 h

@[simp] theorem antiCycleCheck_drive (s : State) : (antiCycleCheck s).drive = s.drive := by
  simp only [antiCycleCheck]
  repeat' split
  all_goals rfl

theorem dmBusReset_safe (s : State) (h : SafeOn s) : SafeOn (dmBusReset s) := by
  simp only [dmBusReset]
  refine refresh_safe _ ?_
  have hd : SafeOn (zoneNumbers.foldl (fun (s : State) (z : Nat) => if s.hasValve z then s.onZone z fun r => { r with valve := .unknown, travel := none, ack := false, overrun := false } else s.onZone z fun r => { r with travel := none, ack := false, overrun := false }) s) := by
    refine foldl_safe _ (fun s z hs => ?_) _ _ h
    split <;> exact (safeOn_of_drive rfl).2 hs
  split
  · exact fmClear_safe _ _ hd
  · exact hd

end Sys2Proof.Machine
end

