-- ==== Sys2Proof/Laws/BurnerRun.lean ====
section
/-! SUPPORT. Safe operation of the burner under the operations of the whole part: measurement, frame completion, bus, management and store. -/

namespace Sys2Proof.Machine

@[simp] theorem measure_drive (f : Frame) (s : State) : (measure f s).drive = s.drive := by rfl

theorem channelEvent_safe (old : Mp) (s : State) (c : Chan) (h : SafeOn s) : SafeOn (channelEvent old s c) := by
  simp only [channelEvent]
  repeat' split
  all_goals repeat' first
    | (with_reducible assumption)
    | (with_reducible refine fmRaise_safe _ _ _  ?_)
    | (with_reducible refine fmClear_safe _ _  ?_)

theorem disagreeReached_safe (s : State) (h : SafeOn s) : SafeOn (disagreeReached s) := by
  rw [disagreeReached]
  repeat' first
    | (with_reducible assumption)
    | (with_reducible refine fmRaise_safe _ _ _  ?_)
    | (with_reducible refine (safeOn_of_drive (State.onMp_drive _ _)).2 ?_)

theorem disagreeStep_safe (s : State) (h : SafeOn s) : SafeOn (disagreeStep s) := by
  simp only [disagreeStep]
  repeat' split
  all_goals repeat' first
    | (with_reducible assumption)
    | (with_reducible refine fmClear_safe _ _  ?_)
    | (with_reducible refine disagreeReached_safe _  ?_)
    | (with_reducible refine (safeOn_of_drive (State.onMp_drive _ _)).2 ?_)

theorem lowPressureStep_safe (s : State) (h : SafeOn s) : SafeOn (lowPressureStep s) := by
  simp only [lowPressureStep]
  repeat' split
  all_goals repeat' first
    | (with_reducible assumption)
    | (with_reducible refine fmRaise_safe _ _ _  ?_)
    | (with_reducible refine fmClear_safe _ _  ?_)
    | (with_reducible refine (safeOn_of_drive (State.onMp_drive _ _)).2 ?_)

theorem highPressureStep_safe (s : State) (h : SafeOn s) : SafeOn (highPressureStep s) := by
  simp only [highPressureStep]
  repeat' split
  all_goals repeat' first
    | (with_reducible assumption)
    | (with_reducible refine fmRaise_safe _ _ _  ?_)
    | (with_reducible refine fmClear_safe _ _  ?_)
    | (with_reducible refine (safeOn_of_drive (State.onMp_drive _ _)).2 ?_)

theorem flueHighStep_safe (s : State) (h : SafeOn s) : SafeOn (flueHighStep s) := by
  simp only [flueHighStep]
  repeat' split
  all_goals repeat' first
    | (with_reducible assumption)
    | (with_reducible refine fmRaise_safe _ _ _  ?_)
    | (with_reducible refine fmClear_safe _ _  ?_)
    | (with_reducible refine faultStop_safe _  ?_)
    | (with_reducible refine (safeOn_of_drive (State.onMp_drive _ _)).2 ?_)

theorem circulationReached_safe (s : State) (h : SafeOn s) : SafeOn (circulationReached s) := by
  rw [circulationReached]
  repeat' first
    | (with_reducible assumption)
    | (with_reducible refine fmRaise_safe _ _ _  ?_)
    | (with_reducible refine faultStop_safe _  ?_)
    | (with_reducible refine (safeOn_of_drive (State.onMp_drive _ _)).2 ?_)

theorem circulationStep_safe (s : State) (h : SafeOn s) : SafeOn (circulationStep s) := by
  simp only [circulationStep]
  repeat' split
  all_goals repeat' first
    | (with_reducible assumption)
    | (with_reducible refine circulationReached_safe _  ?_)
    | (with_reducible refine (safeOn_of_drive (State.onMp_drive _ _)).2 ?_)

theorem measureEvents_safe (old : Mp) (s : State) (h : SafeOn s) : SafeOn (measureEvents old s) := by
  rw [measureEvents]
  exact circulationStep_safe _ (flueHighStep_safe _ (highPressureStep_safe _ (lowPressureStep_safe _ (disagreeStep_safe _ (foldl_safe _ (fun s c h => channelEvent_safe old s c h) _ _ h)))))

theorem flameOnEvent_safe (s : State) (h : SafeOn s) : SafeOn (flameOnEvent s) := by
  simp only [flameOnEvent]
  repeat' split
  · exact establishFlame_safe s h (by assumption) (by assumption)
  · exact h
  · exact h
  · exact (safeOn_of_drive (State.onBs_drive _ _ rfl)).2 h

theorem flameLossEvent_safe (s : State) (h : SafeOn s) : SafeOn (flameLossEvent s) := by
  simp only [flameLossEvent]
  have hu : SafeOn (s.onBs fun b => { b with falseFlame := none, ffRaised := false }) :=
    (safeOn_of_drive (State.onBs_drive _ _ rfl)).2 h
  generalize (s.onBs fun b => { b with falseFlame := none, ffRaised := false }) = u at hu
  split
  case isFalse => exact hu
  case isTrue hs =>
    have hn := safe_none hu (by rcases hs with hs | hs <;> simp [hs])
    split
    · refine toPostPurge_safe _ _ _ _ ?_
      rw [show ((u.onBs fun b => { b with recycles := b.recycles + 1 }).bump 4).fm = u.fm from rfl]
      exact hn
    · exact fmRaise_safe _ _ _ (toPostPurge_safe _ _ _ _ hn)

theorem endOnPhase_safe (s : State) (h : SafeOn s) : SafeOn (endOnPhase s) := by
  rw [endOnPhase]
  repeat' first
    | (with_reducible assumption)
    | (with_reducible refine deliverRecord_safe _ _  ?_)
    | (with_reducible refine (safeOn_of_drive (offPhaseStart_drive _ )).2 ?_)
    | (with_reducible refine (safeOn_of_drive (State.onDm_drive _ _)).2 ?_)

theorem endOffPhase_safe (s : State) (h : SafeOn s) : SafeOn (endOffPhase s) := by
  rw [endOffPhase]
  repeat' first
    | (with_reducible assumption)
    | (with_reducible refine deliverRecord_safe _ _  ?_)
    | (with_reducible refine (safeOn_of_drive (State.onDm_drive _ _)).2 ?_)

@[simp] theorem countPhase_drive (s : State) : (countPhase s).drive = s.drive := by rfl

theorem onPhaseFrame_safe (count : Bool) (s : State) (h : SafeOn s) : SafeOn (onPhaseFrame count s) := by
  simp only [onPhaseFrame]
  repeat' split
  all_goals repeat' first
    | (with_reducible assumption)
    | (with_reducible refine endOnPhase_safe _  ?_)
    | (with_reducible refine (safeOn_of_drive (countPhase_drive _ )).2 ?_)

theorem offPhaseFrame_safe (s : State) (h : SafeOn s) : SafeOn (offPhaseFrame s) := by
  simp only [offPhaseFrame]
  repeat' split
  all_goals repeat' first
    | (with_reducible assumption)
    | (with_reducible refine endOffPhase_safe _  ?_)
    | (with_reducible refine (safeOn_of_drive (countPhase_drive _ )).2 ?_)

theorem chStopFrame_safe (s : State) (h : SafeOn s) : SafeOn (chStopFrame s) := by
  simp only [chStopFrame]
  repeat' split
  all_goals repeat' first
    | (with_reducible assumption)
    | (with_reducible refine deliverRecord_safe _ _  ?_)
    | (with_reducible refine (safeOn_of_drive (State.onDm_drive _ _)).2 ?_)

theorem dhwStopFrame_safe (s : State) (h : SafeOn s) : SafeOn (dhwStopFrame s) := by
  simp only [dhwStopFrame]
  repeat' split
  all_goals repeat' first
    | (with_reducible assumption)
    | (with_reducible refine deliverRecord_safe _ _  ?_)
    | (with_reducible refine (safeOn_of_drive (State.onDm_drive _ _)).2 ?_)

theorem chCycleFrame_safe (s : State) (h : SafeOn s) : SafeOn (chCycleFrame s) := by
  simp only [chCycleFrame]
  have hu := (safeOn_of_drive (muPending_drive s)).2 h
  generalize muPending s = u at hu
  repeat' split
  · exact onPhaseFrame_safe _ _ hu
  · exact offPhaseFrame_safe _ hu
  · exact onPhaseFrame_safe _ _ ((safeOn_of_drive (onPhaseStart_drive _)).2 hu)
  · exact chStopFrame_safe _ hu

@[simp] theorem deliverOutput_drive (s : State) : (deliverOutput s).drive = s.drive := by rfl

theorem muFrame_safe (s0 : State) (h : SafeOn s0) : SafeOn (muFrame s0) := by
  simp only [muFrame]
  have hu := (safeOn_of_drive (muCompute_drive s0)).2 h
  generalize muCompute s0 = u at hu
  have hf : ∀ v : State, SafeOn v →
      SafeOn (if v.bs.state = BurnerState.run ∧ marksSet s0.dm v.dm = false then deliverOutput v else v) := by
    intro v hv
    split
    · exact (safeOn_of_drive (deliverOutput_drive _)).2 hv
    · exact hv
  split
  · exact h
  · split
    · exact hf _ (chCycleFrame_safe _ hu)
    · exact hf _ (dhwStopFrame_safe _ hu)
    · exact hf _ hu
    · exact hf _ hu

theorem limitStep_safe (s : State) (h : SafeOn s) : SafeOn (limitStep s) := by
  simp only [limitStep]
  repeat' split
  all_goals repeat' first
    | (with_reducible assumption)
    | (with_reducible refine fmRaise_safe _ _ _  ?_)
    | (with_reducible refine fmClear_safe _ _  ?_)
    | (with_reducible refine faultStop_safe _  ?_)
    | ((with_reducible refine (safeOn_of_drive (State.onBs_drive _ _ ?_)).2 ?_); rfl)

theorem overheatStep_safe (s : State) (h : SafeOn s) : SafeOn (overheatStep s) := by
  simp only [overheatStep]
  repeat' split
  all_goals repeat' first
    | (with_reducible assumption)
    | (with_reducible refine fmRaise_safe _ _ _  ?_)
    | (with_reducible refine fmClear_safe _ _  ?_)
    | (with_reducible refine faultStop_safe _  ?_)
    | ((with_reducible refine (safeOn_of_drive (State.onBs_drive _ _ ?_)).2 ?_); rfl)

theorem mismatchFound_safe (r : Relay) (s : State) (h : SafeOn s) : SafeOn (mismatchFound r s) := by
  rw [mismatchFound]
  repeat' first
    | (with_reducible assumption)
    | (with_reducible refine fmRaise_safe _ _ _  ?_)
    | (with_reducible refine faultStop_safe _  ?_)
    | (with_reducible refine (safeOn_of_drive (setMismatch_drive _ _ _ _ )).2 ?_)

theorem preCheckRelay_safe (before : State) (s : State) (r : Relay) (h : SafeOn s) : SafeOn (preCheckRelay before s r) := by
  simp only [preCheckRelay]
  split
  all_goals repeat' first
    | (with_reducible assumption)
    | (with_reducible refine mismatchFound_safe _ _  ?_)

theorem relayCheck_safe (s : State) (h : SafeOn s) : SafeOn (relayCheck s) := by
  simp only [relayCheck]
  split
  · exact foldl_safe _ (fun t r h => preCheckRelay_safe s t r h) _ _ h
  · exact h

theorem preCheckStep_safe (s : State) (h : SafeOn s) : SafeOn (preCheckStep s) := by
  simp only [preCheckStep]
  have hu := relayCheck_safe s h
  split
  case isTrue hs => exact toPrePurge_safe _ (safe_none hu (by simp [hs.1]))
  case isFalse => exact hu

theorem fanDeviationReached_safe (s : State) (h : s.fm.lockout.state = .none) : SafeOn (fanDeviationReached s) := by
  simp only [fanDeviationReached]
  refine fmRaise_safe _ _ _ ((safeOn_of_drive (State.onBs_drive _ _ rfl)).2 ?_)
  split
  · exact toPostPurge_safe _ _ _ _ h
  · exact toStandby_safe _ _ h


theorem fanDeviationStep_safe (s : State) (h : SafeOn s) : SafeOn (fanDeviationStep s) := by
  simp only [fanDeviationStep]
  split
  case isTrue hs =>
    have hn := safe_none h (by rcases hs with hs | hs <;> simp [hs])
    split
    · split
      · exact fanDeviationReached_safe s hn
      · exact (safeOn_of_drive (State.onBs_drive _ _ rfl)).2 h
    · exact (safeOn_of_drive (State.onBs_drive _ _ rfl)).2 h
  case isFalse => exact (safeOn_of_drive (State.onBs_drive _ _ rfl)).2 h

theorem bsFrame_safe (s : State) (h : SafeOn s) : SafeOn (bsFrame s) := by
  simp only [bsFrame]
  have hu := overheatStep_safe _ (limitStep_safe _ h)
  generalize overheatStep (limitStep s) = u at hu
  refine fanDeviationStep_safe _ ((safeOn_of_drive (fanControl_drive _)).2 ?_)
  split
  · exact preCheckStep_safe _ hu
  case h_2 hs => exact purgeStep_safe _ hu hs
  all_goals exact hu

@[simp] theorem latchTables_drive (s : State) : (latchTables s).drive = s.drive := by rfl

@[simp] theorem frameClock_drive (s : State) : (frameClock s).drive = s.drive := by rfl

@[simp] theorem startUpRemoval_drive (first : Bool) (s : State) : (startUpRemoval first s).drive = s.drive := by
  simp only [startUpRemoval]
  split <;> rfl

theorem frameMeasure_safe (f : Frame) (s : State) (h : SafeOn s) : SafeOn (frameMeasure f s) := by
  simp only [frameMeasure]
  exact measureEvents_safe _ _ ((safeOn_of_drive (State.onMp_drive _ _)).2 ((safeOn_of_drive (measure_drive _ _)).2 ((safeOn_of_drive rfl).2 h)))

theorem frameStep_safe (f : Frame) (s : State) (h : SafeOn s) : SafeOn (frameStep f s) := by
  rw [frameStep]
  exact (safeOn_of_drive (startUpRemoval_drive _ _)).2 (bsFrame_safe _ ((safeOn_of_drive (antiCycleCheck_drive _)).2 (muFrame_safe _ (dmFrame_safe _ (frameMeasure_safe _ _ h)))))

@[simp] theorem passFrames_drive (n : Nat) (s : State) : (passFrames n s).drive = s.drive := by rfl

@[simp] theorem beginWrite_drive (j : Job) (s : State) : (beginWrite j s).drive = s.drive := by rfl

@[simp] theorem startWrite_drive (s : State) : (startWrite s).drive = s.drive := by
  simp only [startWrite]
  repeat' split
  all_goals rfl

theorem toPreCheck_safe (s : State) (h : s.fm.lockout.state = .none) : SafeOn (toPreCheck s) := by
  simp only [toPreCheck]
  refine relayCheck_safe _ ?_
  generalize State.deadline _ Config.tPchk = d
  have hd : ((setFanTarget 0 (bsMove .preCheck .fault false s)).onBs fun b => { b with retry := false, tPchk := d }).drive
      = ({ state := .preCheck, tPchk := d }, .none) := by
    have h1 : ∀ u : State, (u.onBs fun b => { b with retry := false, tPchk := d }).drive = ({ u.drive.1 with tPchk := d }, u.drive.2) :=
      fun _ => rfl
    rw [h1, setFanTarget_drive, bsMove_drive, h]
    rfl
  rw [safeOn_of_drive (s := { bs := { state := .preCheck, tPchk := d } }) (by rw [hd]; rfl)]
  simp [SafeOn, BurnerOk, onlyIn]


theorem leaveStandby_safe (s : State) (h : SafeOn s) : SafeOn (leaveStandby s) := by
  simp only [leaveStandby]
  split
  case isTrue hs =>
    refine toPreCheck_safe _ (safe_none h ?_)
    simp only [State.mayStart, Bool.and_eq_true, beq_iff_eq] at hs
    simp [hs.1.1]
  case isFalse => exact h

@[simp] theorem idleSync_drive (s : State) : (idleSync s).drive = s.drive := by
  simp only [idleSync]
  split <;> rfl

theorem settle_safe (s : State) (h : SafeOn s) : SafeOn (settle s) := by
  rw [settle]
  exact (safeOn_of_drive (startWrite_drive _)).2 ((safeOn_of_drive (idleSync_drive _)).2 (leaveStandby_safe _ h))

@[simp] theorem lineIdleFor_drive (n : Nat) (s : State) : (lineIdleFor n s).drive = s.drive := by rfl

@[simp] theorem lineDominant_drive (s : State) : (lineDominant s).drive = s.drive := by rfl

@[simp] theorem startSending_drive (s : State) : (startSending s).drive = s.drive := by rfl

@[simp] theorem zpRequest_drive (node : Nat) (kind : Nat) (payload : List Byte) (replies : List Nat) (s : State) : (zpRequest node kind payload replies s).drive = s.drive := by
  simp only [zpRequest]
  split <;> rfl

@[simp] theorem requestSent_drive (s : State) : (requestSent s).drive = s.drive := by
  simp only [requestSent]
  split <;> rfl

@[simp] theorem zpClosing_drive (payload : List Byte) (s : State) : (zpClosing payload s).drive = s.drive := by rfl

@[simp] theorem startReceiving_drive (edge : Nat) (s : State) : (startReceiving edge s).drive = s.drive := by rfl

@[simp] theorem rxByte_drive (b : Byte) (s : State) : (rxByte b s).drive = s.drive := by rfl

@[simp] theorem exchangeOver_drive (s : State) : (exchangeOver s).drive = s.drive := by rfl

@[simp] theorem recordFailure_drive (r : Reason) (s : State) : (recordFailure r s).drive = s.drive := by
  simp only [recordFailure]
  split <;> rfl

@[simp] theorem toSettling_drive (s : State) : (toSettling s).drive = s.drive := by rfl

@[simp] theorem toClearing_drive (kept : List Nat) (s : State) : (toClearing kept s).drive = s.drive := by rfl

theorem toFault_safe (s : State) (h : SafeOn s) : SafeOn (toFault s) := by
  rw [toFault]
  repeat' first
    | (with_reducible assumption)
    | (with_reducible refine fmRaise_safe _ _ _  ?_)
    | (with_reducible refine settle_safe _  ?_)
    | (with_reducible refine (safeOn_of_drive (State.onZp_drive _ _)).2 ?_)

theorem busFaultClear_safe (s : State) (h : SafeOn s) : SafeOn (busFaultClear s) := by
  simp only [busFaultClear]
  split
  all_goals repeat' first
    | (with_reducible assumption)
    | (with_reducible refine fmClear_safe _ _  ?_)
    | (with_reducible refine (safeOn_of_drive (State.onZp_drive _ _)).2 ?_)

@[simp] theorem setAnswer_drive (node : Nat) (p : List Byte) (s : State) : (setAnswer node p s).drive = s.drive := by rfl

theorem nodeRecordWritten_safe (old : NodeKind) (a : Nat) (s : State) (h : SafeOn s) : SafeOn (nodeRecordWritten old a s) := by
  simp only [nodeRecordWritten]
  repeat' split
  all_goals repeat' first
    | (with_reducible assumption)
    | (with_reducible refine fmClear_safe _ _  ?_)
    | (with_reducible refine (safeOn_of_drive (State.onNode_drive _ _ _)).2 ?_)

theorem applyWrite_safe (table : Nat) (e : Nat) (off : Nat) (d : List Byte) (s : State) (h : SafeOn s) : SafeOn (applyWrite table e off d s) := by
  simp only [applyWrite]
  split
  all_goals repeat' first
    | (with_reducible assumption)
    | (with_reducible refine nodeRecordWritten_safe _ _ _  ?_)
    | (with_reducible refine nodesWritten_safe _ _  ?_)
    | (with_reducible refine zoneWritten_safe _ _ _  ?_)
    | (with_reducible refine (safeOn_of_drive (State.onSt_drive _ _)).2 ?_)

theorem mgWriteLive_safe (table : Nat) (e : Nat) (data : List Byte) (s : State) (h : SafeOn s) : SafeOn (mgWriteLive table e data s).1 := by
  simp only [mgWriteLive]
  repeat' split
  all_goals first
    | exact h
    | exact applyWrite_safe _ _ _ _ _ ((safeOn_of_drive (State.offer_drive _ _)).2 h)

@[simp] theorem mgWriteStage_drive (e : Nat) (data : List Byte) (s : State) : (mgWriteStage e data s).1.drive = s.drive := by
  simp only [mgWriteStage]
  repeat' split
  all_goals rfl

theorem mgWriteEntry_safe (table : Nat) (e : Nat) (data : List Byte) (s : State) (h : SafeOn s) : SafeOn (mgWriteEntry table e data s).1 := by
  simp only [mgWriteEntry]
  split
  · exact (safeOn_of_drive (mgWriteStage_drive _ _ _)).2 h
  · exact mgWriteLive_safe _ _ _ _ h

@[simp] theorem commitAccept_drive (crc : Nat) (s : State) : (commitAccept crc s).drive = s.drive := by rfl

@[simp] theorem mgCommit_drive (crc : Nat) (s : State) : (mgCommit crc s).1.drive = s.drive := by
  simp only [mgCommit]
  repeat' split
  all_goals rfl

@[simp] theorem clampTchMax_drive (s : State) : (clampTchMax s).drive = s.drive := by
  simp only [clampTchMax]
  split <;> rfl

@[simp] theorem reclampTchMax_drive (s : State) : (reclampTchMax s).drive = s.drive := by
  simp only [reclampTchMax]
  repeat' split
  all_goals simp

@[simp] theorem lowerCounts_drive (s : State) : (lowerCounts s).drive = s.drive := by rfl

theorem commitComplete_safe (s : State) (h : SafeOn s) : SafeOn (commitComplete s) := by
  simp only [commitComplete]
  split
  all_goals repeat' first
    | (with_reducible assumption)
    | (with_reducible refine fmClear_safe _ _  ?_)
    | (with_reducible refine (safeOn_of_drive (reclampTchMax_drive _ )).2 ?_)
    | (with_reducible refine (safeOn_of_drive (lowerCounts_drive _ )).2 ?_)
    | (with_reducible refine (safeOn_of_drive (State.setCommitHold_drive _ _ )).2 ?_)
    | (with_reducible refine (safeOn_of_drive (State.onMg_drive _ _)).2 ?_)
    | (with_reducible refine (safeOn_of_drive (State.onSt_drive _ _)).2 ?_)

@[simp] theorem commitAbort_drive (k : Nat) (s : State) : (commitAbort k s).drive = s.drive := by rfl

@[simp] theorem placeProxy_drive (target : Nat) (item : Nat) (s : State) : (placeProxy target item s).drive = s.drive := by
  simp only [placeProxy]
  split <;> rfl

@[simp] theorem mgProxyRead_drive (target : Nat) (item : Nat) (s : State) : (mgProxyRead target item s).1.drive = s.drive := by
  simp only [mgProxyRead]
  repeat' split
  all_goals simp

@[simp] theorem slotReady_drive (r : Result) (data : List Byte) (s : State) : (slotReady r data s).drive = s.drive := by rfl

@[simp] theorem fetchResult_drive (r : Result) (data : List Byte) (s : State) : (fetchResult r data s).drive = s.drive := by
  simp only [fetchResult]
  split <;> rfl

@[simp] theorem mgBusReset_drive (s : State) : (mgBusReset s).drive = s.drive := by simp [mgBusReset]

@[simp] theorem mgClosing_drive (sent : Bool) (s : State) : (mgClosing sent s).drive = s.drive := by rfl

@[simp] theorem slotExpired_drive (s : State) : (slotExpired s).drive = s.drive := by rfl

theorem mgLockoutReset_safe (rights : Rights) (node : Nat) (s : State) (h : SafeOn s) : SafeOn (mgLockoutReset rights node s).1 := by exact fmReset_safe _ _ _ h

@[simp] theorem mgClearHistory_drive (s : State) : (mgClearHistory s).1.drive = s.drive := by
  simp only [mgClearHistory]
  split <;> simp

@[simp] theorem mgRestart_drive (s : State) : (mgRestart s).1.drive = s.drive := by
  simp only [mgRestart]
  split <;> rfl

theorem mgCarryOut_safe (node : Nat) (kind : Nat) (ps : List Byte) (s : State) (h : SafeOn s) : SafeOn (mgCarryOut node kind ps s).1 := by
  unfold mgCarryOut
  split
  · exact h
  · exact mgWriteEntry_safe _ _ _ _ h
  · exact (safeOn_of_drive (mgCommit_drive _ _)).2 h
  · exact h
  · exact h
  · exact mgLockoutReset_safe _ _ _ h
  · exact (safeOn_of_drive (mgProxyRead_drive _ _ _)).2 h
  · exact (safeOn_of_drive (mgClearHistory_drive _)).2 h
  · exact (safeOn_of_drive (mgRestart_drive _)).2 h

theorem mgDecide_safe (node : Nat) (kind : Nat) (ps : List Byte) (s : State) (h : SafeOn s) : SafeOn (mgDecide node kind ps s).1 := by
  simp only [mgDecide]
  repeat' split
  all_goals first
    | exact h
    | exact mgCarryOut_safe _ _ _ _ h

theorem mgHandle_safe (node : Nat) (kind : Byte) (tag : Byte) (ps : List Byte) (s : State) (h : SafeOn s) : SafeOn (mgHandle node kind tag ps s) := by
  simp only [mgHandle]
  exact (safeOn_of_drive (setAnswer_drive _ _ _)).2 (mgDecide_safe _ _ _ _ h)

theorem presenceGood_safe (a : Nat) (s : State) (h : SafeOn s) : SafeOn (presenceGood a s) := by
  simp only [presenceGood]
  split
  all_goals repeat' first
    | (with_reducible assumption)
    | (with_reducible refine fmClear_safe _ _  ?_)
    | (with_reducible refine (safeOn_of_drive (State.onNode_drive _ _ _)).2 ?_)

theorem nodeBecomesAbsent_safe (a : Nat) (s : State) (h : SafeOn s) : SafeOn (nodeBecomesAbsent a s) := by
  simp only [nodeBecomesAbsent]
  split
  all_goals repeat' first
    | (with_reducible assumption)
    | (with_reducible refine fmRaise_safe _ _ _  ?_)
    | (with_reducible refine roomUnitAbsent_safe _ _  ?_)

theorem presenceMiss_safe (a : Nat) (s : State) (h : SafeOn s) : SafeOn (presenceMiss a s) := by
  simp only [presenceMiss]
  repeat' split
  all_goals repeat' first
    | (with_reducible assumption)
    | (with_reducible refine nodeBecomesAbsent_safe _ _  ?_)
    | (with_reducible refine (safeOn_of_drive (State.onNode_drive _ _ _)).2 ?_)

@[simp] theorem hand_drive (f : InFlight) (node : Nat) (kind : Nat) (payload : List Byte) (replies : List Nat) (s : State) : (hand f node kind payload replies s).drive = s.drive := by simp [hand]

@[simp] theorem noteOverflow_drive (t : Taken) (s : State) : (noteOverflow t s).drive = s.drive := by
  simp only [noteOverflow]
  split <;> rfl

@[simp] theorem handEntry_drive (t : Taken) (s : State) : (handEntry t s).drive = s.drive := by simp [handEntry]

@[simp] theorem handServicePoll_drive (s : State) : (handServicePoll s).drive = s.drive := by simp [handServicePoll]

@[simp] theorem removeInFlight_drive (s : State) : (removeInFlight s).drive = s.drive := by rfl

@[simp] theorem afterService_drive (s : State) : (afterService s).drive = s.drive := by
  simp only [afterService]
  repeat' split
  all_goals simp

@[simp] theorem serveLow_drive (low : Bool) (s : State) : (serveLow low s).drive = s.drive := by
  simp only [serveLow]
  repeat' split
  all_goals simp

theorem serveZones_safe (low : Bool) (zs : List Nat) (s : State) (h : SafeOn s) : SafeOn (serveZones low zs s) := by
  induction zs generalizing s with
  | nil => exact (safeOn_of_drive (serveLow_drive _ _)).2 h
  | cons z r ih =>
    simp only [serveZones]
    repeat' split
    · exact ih _ h
    · exact ih _ (valveResult_safe _ _ _ _ ((safeOn_of_drive (State.onPe_drive _ _)).2 h))
    · exact (safeOn_of_drive (hand_drive _ _ _ _ _ _)).2 ((safeOn_of_drive (State.onPe_drive _ _)).2 h)


theorem servicePoint_safe (s : State) (h : SafeOn s) : SafeOn (servicePoint s) := by
  rw [servicePoint]
  exact serveZones_safe _ _ _ h

theorem passEnd_safe (s : State) (h : SafeOn s) : SafeOn (passEnd s) := by
  rw [passEnd]
  exact servicePoint_safe _ (reconcile_safe _ ((safeOn_of_drive (State.onRound_drive _ _)).2 h))

theorem takeUp_safe (n : Nat) (t : Taken) (s : State) (h : SafeOn s) : SafeOn (takeUp n t s) := by
  induction n generalizing t s with
  | zero => exact h
  | succ n ih =>
    have hu : SafeOn (s.onRound fun r => { r with cur := some t, pre := none }) :=
      (safeOn_of_drive (State.onRound_drive _ _)).2 h
    simp only [takeUp]
    repeat' split
    · exact servicePoint_safe _ hu
    · exact ih _ _ hu
    · exact passEnd_safe _ hu


theorem startRound_safe (s : State) (h : SafeOn s) : SafeOn (startRound s) := by
  simp only [startRound]
  split
  · exact h
  · exact takeUp_safe _ _ _ ((safeOn_of_drive (State.onRound_drive _ _)).2 h)

theorem maybeStart_safe (s : State) (h : SafeOn s) : SafeOn (maybeStart s) := by
  simp only [maybeStart]
  split
  all_goals repeat' first
    | (with_reducible assumption)
    | (with_reducible refine startRound_safe _  ?_)

theorem roundEnd_safe (s : State) (h : SafeOn s) : SafeOn (roundEnd s) := by
  rw [roundEnd]
  repeat' first
    | (with_reducible assumption)
    | (with_reducible refine maybeStart_safe _  ?_)
    | (with_reducible refine (safeOn_of_drive (State.onRound_drive _ _)).2 ?_)

theorem afterEntry_safe (s : State) (h : SafeOn s) : SafeOn (afterEntry s) := by
  simp only [afterEntry]
  repeat' split
  all_goals first
    | (with_reducible exact h)
    | (with_reducible exact passEnd_safe _ h)
    | (with_reducible exact takeUp_safe _ _ _ h)

theorem peContinue_safe (f : InFlight) (s : State) (h : SafeOn s) : SafeOn (peContinue f s) := by
  simp only [peContinue]
  have hu : SafeOn (s.onPe fun p => { p with portReady := true, round := { p.round with inFlight := none } }) :=
    (safeOn_of_drive (State.onPe_drive _ _)).2 h
  repeat' split
  all_goals first
    | (with_reducible exact hu)
    | (with_reducible exact afterEntry_safe _ hu)
    | (with_reducible exact roundEnd_safe _ hu)
    | (with_reducible exact serveZones_safe _ _ _ hu)

theorem readyReport_safe (s : State) (h : SafeOn s) : SafeOn (readyReport s) := by
  simp only [readyReport]
  split
  all_goals repeat' first
    | (with_reducible assumption)
    | (with_reducible refine startRound_safe _  ?_)
    | (with_reducible refine maybeStart_safe _  ?_)
    | (with_reducible refine (safeOn_of_drive (State.onPe_drive _ _)).2 ?_)

@[simp] theorem modifierSkip_drive (s : State) : (modifierSkip s).drive = s.drive := by
  simp only [modifierSkip]
  repeat' split
  all_goals rfl

@[simp] theorem takeOutdoor_drive (node : Nat) (p : List Byte) (s : State) : (takeOutdoor node p s).drive = s.drive := by
  simp only [takeOutdoor]
  split <;> rfl

theorem handToMg_safe (node : Nat) (p : List Byte) (s : State) (h : SafeOn s) : SafeOn (handToMg node p s) := by
  rw [handToMg]
  repeat' first
    | (with_reducible assumption)
    | (with_reducible refine mgHandle_safe _ _ _ _ _  ?_)

theorem takeEntryReply_safe (t : Taken) (node : Nat) (kind : Nat) (p : List Byte) (s : State) (h : SafeOn s) : SafeOn (takeEntryReply t node kind p s) := by
  simp only [takeEntryReply]
  repeat' split
  all_goals repeat' first
    | (with_reducible assumption)
    | (with_reducible refine valveReport_safe _ _ _ _  ?_)
    | (with_reducible refine handToMg_safe _ _ _  ?_)
    | (with_reducible refine takeDemand_safe _ _ _ _ _  ?_)
    | (with_reducible refine (safeOn_of_drive (takeOutdoor_drive _ _ _ )).2 ?_)

theorem takeReply_safe (f : InFlight) (node : Nat) (kind : Nat) (p : List Byte) (s : State) (h : SafeOn s) : SafeOn (takeReply f node kind p s) := by
  simp only [takeReply]
  have hu := presenceGood_safe node s h
  repeat' split
  all_goals first
    | (with_reducible exact hu)
    | (with_reducible exact takeEntryReply_safe _ _ _ _ _ hu)
    | (with_reducible exact takeEntryReply_safe _ _ _ _ _ ((safeOn_of_drive (modifierSkip_drive _)).2 hu))
    | (with_reducible exact handToMg_safe _ _ _ hu)
    | (with_reducible exact valveResult_safe _ _ _ _ ((safeOn_of_drive (removeInFlight_drive _)).2 hu))
    | (with_reducible exact (safeOn_of_drive (fetchResult_drive _ _ _)).2 ((safeOn_of_drive (removeInFlight_drive _)).2 hu))

theorem takeFailure_safe (f : InFlight) (node : Nat) (s : State) (h : SafeOn s) : SafeOn (takeFailure f node s) := by
  simp only [takeFailure]
  have hu := presenceMiss_safe node s h
  repeat' split
  all_goals first
    | (with_reducible exact hu)
    | (with_reducible exact valveResult_safe _ _ _ _ ((safeOn_of_drive (removeInFlight_drive _)).2 hu))
    | (with_reducible exact (safeOn_of_drive (fetchResult_drive _ _ _)).2 ((safeOn_of_drive (removeInFlight_drive _)).2 hu))

theorem peBusReset_safe (s : State) (h : SafeOn s) : SafeOn (peBusReset s) := by
  simp only [peBusReset]
  split
  all_goals repeat' first
    | (with_reducible assumption)
    | (with_reducible refine fmClear_safe _ _  ?_)
    | (with_reducible refine (safeOn_of_drive (State.onPe_drive _ _)).2 ?_)

theorem failExchange_safe (r : Reason) (s : State) (h : SafeOn s) : SafeOn (failExchange r s) := by
  simp only [failExchange]
  split
  all_goals repeat' first
    | (with_reducible assumption)
    | (with_reducible refine peContinue_safe _ _  ?_)
    | (with_reducible refine takeFailure_safe _ _ _  ?_)
    | (with_reducible refine (safeOn_of_drive (recordFailure_drive _ _ )).2 ?_)

theorem closingOutcome_safe (sent : Bool) (s : State) (h : SafeOn s) : SafeOn (closingOutcome sent s) := by
  cases sent <;> simp only [closingOutcome] <;> split
  all_goals simp only [if_true, Bool.false_eq_true, if_false]
  all_goals repeat' first
    | (with_reducible assumption)
    | (with_reducible refine peContinue_safe _ _  ?_)
    | (with_reducible refine (safeOn_of_drive (recordFailure_drive _ _ )).2 ?_)
    | (with_reducible refine (safeOn_of_drive (exchangeOver_drive _ )).2 ?_)
    | (with_reducible refine (safeOn_of_drive (mgClosing_drive _ _ )).2 ?_)

theorem finishReply_safe (closing : Bool) (f : InFlight) (s : State) (h : SafeOn s) : SafeOn (finishReply closing f s) := by
  simp only [finishReply]
  split
  all_goals repeat' first
    | (with_reducible assumption)
    | (with_reducible refine peContinue_safe _ _  ?_)
    | (with_reducible refine (safeOn_of_drive (exchangeOver_drive _ )).2 ?_)
    | (with_reducible refine (safeOn_of_drive (zpClosing_drive _ _ )).2 ?_)

theorem goodReply_safe (f : InFlight) (node : Nat) (kind : Nat) (p : List Byte) (s : State) (h : SafeOn s) : SafeOn (goodReply f node kind p s) := by
  rw [goodReply]
  repeat' first
    | (with_reducible assumption)
    | (with_reducible refine takeReply_safe _ _ _ _ _  ?_)
    | (with_reducible refine finishReply_safe _ _ _  ?_)
    | (with_reducible refine busFaultClear_safe _  ?_)
    | (with_reducible refine (safeOn_of_drive (State.onZp_drive _ _)).2 ?_)

theorem replyComplete_safe (check : Byte) (s : State) (h : SafeOn s) : SafeOn (replyComplete check s) := by
  simp only [replyComplete]
  repeat' split
  all_goals repeat' first
    | (with_reducible assumption)
    | (with_reducible refine goodReply_safe _ _ _ _ _  ?_)
    | (with_reducible refine failExchange_safe _ _  ?_)

theorem resetExchange_safe (s : State) (h : SafeOn s) : SafeOn (resetExchange s) := by
  simp only [resetExchange]
  repeat' split
  all_goals repeat' first
    | (with_reducible assumption)
    | (with_reducible refine takeFailure_safe _ _ _  ?_)
    | (with_reducible refine (safeOn_of_drive (exchangeOver_drive _ )).2 ?_)
    | (with_reducible refine (safeOn_of_drive (mgClosing_drive _ _ )).2 ?_)
    | (with_reducible refine (safeOn_of_drive (recordFailure_drive _ _ )).2 ?_)

theorem busPortReset_safe (s : State) (h : SafeOn s) : SafeOn (busPortReset s) := by
  rw [busPortReset]
  repeat' first
    | (with_reducible assumption)
    | (with_reducible refine peBusReset_safe _  ?_)
    | (with_reducible refine resetExchange_safe _  ?_)
    | (with_reducible refine dmBusReset_safe _  ?_)
    | (with_reducible refine (safeOn_of_drive (mgBusReset_drive _ )).2 ?_)
    | (with_reducible refine (safeOn_of_drive (State.onZp_drive _ _)).2 ?_)

theorem busClear_safe (s : State) (h : SafeOn s) : SafeOn (busClear s) := by
  simp only [busClear]
  split
  all_goals repeat' first
    | (with_reducible assumption)
    | (with_reducible refine busPortReset_safe _  ?_)
    | (with_reducible refine toFault_safe _  ?_)
    | (with_reducible refine (safeOn_of_drive (toClearing_drive _ _ )).2 ?_)

theorem overcurrent_safe (s : State) (h : SafeOn s) : SafeOn (overcurrent s) := by
  simp only [overcurrent]
  split
  all_goals repeat' first
    | (with_reducible assumption)
    | (with_reducible refine busPortReset_safe _  ?_)
    | (with_reducible refine toFault_safe _  ?_)

theorem mgmtRequest_safe (node : Nat) (kind : Byte) (tag : Byte) (ps : List Byte) (s : State) (h : SafeOn s) : SafeOn (mgmtRequest node kind tag ps s) := by
  simp only [mgmtRequest]
  repeat' split
  all_goals repeat' first
    | (with_reducible assumption)
    | (with_reducible refine goodReply_safe _ _ _ _ _  ?_)
    | (with_reducible refine mgHandle_safe _ _ _ _ _  ?_)
    | (with_reducible refine (safeOn_of_drive (mgClosing_drive _ _ )).2 ?_)

@[simp] theorem reofferPage_drive (s : State) (page : Nat) : (reofferPage s page).drive = s.drive := by
  simp only [reofferPage]
  split <;> simp

@[simp] theorem fmReoffer_drive (s : State) : (fmReoffer s).drive = s.drive := by
  simp only [fmReoffer]
  rw [foldl_drive _ (fun s p => reofferPage_drive s p)]
  split
  · rw [State.onFm_drive _ _ rfl, State.offer_drive]
  · rfl

@[simp] theorem reofferLockout_drive (page : Nat) (good : Bool) (s : State) : (reofferLockout page good s).drive = s.drive := by
  simp only [reofferLockout]
  split
  · rw [queueLockoutPage_drive, State.onFm_drive _ _ rfl]
  · rfl

theorem fmPage8_safe (good : Bool) (carried : LockState) (s : State) (h : SafeOn s) : SafeOn (fmPage8 good carried s) := by
  simp only [fmPage8]
  have hu : SafeOn (if s.st.lockJob = true then s else s.onFm fun f => { f with writeOut := false }) := by
    split
    · exact h
    · exact (safeOn_of_drive (State.onFm_drive _ _ rfl)).2 h
  generalize (if s.st.lockJob = true then s else s.onFm fun f => { f with writeOut := false }) = u at hu
  repeat' split
  all_goals first
    | (with_reducible exact hu)
    | (with_reducible exact resetComplete_safe _)
    | exact (safeOn_of_drive (State.onFm_drive _ _ rfl)).2 hu

theorem fmReport_safe (w : Write) (good : Bool) (s : State) (h : SafeOn s) : SafeOn (fmReport w good s) := by
  simp only [fmReport]
  refine (safeOn_of_drive (reofferLockout_drive _ _ _)).2 ((safeOn_of_drive (fmReoffer_drive _)).2 ?_)
  split
  · exact fmPage8_safe _ _ _ h
  · exact h

theorem mgReport_safe (w : Write) (good : Bool) (s : State) (h : SafeOn s) : SafeOn (mgReport w good s) := by
  simp only [mgReport]
  have hu : SafeOn (if w.commit = true then (if good = true then (if w.page = 7 then commitComplete s else s) else commitAbort w.page s) else s) := by
    repeat' split
    · exact commitComplete_safe _ h
    · exact h
    · exact (safeOn_of_drive (commitAbort_drive _ _)).2 h
    · exact h
  generalize (if w.commit = true then (if good = true then (if w.page = 7 then commitComplete s else s) else commitAbort w.page s) else s) = u at hu
  split
  · exact (safeOn_of_drive (State.onMg_drive _ _)).2 ((safeOn_of_drive (State.offer_drive _ _)).2 hu)
  · exact hu

@[simp] theorem reofferCounters_drive (s : State) : (reofferCounters s).drive = s.drive := by
  simp only [reofferCounters]
  split <;> simp

theorem writeReports_safe (w : Write) (good : Bool) (s : State) (h : SafeOn s) : SafeOn (writeReports w good s) := by
  rw [writeReports]
  repeat' first
    | (with_reducible assumption)
    | (with_reducible refine mgReport_safe _ _ _  ?_)
    | (with_reducible refine fmReport_safe _ _ _  ?_)
    | (with_reducible refine (safeOn_of_drive (reofferCounters_drive _ )).2 ?_)

theorem writeGood_safe (w : Write) (s : State) (h : SafeOn s) : SafeOn (writeGood w s) := by
  simp only [writeGood]
  split
  · exact fmClear_safe _ _ ((safeOn_of_drive rfl).2 h)
  · exact (safeOn_of_drive rfl).2 h

theorem writeDropped_safe (w : Write) (s : State) (h : SafeOn s) : SafeOn (writeDropped w s) := by
  simp only [writeDropped]
  exact fmRaise_safe _ _ _ ((safeOn_of_drive rfl).2 h)

theorem writeEnd_safe (verified : Bool) (s : State) (h : SafeOn s) : SafeOn (writeEnd verified s) := by
  simp only [writeEnd]
  repeat' split
  · exact h
  · exact writeReports_safe _ _ _ (writeGood_safe _ _ ((safeOn_of_drive (State.reach_drive _ _)).2 h))
  · exact (safeOn_of_drive (State.onSt_drive _ _)).2 ((safeOn_of_drive (State.reach_drive _ _)).2 h)
  · exact writeReports_safe _ _ _ (writeDropped_safe _ _ ((safeOn_of_drive (State.reach_drive _ _)).2 h))

@[simp] theorem runSecond_drive (s : State) : (runSecond s).drive = s.drive := by
  simp only [runSecond]
  repeat' split
  all_goals rfl

@[simp] theorem idleSecond_drive (s : State) : (idleSecond s).drive = s.drive := by
  simp only [idleSecond]
  split <;> rfl

@[simp] theorem secondClock_drive (s : State) : (secondClock s).drive = s.drive := by rfl

@[simp] theorem secondStep_drive (s : State) : (secondStep s).drive = s.drive := by
  simp only [secondStep]
  split <;> simp

theorem disagreeTimeout_safe (s : State) (h : SafeOn s) : SafeOn (disagreeTimeout s) := by
  simp only [disagreeTimeout]
  split
  all_goals repeat' first
    | (with_reducible assumption)
    | (with_reducible refine disagreeReached_safe _  ?_)
    | (with_reducible refine (safeOn_of_drive (passFrames_drive _ _ )).2 ?_)

theorem circulationTimeout_safe (s : State) (h : SafeOn s) : SafeOn (circulationTimeout s) := by
  simp only [circulationTimeout]
  split
  all_goals repeat' first
    | (with_reducible assumption)
    | (with_reducible refine circulationReached_safe _  ?_)
    | (with_reducible refine (safeOn_of_drive (passFrames_drive _ _ )).2 ?_)

theorem fanDeviationTimeout_safe (s : State) (h : SafeOn s) : SafeOn (fanDeviationTimeout s) := by
  simp only [fanDeviationTimeout]
  split
  case isTrue hs =>
    have hn := safe_none h (by rcases hs.1 with hs | hs <;> simp [hs])
    exact fanDeviationReached_safe _ hn
  case isFalse => exact h

theorem purgeTimeout_safe (s : State) (h : SafeOn s) : SafeOn (purgeTimeout s) := by
  simp only [purgeTimeout]
  split
  · split
    case isTrue hs =>
      have hn := safe_none h (by simp [hs])
      exact toIgnition_safe _ hn
    case isFalse => exact h
  all_goals exact h

theorem onPhaseTimeout_safe (s : State) (h : SafeOn s) : SafeOn (onPhaseTimeout s) := by
  simp only [onPhaseTimeout]
  split
  all_goals repeat' first
    | (with_reducible assumption)
    | (with_reducible refine endOnPhase_safe _  ?_)
    | (with_reducible refine (safeOn_of_drive (passFrames_drive _ _ )).2 ?_)
    | (with_reducible refine (safeOn_of_drive (State.onCyc_drive _ _)).2 ?_)

theorem offPhaseTimeout_safe (s : State) (h : SafeOn s) : SafeOn (offPhaseTimeout s) := by
  simp only [offPhaseTimeout]
  split
  all_goals repeat' first
    | (with_reducible assumption)
    | (with_reducible refine endOffPhase_safe _  ?_)
    | (with_reducible refine (safeOn_of_drive (passFrames_drive _ _ )).2 ?_)
    | (with_reducible refine (safeOn_of_drive (State.onCyc_drive _ _)).2 ?_)

theorem fallbackTimeout_safe (z : Nat) (s : State) (h : SafeOn s) : SafeOn (fallbackTimeout z s) := by
  simp only [fallbackTimeout]
  split
  all_goals repeat' first
    | (with_reducible assumption)
    | (with_reducible refine refresh_safe _  ?_)
    | (with_reducible refine (safeOn_of_drive (enterFallback_drive _ _ )).2 ?_)

theorem flameSampled_safe (raw : Sample) (s : State) (h : SafeOn s) : SafeOn (flameSampled raw s) := by
  simp only [flameSampled]
  split
  · exact (safeOn_of_drive rfl).2 h
  · exact flameOnEvent_safe _ ((safeOn_of_drive rfl).2 h)
  · exact flameLossEvent_safe _ ((safeOn_of_drive rfl).2 h)

@[simp] theorem pulseCounted_drive (line : PulseLine) (s : State) : (pulseCounted line s).drive = s.drive := by rfl

theorem overrunExpired_safe (s : State) (h : SafeOn s) : SafeOn (overrunExpired s) := by
  rw [overrunExpired]
  repeat' first
    | (with_reducible assumption)
    | (with_reducible refine refresh_safe _  ?_)
    | (with_reducible refine (safeOn_of_drive (divertSync_drive _ )).2 ?_)
    | (with_reducible refine (safeOn_of_drive (State.onDm_drive _ _)).2 ?_)

@[simp] theorem divertEnded_drive (s : State) : (divertEnded s).drive = s.drive := by rfl

@[simp] theorem kickBegins_drive (s : State) : (kickBegins s).drive = s.drive := by
  simp only [kickBegins]
  split <;> rfl

@[simp] theorem kickEnds_drive (s : State) : (kickEnds s).drive = s.drive := by rfl

@[simp] theorem resetInChanged_drive (low : Bool) (s : State) : (resetInChanged low s).drive = s.drive := by
  simp only [resetInChanged]
  split <;> rfl

theorem blockingExpired_safe (src : Source) (s : State) (h : SafeOn s) : SafeOn (blockingExpired src s) := by
  rw [blockingExpired]
  exact removeRecord_safe _ _ ((safeOn_of_drive (State.onFm_drive _ _ (Fm.setBlockTimer_lockout _ _ _))).2 h)

theorem resetInPressed_safe (s : State) (h : SafeOn s) : SafeOn (resetInPressed s) := by
  rw [resetInPressed]
  repeat' first
    | (with_reducible assumption)
    | (with_reducible refine fmReset_safe _ _ _  ?_)
    | ((with_reducible refine (safeOn_of_drive (State.onFm_drive _ _ ?_)).2 ?_); rfl)

theorem settleExpired_safe (s : State) (h : SafeOn s) : SafeOn (settleExpired s) := by
  rw [settleExpired]
  repeat' first
    | (with_reducible assumption)
    | (with_reducible refine settle_safe _  ?_)
    | (with_reducible refine readyReport_safe _  ?_)
    | (with_reducible refine (safeOn_of_drive (State.onZp_drive _ _)).2 ?_)

theorem periodExpired_safe (s : State) (h : SafeOn s) : SafeOn (periodExpired s) := by
  rw [periodExpired]
  repeat' first
    | (with_reducible assumption)
    | (with_reducible refine maybeStart_safe _  ?_)
    | (with_reducible refine (safeOn_of_drive (State.onRound_drive _ _)).2 ?_)

@[simp] theorem lineCheckIdle_drive (s : State) : (lineCheckIdle s).drive = s.drive := by
  simp only [lineCheckIdle]
  split <;> rfl

theorem lineDominance_safe (s : State) (h : SafeOn s) : SafeOn (lineDominance s) := by
  simp only [lineDominance]
  repeat' split
  all_goals repeat' first
    | (with_reducible assumption)
    | (with_reducible refine busClear_safe _  ?_)
    | (with_reducible refine (safeOn_of_drive (State.reach_drive _ _)).2 ?_)

theorem lineCheckLong_safe (s : State) (h : SafeOn s) : SafeOn (lineCheckLong s) := by
  simp only [lineCheckLong]
  repeat' split
  all_goals repeat' first
    | (with_reducible assumption)
    | (with_reducible refine busClear_safe _  ?_)
    | (with_reducible refine (safeOn_of_drive (State.reach_drive _ _)).2 ?_)

@[simp] theorem requestEnd_drive (s : State) : (requestEnd s).drive = s.drive := by
  simp only [requestEnd]
  repeat' split
  all_goals simp

theorem holdReached_safe (s : State) (h : SafeOn s) : SafeOn (holdReached s) := by
  simp only [holdReached]
  repeat' split
  all_goals repeat' first
    | (with_reducible assumption)
    | (with_reducible refine closingOutcome_safe _ _  ?_)
    | (with_reducible refine failExchange_safe _ _  ?_)
    | (with_reducible refine (safeOn_of_drive (State.reach_drive _ _)).2 ?_)

@[simp] theorem markSeen_drive (run : Nat) (s : State) : (markSeen run s).drive = s.drive := by
  simp only [markSeen]
  repeat' split
  all_goals rfl

theorem replyWindowEnds_safe (s : State) (h : SafeOn s) : SafeOn (replyWindowEnds s) := by
  simp only [replyWindowEnds]
  split
  all_goals repeat' first
    | (with_reducible assumption)
    | (with_reducible refine failExchange_safe _ _  ?_)
    | (with_reducible refine (safeOn_of_drive (State.onExch_drive _ _)).2 ?_)

theorem rxTooLong_safe (s : State) (h : SafeOn s) : SafeOn (rxTooLong s) := by
  rw [rxTooLong]
  repeat' first
    | (with_reducible assumption)
    | (with_reducible refine failExchange_safe _ _  ?_)

theorem framingBroken_safe (c : FramingCause) (s : State) (h : SafeOn s) : SafeOn (framingBroken c s) := by
  simp only [framingBroken]
  repeat' split
  all_goals first
    | (with_reducible exact h)
    | exact failExchange_safe _ _ ((safeOn_of_drive rfl).2 h)

theorem replyByte_safe (b : Byte) (s : State) (h : SafeOn s) : SafeOn (replyByte b s) := by
  simp only [replyByte]
  repeat' split
  all_goals repeat' first
    | (with_reducible assumption)
    | (with_reducible refine failExchange_safe _ _  ?_)
    | (with_reducible refine (safeOn_of_drive (lineIdleFor_drive _ _ )).2 ?_)
    | (with_reducible refine (safeOn_of_drive (rxByte_drive _ _ )).2 ?_)

theorem replyCheck_safe (b : Byte) (s : State) (h : SafeOn s) : SafeOn (replyCheck b s) := by
  simp only [replyCheck]
  split
  all_goals repeat' first
    | (with_reducible assumption)
    | (with_reducible refine replyComplete_safe _ _  ?_)
    | (with_reducible refine (safeOn_of_drive (lineIdleFor_drive _ _ )).2 ?_)

theorem closingEnd_safe (s : State) (h : SafeOn s) : SafeOn (closingEnd s) := by
  simp only [closingEnd]
  repeat' split
  all_goals repeat' first
    | (with_reducible assumption)
    | (with_reducible refine closingOutcome_safe _ _  ?_)
    | (with_reducible refine (safeOn_of_drive (lineIdleFor_drive _ _ )).2 ?_)
    | (with_reducible refine (safeOn_of_drive (State.reach_drive _ _)).2 ?_)

@[simp] theorem lineFalls_drive (s : State) : (lineFalls s).drive = s.drive := by rfl

theorem lineRises_safe (since : Nat) (s : State) (h : SafeOn s) : SafeOn (lineRises since s) := by
  simp only [lineRises]
  repeat' split
  all_goals repeat' first
    | (with_reducible assumption)
    | (with_reducible refine failExchange_safe _ _  ?_)
    | (with_reducible refine (safeOn_of_drive (State.onExch_drive _ _)).2 ?_)

theorem lineChanged_safe (dominant : Bool) (since : Nat) (s : State) (h : SafeOn s) : SafeOn (lineChanged dominant since s) := by
  simp only [lineChanged]
  repeat' split
  all_goals repeat' first
    | (with_reducible assumption)
    | (with_reducible refine lineRises_safe _ _  ?_)
    | (with_reducible refine (safeOn_of_drive (lineFalls_drive _ )).2 ?_)

end Sys2Proof.Machine
end

