-- ==== Sys2Proof/Laws/FramesRun.lean ====
section
/-! SUPPORT. What the operations of a frame completion, of the end of an event and of the timed phases leave alone: everything that `State.outer` keeps; and what `AtEnd` says of the end of an event. -/

namespace Sys2Proof.Machine

/-- The state with its outer part alone tells the fields that the outer part keeps. -/
theorem outer_fields {s t : State} (h : t.outer = s.outer) :
    t.pending = s.pending ∧ t.power = s.power ∧ t.clock = s.clock ∧ t.lines = s.lines ∧ t.latch = s.latch ∧ t.mp = s.mp
      ∧ t.zp = s.zp ∧ t.mg = s.mg ∧ t.nv = s.nv := by
  simp only [State.outer, State.mk.injEq] at h
  simp [h]

@[simp] theorem flameOnEvent_outer (s : State) : (flameOnEvent s).outer = s.outer := by
  simp only [flameOnEvent]
  repeat' split
  all_goals simp

@[simp] theorem flameLossEvent_outer (s : State) : (flameLossEvent s).outer = s.outer := by
  simp only [flameLossEvent]
  repeat' split
  all_goals simp

@[simp] theorem endOnPhase_outer (s : State) : (endOnPhase s).outer = s.outer := by simp [endOnPhase]

@[simp] theorem endOffPhase_outer (s : State) : (endOffPhase s).outer = s.outer := by simp [endOffPhase]

@[simp] theorem countPhase_outer (s : State) : (countPhase s).outer = s.outer := by rfl

@[simp] theorem onPhaseFrame_outer (count : Bool) (s : State) : (onPhaseFrame count s).outer = s.outer := by
  simp only [onPhaseFrame]
  repeat' split
  all_goals simp

@[simp] theorem offPhaseFrame_outer (s : State) : (offPhaseFrame s).outer = s.outer := by
  simp only [offPhaseFrame]
  repeat' split
  all_goals simp

@[simp] theorem chStopFrame_outer (s : State) : (chStopFrame s).outer = s.outer := by
  simp only [chStopFrame]
  repeat' split
  all_goals simp

@[simp] theorem dhwStopFrame_outer (s : State) : (dhwStopFrame s).outer = s.outer := by
  simp only [dhwStopFrame]
  repeat' split
  all_goals simp

@[simp] theorem chCycleFrame_outer (s : State) : (chCycleFrame s).outer = s.outer := by
  simp only [chCycleFrame]
  repeat' split
  all_goals simp

@[simp] theorem deliverOutput_outer (s : State) : (deliverOutput s).outer = s.outer := by rfl

@[simp] theorem muFrame_outer (s0 : State) : (muFrame s0).outer = s0.outer := by
  simp only [muFrame]
  repeat' split
  all_goals simp

@[simp] theorem limitStep_outer (s : State) : (limitStep s).outer = s.outer := by
  simp only [limitStep]
  repeat' split
  all_goals simp

@[simp] theorem overheatStep_outer (s : State) : (overheatStep s).outer = s.outer := by
  simp only [overheatStep]
  repeat' split
  all_goals simp

@[simp] theorem mismatchFound_outer (r : Relay) (s : State) : (mismatchFound r s).outer = s.outer := by simp [mismatchFound]

@[simp] theorem preCheckRelay_outer (before : State) (s : State) (r : Relay) : (preCheckRelay before s r).outer = s.outer := by
  simp only [preCheckRelay]
  split <;> simp

@[simp] theorem relayCheck_outer (s : State) : (relayCheck s).outer = s.outer := by
  simp only [relayCheck]
  split
  · rw [foldl_outer _ (fun t r => preCheckRelay_outer s t r)]
  · rfl

@[simp] theorem preCheckStep_outer (s : State) : (preCheckStep s).outer = s.outer := by
  simp only [preCheckStep]
  split <;> simp

@[simp] theorem fanDeviationReached_outer (s : State) : (fanDeviationReached s).outer = s.outer := by
  simp only [fanDeviationReached]
  split <;> simp

@[simp] theorem fanDeviationStep_outer (s : State) : (fanDeviationStep s).outer = s.outer := by
  simp only [fanDeviationStep]
  repeat' split
  all_goals simp

@[simp] theorem bsFrame_outer (s : State) : (bsFrame s).outer = s.outer := by
  simp only [bsFrame]
  split <;> simp

@[simp] theorem startUpRemoval_outer (first : Bool) (s : State) : (startUpRemoval first s).outer = s.outer := by
  simp only [startUpRemoval]
  split <;> rfl

@[simp] theorem toPreCheck_outer (s : State) : (toPreCheck s).outer = s.outer := by simp [toPreCheck]

@[simp] theorem leaveStandby_outer (s : State) : (leaveStandby s).outer = s.outer := by
  simp only [leaveStandby]
  split <;> simp

@[simp] theorem idleSync_outer (s : State) : (idleSync s).outer = s.outer := by
  simp only [idleSync]
  split <;> rfl

@[simp] theorem runSecond_outer (s : State) : (runSecond s).outer = s.outer := by
  simp only [runSecond]
  repeat' split
  all_goals rfl

@[simp] theorem idleSecond_outer (s : State) : (idleSecond s).outer = s.outer := by
  simp only [idleSecond]
  split <;> rfl

@[simp] theorem tpchkExpired_outer (s : State) : (tpchkExpired s).outer = s.outer := by
  simp only [tpchkExpired]
  split <;> simp

@[simp] theorem purgeLimitExpired_outer (s : State) : (purgeLimitExpired s).outer = s.outer := by simp [purgeLimitExpired]

@[simp] theorem falseFlameFound_outer (s : State) : (falseFlameFound s).outer = s.outer := by simp [falseFlameFound]

@[simp] theorem tprespkExpired_outer (s : State) : (tprespkExpired s).outer = s.outer := by
  simp only [tprespkExpired]
  split <;> simp

@[simp] theorem tsparkExpired_outer (s : State) : (tsparkExpired s).outer = s.outer := by rfl

@[simp] theorem tsafeExpired_outer (s : State) : (tsafeExpired s).outer = s.outer := by
  simp only [tsafeExpired]
  split <;> simp

@[simp] theorem tstabExpired_outer (s : State) : (tstabExpired s).outer = s.outer := by simp [tstabExpired]

@[simp] theorem tpostExpired_outer (s : State) : (tpostExpired s).outer = s.outer := by
  simp only [tpostExpired]
  split <;> simp

@[simp] theorem lockPurgeExpired_outer (s : State) : (lockPurgeExpired s).outer = s.outer := by rfl

@[simp] theorem tffpostExpired_outer (s : State) : (tffpostExpired s).outer = s.outer := by
  simp only [tffpostExpired]
  split <;> simp

@[simp] theorem overrunExpired_outer (s : State) : (overrunExpired s).outer = s.outer := by simp [overrunExpired]

@[simp] theorem divertEnded_outer (s : State) : (divertEnded s).outer = s.outer := by rfl

@[simp] theorem kickBegins_outer (s : State) : (kickBegins s).outer = s.outer := by
  simp only [kickBegins]
  split <;> rfl

@[simp] theorem kickEnds_outer (s : State) : (kickEnds s).outer = s.outer := by rfl

@[simp] theorem blockingExpired_outer (src : Source) (s : State) : (blockingExpired src s).outer = s.outer := by simp [blockingExpired]

@[simp] theorem resetInChanged_outer (low : Bool) (s : State) : (resetInChanged low s).outer = s.outer := by
  simp only [resetInChanged]
  split <;> rfl

@[simp] theorem resetInPressed_outer (s : State) : (resetInPressed s).outer = s.outer := by simp [resetInPressed]

/-- The start of a page write depends on the store, the clock and the page image alone, and changes the store alone. -/
theorem startWrite_idle (u : State) (n : Nat) :
    startWrite (u.onDm fun d => { d with idle := n }) = { u with dm := { u.dm with idle := n }, st := (startWrite u).st } := by
  simp only [startWrite]
  by_cases hw : u.st.write.isSome = true
  · simp [State.onDm, hw]
  by_cases hl : u.st.lockJob = true
  · simp [State.onDm, hw, hl, beginWrite, State.onSt]; rfl
  cases hj : u.st.jobs with
  | nil => simp [State.onDm, hw, hl, hj]
  | cons j r => simp [State.onDm, hw, hl, hj, beginWrite, State.onSt]; rfl

/-- The end of an event in which no start is due adds a page write or the idle timer's return at most (R77, R195). -/
theorem settle_atEnd (u : State) (h : u.mayStart = false) : AtEnd u (settle u) := by
  have hl : leaveStandby u = u := by simp [leaveStandby, h]
  rw [AtEnd, settle, hl, idleSync]
  by_cases hp : u.pumpWanted = true ∧ u.record .lowPressure = none
  · simp only [hp, Option.isNone_none, Bool.and_self, if_true, and_self, startWrite_idle]
  · have : (u.pumpWanted && (u.record .lowPressure).isNone) = false := by
      cases hq : u.pumpWanted <;> cases hr : u.record .lowPressure <;> simp_all
    rw [if_neg hp, this]
    exact startWrite_idle u u.dm.idle

/-- An event of a part in operation. -/
theorem State.event_on (s : State) (f : State → State) (h : s.power = .on) : s.event f = settle (f s) := by
  simp [State.event, h]


end Sys2Proof.Machine
end

