-- ==== Sys2Proof/Laws/Exchange.lean ====
section
/-! SUPPORT. How an exchange ends: what PE does once it is over leaves the port READY, or in a new exchange (`ExchangeEnded`); a failure and a closing outcome end it; and what the bus port reset leaves in ZP, PE and the proxy slot. -/

namespace Sys2Proof.Machine

/-- What `State.outer` keeps is read alike in two states of one outer part. -/
theorem read_outer {α : Type} (g : State → α) {s t : State} (h : t.outer = s.outer) (hg : ∀ s, g s.outer = g s) :
    g t = g s := by rw [← hg t, ← hg s, h]

/-! ### The end of an exchange (R140, R141, R153) -/

theorem ExchangeEnded.of_zp {s t : State} (hz : t.zp = s.zp) (hc : t.clock = s.clock) (h : ExchangeEnded s) :
    ExchangeEnded t := by
  unfold ExchangeEnded at *
  rwa [hz, hc]

theorem ExchangeEnded.of_outer {s t : State} (h : t.outer = s.outer) (e : ExchangeEnded s) : ExchangeEnded t :=
  e.of_zp (read_outer State.zp h fun _ => rfl) (read_outer State.clock h fun _ => rfl)

/-- A request handed begins a new exchange (R132, R136). -/
theorem zpRequest_ended (node kind : Nat) (p : List Byte) (r : List Nat) (s : State) :
    ExchangeEnded (zpRequest node kind p r s) := by
  unfold zpRequest ExchangeEnded
  dsimp only
  right
  split
  · exact ⟨_, rfl, rfl, .inr rfl, rfl⟩
  · exact ⟨_, rfl, rfl, .inl rfl, rfl⟩

theorem hand_ended (f : InFlight) (node kind : Nat) (p : List Byte) (r : List Nat) (s : State) :
    ExchangeEnded (hand f node kind p r s) := zpRequest_ended ..

theorem handEntry_ended (t : Taken) (s : State) : ExchangeEnded (handEntry t s) := hand_ended ..

section
variable {s : State} (h : ExchangeEnded s)
include h

theorem afterService_ended : ExchangeEnded (afterService s) := by
  unfold afterService
  dsimp only
  split
  · exact hand_ended ..
  · split
    · exact handEntry_ended ..
    · exact h

theorem serveLow_ended (low : Bool) : ExchangeEnded (serveLow low s) := by
  unfold serveLow
  split
  · split
    · exact hand_ended ..
    · exact afterService_ended h
  · exact afterService_ended h
  · exact afterService_ended h

omit h in
theorem serveZones_ended (low : Bool) (zs : List Nat) : ∀ s, ExchangeEnded s → ExchangeEnded (serveZones low zs s) := by
  induction zs with
  | nil => exact fun _ h => serveLow_ended h low
  | cons z r ih =>
    intro s h
    unfold serveZones
    split
    · exact ih _ h
    · split
      · refine ih _ (ExchangeEnded.of_outer (valveResult_outer ..) ?_)
        exact h
      · exact hand_ended ..

theorem servicePoint_ended : ExchangeEnded (servicePoint s) := serveZones_ended _ _ _ h

theorem passEnd_ended : ExchangeEnded (passEnd s) := servicePoint_ended (ExchangeEnded.of_outer (reconcile_outer _) h)

omit h in
theorem takeUp_ended (n : Nat) : ∀ (t : Taken) (s : State), ExchangeEnded s → ExchangeEnded (takeUp n t s) := by
  induction n with
  | zero => exact fun _ _ h => h
  | succ n ih =>
    intro t s h
    unfold takeUp
    dsimp only
    split
    · exact servicePoint_ended h
    · split
      · exact ih _ _ h
      · exact passEnd_ended h

theorem maybeStart_ended : ExchangeEnded (maybeStart s) := by
  unfold maybeStart startRound
  split
  · split
    · exact h
    · exact takeUp_ended _ _ _ h
  · exact h

theorem afterEntry_ended : ExchangeEnded (afterEntry s) := by
  unfold afterEntry
  split
  · exact h
  · split
    · exact passEnd_ended h
    · split
      · exact takeUp_ended _ _ _ h
      · exact passEnd_ended h

/-- What PE does once the port is free leaves it READY, or in a new exchange (R153). -/
theorem peContinue_ended (f : InFlight) : ExchangeEnded (peContinue f s) := by
  unfold peContinue
  dsimp only
  split
  · exact h
  · split
    · exact afterEntry_ended h
    · exact maybeStart_ended h
    · split
      · exact serveZones_ended _ _ _ h
      · exact h
    · split
      · exact serveZones_ended _ _ _ h
      · exact h

/-- The end of an event leaves the port alone. -/
theorem settle_ended : ExchangeEnded (settle s) := by
  have h := ExchangeEnded.of_outer (leaveStandby_outer s) h
  unfold settle startWrite idleSync
  repeat' split
  all_goals exact h

end

/-! ### Failures and the closing outcome -/

/-- A failure recorded, or the closing telegram's exchange ended: the port is READY with none in flight (R140, R141). -/
theorem recordFailure_ended (r : Reason) {s : State} {x : Exchange} (hx : s.zp.exch = some x) :
    ExchangeEnded (recordFailure r s) := by
  unfold recordFailure
  rw [hx]
  exact .inl ⟨rfl, rfl⟩

theorem presenceMiss_link (a : Nat) (s : State) :
    (presenceMiss a s).zp = s.zp ∧ (presenceMiss a s).clock = s.clock ∧ (presenceMiss a s).mg = s.mg
      ∧ (presenceMiss a s).pe.round = s.pe.round := by
  have read : ∀ {t u : State}, t.outer = u.outer →
      t.zp = u.zp ∧ t.clock = u.clock ∧ t.mg = u.mg ∧ t.pe.round = u.pe.round := fun h =>
    ⟨read_outer State.zp h fun _ => rfl, read_outer State.clock h fun _ => rfl, read_outer State.mg h fun _ => rfl,
      read_outer (fun s => s.pe.round) h fun _ => rfl⟩
  unfold presenceMiss nodeBecomesAbsent
  dsimp only
  split
  · exact ⟨rfl, rfl, rfl, rfl⟩
  · split
    · obtain ⟨a1, a2, a3, a4⟩ := read (roomUnitAbsent_outer a (if a = 15 then
        (s.onNode a fun n => { n with presence := .absent, miss := 3 }) else
          fmRaise .nodeAbsent a (s.onNode a fun n => { n with presence := .absent, miss := 3 })))
      rw [a1, a2, a3, a4]
      split
      · exact ⟨rfl, rfl, rfl, rfl⟩
      · obtain ⟨b1, b2, b3, b4⟩ := read (fmRaise_outer .nodeAbsent a
          (s.onNode a fun n => { n with presence := .absent, miss := 3 }))
        exact ⟨b1, b2, b3, b4⟩
    · exact ⟨rfl, rfl, rfl, rfl⟩

theorem takeFailure_ended (f : InFlight) (node : Nat) {s : State} (h : ExchangeEnded s) :
    ExchangeEnded (takeFailure f node s) := by
  have h := h.of_zp (presenceMiss_link node s).1 (presenceMiss_link node s).2.1
  unfold takeFailure
  dsimp only
  split
  · exact h
  · exact h
  · exact ExchangeEnded.of_outer (valveResult_outer ..) h
  · unfold fetchResult
    split <;> exact h

/-- A failed exchange ends (R141). -/
theorem failExchange_ended (r : Reason) {s : State} {x : Exchange} (hx : s.zp.exch = some x) :
    ExchangeEnded (failExchange r s) := by
  unfold failExchange
  rw [hx]
  split
  · exact peContinue_ended (takeFailure_ended _ _ (recordFailure_ended _ hx)) _
  · exact recordFailure_ended _ hx
  · contradiction

/-- A closing outcome ends the exchange (R140). -/
theorem closingOutcome_ended (sent : Bool) {s : State} {x : Exchange} (hx : s.zp.exch = some x) :
    ExchangeEnded (closingOutcome sent s) := by
  have h : ExchangeEnded (mgClosing sent (if sent then exchangeOver s else recordFailure .stretch s)) := by
    cases sent
    · exact (recordFailure_ended .stretch hx).of_zp (by rfl) (by rfl)
    · exact .inl ⟨rfl, rfl⟩
  unfold closingOutcome
  dsimp only
  split
  · exact peContinue_ended h _
  · exact h

/-! ### The bus port reset (R145, R150, R159, R185) -/

/-- A node's live record after a bus port reset (R150). -/
def NodeLive.afterReset (n : NodeLive) : NodeLive := { n with presence := .unknown, miss := 0 }

/-- The proxy slot READY with NO_ANSWER, its hold started (R185). -/
def Slot.noAnswer (k : Slot) (now : Nat) : Slot :=
  { k with state := .ready, result := .noAnswer, data := [], hold := some (now + Config.tProxy), delivering := false }

/-- What PE, DM and MG make of the report of a bus port reset (R145 step 2), but for what DM does in its own block. -/
theorem busReports_link (r : State) :
    let t := mgBusReset (dmBusReset (peBusReset r))
    t.clock = r.clock ∧ t.zp = r.zp ∧ t.pe.portReady = false ∧ t.pe.nodes = r.pe.nodes.map NodeLive.afterReset
      ∧ t.pe.round = { r.pe.round with
          state := .waitingPort, cur := none, pre := none, passDone := false, service := none, inFlight := none }
      ∧ t.mg.slot = if r.mg.slot.state = .fetching then r.mg.slot.noAnswer r.clock.now else r.mg.slot := by
  let link (s : State) := (s.clock, s.zp, s.pe.portReady, s.pe.nodes, s.pe.round, s.mg)
  have hp : link (peBusReset r) = (r.clock, r.zp, false, r.pe.nodes.map NodeLive.afterReset,
      { r.pe.round with
        state := .waitingPort, cur := none, pre := none, passDone := false, service := none, inFlight := none },
      r.mg) := by
    unfold peBusReset
    dsimp only
    split
    · exact (read_outer link (fmClear_outer ..) fun _ => rfl).trans rfl
    · rfl
  have hd : link (dmBusReset (peBusReset r)) = _ := (read_outer link (dmBusReset_outer _) fun _ => rfl).trans hp
  generalize dmBusReset (peBusReset r) = d at hd
  simp only [link, Prod.mk.injEq] at hd
  obtain ⟨h1, h2, h3, h4, h5, h6⟩ := hd
  intro t
  have ht : t.clock = d.clock ∧ t.zp = d.zp ∧ t.pe = d.pe
      ∧ t.mg.slot = if d.mg.slot.state = .fetching then d.mg.slot.noAnswer d.clock.now else d.mg.slot := by
    show (mgBusReset d).clock = _ ∧ (mgBusReset d).zp = _ ∧ (mgBusReset d).pe = _ ∧ (mgBusReset d).mg.slot = _
    unfold mgBusReset fetchResult
    split <;> exact ⟨rfl, rfl, rfl, rfl⟩
  obtain ⟨t1, t2, t3, t4⟩ := ht
  rw [t1, t2, t3, t4, h1, h6]
  exact ⟨rfl, h2, h3, h4, h5, rfl⟩

end Sys2Proof.Machine
end

