-- ==== Sys2Proof/Laws/Memory.lean ====
section
/-! SUPPORT. The store memory: every operation keeps its canonical form, a byte written is read back, and the other bytes are left alone. -/

namespace Sys2Proof.Machine

theorem cellsWf_mono {lo lo' : Nat} (h : lo' ≤ lo) {m : List Host.Cell} (w : cellsWf lo m = true) :
    cellsWf lo' m = true := by
  cases m with
  | nil => rfl
  | cons c r =>
    simp only [cellsWf, Bool.and_eq_true, decide_eq_true_eq] at w ⊢
    exact ⟨⟨Nat.le_trans h w.1.1, w.1.2⟩, w.2⟩

theorem cellRead_below {lo x : Nat} (hx : x < lo) {m : List Host.Cell} (w : cellsWf lo m = true) :
    cellRead m x = erasedByte := by
  cases m with
  | nil => rfl
  | cons c r =>
    simp only [cellsWf, Bool.and_eq_true, decide_eq_true_eq] at w
    have : x ≠ c.1 := by omega
    have : x < c.1 := by omega
    simp [cellRead, *]

/-- A write of one byte keeps the canonical form. -/
theorem cellWrite_wf (m : List Host.Cell) (lo x : Nat) (v : Byte) (w : cellsWf lo m = true) (h : lo ≤ x) :
    cellsWf lo (cellWrite m x v) = true := by
  induction m generalizing lo with
  | nil => simp only [cellWrite]; split <;> simp [cellsWf, *]
  | cons c r ih =>
    obtain ⟨a, b⟩ := c
    simp only [cellsWf, Bool.and_eq_true, decide_eq_true_eq] at w
    obtain ⟨⟨w1, w2⟩, w3⟩ := w
    simp only [cellWrite]
    repeat' split
    · simp [cellsWf, *]
    · have : x + 1 ≤ a := by omega
      simp [cellsWf, *]
    · exact cellsWf_mono (by omega) w3
    · simp [cellsWf, *]
    · have := ih (a + 1) w3 (by omega)
      simp [cellsWf, *]

/-- The byte written is read back. -/
theorem cellRead_cellWrite_same (m : List Host.Cell) (lo x : Nat) (v : Byte) (w : cellsWf lo m = true) :
    cellRead (cellWrite m x v) x = v := by
  induction m generalizing lo with
  | nil => simp only [cellWrite]; split <;> simp [cellRead, *]
  | cons c r ih =>
    obtain ⟨a, b⟩ := c
    simp only [cellsWf, Bool.and_eq_true, decide_eq_true_eq] at w
    simp only [cellWrite]
    repeat' split
    · have : x ≠ a := by omega
      simp [cellRead, *]
    · simp [cellRead]
    · have : x < a + 1 := by omega
      rw [cellRead_below this w.2]
      simp_all
    · simp_all [cellRead]
    · have hx : x ≠ a := by assumption
      have hl : ¬x < a := by assumption
      simp only [cellRead, hx, hl, if_false]
      exact ih (a + 1) w.2

/-- Every other byte reads as before. -/
theorem cellRead_cellWrite_other (m : List Host.Cell) (lo x y : Nat) (v : Byte) (w : cellsWf lo m = true) (h : y ≠ x) :
    cellRead (cellWrite m x v) y = cellRead m y := by
  induction m generalizing lo with
  | nil =>
    simp only [cellWrite]
    split
    · rfl
    · simp only [cellRead, h, if_false]
      split <;> rfl
  | cons c r ih =>
    obtain ⟨a, b⟩ := c
    simp only [cellsWf, Bool.and_eq_true, decide_eq_true_eq] at w
    simp only [cellWrite]
    repeat' split
    · rfl
    · simp only [cellRead, h, if_false]
      by_cases hy : y < x
      · have h1 : y ≠ a := by omega
        have h2 : y < a := by omega
        simp [hy, h1, h2]
      · simp [hy]
    · rename_i _ hxa _
      subst hxa
      have e : cellRead ((x, b) :: r) y = if y < x then erasedByte else cellRead r y := by simp [cellRead, h]
      rw [e]
      split
      · exact cellRead_below (by omega) w.2
      · rfl
    · rename_i _ hxa _
      subst hxa
      simp [cellRead, h]
    · simp only [cellRead]
      rw [ih (a + 1) w.2]

/-- A write of consecutive bytes keeps the canonical form. -/
theorem cellsWrite_wf (vs : List Byte) (m : List Host.Cell) (x : Nat) (w : cellsWf 0 m = true) :
    cellsWf 0 (cellsWrite m x vs) = true := by
  induction vs generalizing m x with
  | nil => exact w
  | cons v vs ih => exact ih _ _ (cellWrite_wf m 0 x v w (Nat.zero_le x))

/-- A byte outside those written reads as before. -/
theorem cellRead_cellsWrite_other (vs : List Byte) (m : List Host.Cell) (x y : Nat) (w : cellsWf 0 m = true)
    (h : y < x ∨ x + vs.length ≤ y) : cellRead (cellsWrite m x vs) y = cellRead m y := by
  induction vs generalizing m x with
  | nil => rfl
  | cons v vs ih =>
    simp only [List.length_cons] at h
    have hyx : y ≠ x := by omega
    rw [cellsWrite, ih _ _ (cellWrite_wf m 0 x v w (Nat.zero_le x)) (by omega),
      cellRead_cellWrite_other m 0 x y v w hyx]

/-- The bytes written are read back. -/
theorem cellRead_cellsWrite_same (vs : List Byte) (m : List Host.Cell) (x i : Nat) (w : cellsWf 0 m = true)
    (h : i < vs.length) : cellRead (cellsWrite m x vs) (x + i) = vs[i] := by
  induction vs generalizing m x i with
  | nil => simp at h
  | cons v vs ih =>
    have w' := cellWrite_wf m 0 x v w (Nat.zero_le x)
    rw [cellsWrite]
    cases i with
    | zero =>
      rw [cellRead_cellsWrite_other vs _ (x + 1) (x + 0) w' (by omega)]
      exact cellRead_cellWrite_same m 0 x v w
    | succ i =>
      have e : x + (i + 1) = x + 1 + i := by omega
      rw [e, ih _ _ i w' (by simpa using h)]
      rfl

theorem statusWf_mono {lo lo' : Nat} (h : lo' ≤ lo) {m : List (Nat × PageStatus)} (w : statusWf lo m = true) :
    statusWf lo' m = true := by
  cases m with
  | nil => rfl
  | cons c r =>
    simp only [statusWf, Bool.and_eq_true, decide_eq_true_eq] at w ⊢
    exact ⟨⟨Nat.le_trans h w.1.1, w.1.2⟩, w.2⟩

/-- A page's status set keeps the canonical form. -/
theorem statusWrite_wf (m : List (Nat × PageStatus)) (lo x : Nat) (v : PageStatus) (w : statusWf lo m = true)
    (h : lo ≤ x) : statusWf lo (statusWrite m x v) = true := by
  induction m generalizing lo with
  | nil => simp only [statusWrite]; split <;> simp [statusWf, *]
  | cons c r ih =>
    obtain ⟨a, b⟩ := c
    simp only [statusWf, Bool.and_eq_true, decide_eq_true_eq] at w
    obtain ⟨⟨w1, w2⟩, w3⟩ := w
    simp only [statusWrite]
    repeat' split
    · simp [statusWf, *]
    · have : x + 1 ≤ a := by omega
      simp [statusWf, *]
    · exact statusWf_mono (by omega) w3
    · simp [statusWf, *]
    · have := ih (a + 1) w3 (by omega)
      simp [statusWf, *]

theorem statusRead_below {lo x : Nat} (hx : x < lo) {m : List (Nat × PageStatus)} (w : statusWf lo m = true) :
    statusRead m x = .blank := by
  cases m with
  | nil => rfl
  | cons c r =>
    simp only [statusWf, Bool.and_eq_true, decide_eq_true_eq] at w
    have : x ≠ c.1 := by omega
    have : x < c.1 := by omega
    simp [statusRead, *]

/-- The status set is read back. -/
theorem statusRead_statusWrite_same (m : List (Nat × PageStatus)) (lo x : Nat) (v : PageStatus)
    (w : statusWf lo m = true) : statusRead (statusWrite m x v) x = v := by
  induction m generalizing lo with
  | nil => simp only [statusWrite]; split <;> simp [statusRead, *]
  | cons c r ih =>
    obtain ⟨a, b⟩ := c
    simp only [statusWf, Bool.and_eq_true, decide_eq_true_eq] at w
    simp only [statusWrite]
    repeat' split
    · have : x ≠ a := by omega
      simp [statusRead, *]
    · simp [statusRead]
    · have : x < a + 1 := by omega
      rw [statusRead_below this w.2]
      simp_all
    · simp_all [statusRead]
    · have hx : x ≠ a := by assumption
      have hl : ¬x < a := by assumption
      simp only [statusRead, hx, hl, if_false]
      exact ih (a + 1) w.2

/-- Every other page's status reads as before. -/
theorem statusRead_statusWrite_other (m : List (Nat × PageStatus)) (lo x y : Nat) (v : PageStatus)
    (w : statusWf lo m = true) (h : y ≠ x) : statusRead (statusWrite m x v) y = statusRead m y := by
  induction m generalizing lo with
  | nil =>
    simp only [statusWrite]
    split
    · rfl
    · simp only [statusRead, h, if_false]
      split <;> rfl
  | cons c r ih =>
    obtain ⟨a, b⟩ := c
    simp only [statusWf, Bool.and_eq_true, decide_eq_true_eq] at w
    simp only [statusWrite]
    repeat' split
    · rfl
    · simp only [statusRead, h, if_false]
      by_cases hy : y < x
      · have h1 : y ≠ a := by omega
        have h2 : y < a := by omega
        simp [hy, h1, h2]
      · simp [hy]
    · rename_i _ hxa _
      subst hxa
      have e : statusRead ((x, b) :: r) y = if y < x then .blank else statusRead r y := by simp [statusRead, h]
      rw [e]
      split
      · exact statusRead_below (by omega) w.2
      · rfl
    · rename_i _ hxa _
      subst hxa
      simp [statusRead, h]
    · simp only [statusRead]
      rw [ih (a + 1) w.2]

/-! ### Whole pages -/

theorem Memory.wf_cells {m : Memory} (h : m.wf = true) : cellsWf 0 m.cells = true := by
  simp only [Memory.wf, Bool.and_eq_true] at h
  exact h.1

theorem Memory.wf_status {m : Memory} (h : m.wf = true) : statusWf 0 m.status = true := by
  simp only [Memory.wf, Bool.and_eq_true] at h
  exact h.2

/-- A page programmed keeps the canonical form (R193). -/
theorem Memory.program_wf (m : Memory) (page : Nat) (bs : List Byte) (h : m.wf = true) :
    (m.program page bs).wf = true := by
  simp only [Memory.wf, Memory.program, Bool.and_eq_true]
  exact ⟨cellsWrite_wf _ _ _ (Memory.wf_cells h), statusWrite_wf _ 0 _ _ (Memory.wf_status h) (Nat.zero_le _)⟩

/-- A page lost keeps the canonical form (R193, R195). -/
theorem Memory.spoil_wf (m : Memory) (page : Nat) (v : PageStatus) (h : m.wf = true) : (m.spoil page v).wf = true := by
  simp only [Memory.wf, Memory.spoil, Bool.and_eq_true]
  exact ⟨cellsWrite_wf _ _ _ (Memory.wf_cells h), statusWrite_wf _ 0 _ _ (Memory.wf_status h) (Nat.zero_le _)⟩

/-- A change of page `page`'s status and of cells within that page leaves every byte of the other pages as it was. -/
theorem Memory.read_other (m : Memory) (page : Nat) (vs : List Byte) (v : PageStatus) (n : List Nat) (a : Nat)
    (h : m.wf = true) (hl : vs.length ≤ 32) (ha : a / 32 ≠ page) :
    Memory.read { cells := cellsWrite m.cells (32 * page) vs, status := statusWrite m.status page v, slotNo := n } a
      = m.read a := by
  have hr : a < 32 * page ∨ 32 * page + vs.length ≤ a := by omega
  simp only [Memory.read, statusRead_statusWrite_other _ 0 _ _ _ (Memory.wf_status h) ha,
    cellRead_cellsWrite_other _ _ _ _ (Memory.wf_cells h) hr]

/-- A page programmed reads as the bytes written (R191, R193). -/
theorem Memory.program_read (m : Memory) (page : Nat) (bs : List Byte) (i : Nat) (h : m.wf = true)
    (hb : bs.length = 32) (hi : i < 32) : (m.program page bs).read (32 * page + i) = bs.getD i 0 := by
  have hp : (32 * page + i) / 32 = page := by omega
  have ht : bs.take 32 = bs := List.take_of_length_le (by omega)
  simp only [Memory.read, Memory.program, hp, statusRead_statusWrite_same _ 0 _ _ (Memory.wf_status h), ht]
  rw [cellRead_cellsWrite_same _ _ _ _ (Memory.wf_cells h) (by omega)]
  simp [List.getD, hb, hi]

/-- The store memory at reset has the canonical form. -/
theorem reset_memory_wf : State.reset.nv.wf = true := rfl

end Sys2Proof.Machine
end

