-- ==== Sys2Proof/Laws/PerInstr.lean ====
section
/-! SUPPORT. A family of statements made per command. -/

namespace Sys2Proof.Laws.NotSpelled

/-- No word of the table's bits spells the command: opcode_table.json gives no row any bits (log 23). -/
def Statement (i : Instr) : Prop := ∀ nbits w : Nat, decodeTableWord nbits w ≠ some i

/-- No word spells any command. -/
theorem all (i : Instr) : Statement i := fun _ _ h => by simp [decodeTableWord, rowsWithBits] at h

theorem powerOn : Statement (.powerOn) := all _
theorem powerLoss : Statement (.powerLoss) := all _
theorem loadComplete : Statement (.loadComplete) := all _
theorem frameCompletion (f : Frame) : Statement (.frameCompletion f) := all _
theorem flowDisagreeTimeout : Statement (.flowDisagreeTimeout) := all _
theorem circulationTimeout : Statement (.circulationTimeout) := all _
theorem fanDeviationTimeout : Statement (.fanDeviationTimeout) := all _
theorem purgeComplete : Statement (.purgeComplete) := all _
theorem zoneFallbackTimeout (zone : Nat) : Statement (.zoneFallbackTimeout zone) := all _
theorem flameSample (raw : Sample) : Statement (.flameSample raw) := all _
theorem inputPulse (line : PulseLine) : Statement (.inputPulse line) := all _
theorem relayReadbackChange (relay : Relay) (energised : Bool) (dt : Nat) : Statement (.relayReadbackChange relay energised dt) := all _
theorem mismatchTimerExpiry (relay : Relay) : Statement (.mismatchTimerExpiry relay) := all _
theorem tpchkExpiry : Statement (.tpchkExpiry) := all _
theorem prePurgeLimitExpiry : Statement (.prePurgeLimitExpiry) := all _
theorem tprespkExpiry : Statement (.tprespkExpiry) := all _
theorem tsparkExpiry : Statement (.tsparkExpiry) := all _
theorem tsafeExpiry : Statement (.tsafeExpiry) := all _
theorem tstabExpiry : Statement (.tstabExpiry) := all _
theorem tpostExpiry : Statement (.tpostExpiry) := all _
theorem lockoutPurgeExpiry : Statement (.lockoutPurgeExpiry) := all _
theorem tffExpiry : Statement (.tffExpiry) := all _
theorem tffpostExpiry : Statement (.tffpostExpiry) := all _
theorem valveTravelExpiry (zone : Nat) : Statement (.valveTravelExpiry zone) := all _
theorem dhwOverrunExpiry : Statement (.dhwOverrunExpiry) := all _
theorem diverterEndReached : Statement (.diverterEndReached) := all _
theorem antiCycleExpiry : Statement (.antiCycleExpiry) := all _
theorem pumpOverrunExpiry : Statement (.pumpOverrunExpiry) := all _
theorem pumpKickStart : Statement (.pumpKickStart) := all _
theorem pumpKickEnd : Statement (.pumpKickEnd) := all _
theorem onPhaseExpiry : Statement (.onPhaseExpiry) := all _
theorem offPhaseExpiry : Statement (.offPhaseExpiry) := all _
theorem blockingTimerExpiry (source : Nat) : Statement (.blockingTimerExpiry source) := all _
theorem resetInLevelChange (low : Bool) (dt : Nat) : Statement (.resetInLevelChange low dt) := all _
theorem resetInPress : Statement (.resetInPress) := all _
theorem powerOnSecond : Statement (.powerOnSecond) := all _
theorem tsettleExpiry : Statement (.tsettleExpiry) := all _
theorem periodTimerExpiry : Statement (.periodTimerExpiry) := all _
theorem lineCheckIdle : Statement (.lineCheckIdle) := all _
theorem lineDominanceTimeout : Statement (.lineDominanceTimeout) := all _
theorem lineCheckTimeout : Statement (.lineCheckTimeout) := all _
theorem requestSent : Statement (.requestSent) := all _
theorem holdTimeout : Statement (.holdTimeout) := all _
theorem replyStartMark (run : Nat) (dt : Nat) : Statement (.replyStartMark run dt) := all _
theorem treplyExpiry : Statement (.treplyExpiry) := all _
theorem trxmaxExpiry : Statement (.trxmaxExpiry) := all _
theorem replyFraming (cause : FramingCause) (dt : Nat) : Statement (.replyFraming cause dt) := all _
theorem replyReceived (check : Byte) (dt : Nat) : Statement (.replyReceived check dt) := all _
theorem closingSent : Statement (.closingSent) := all _
theorem tclearExpiry : Statement (.tclearExpiry) := all _
theorem overcurrent : Statement (.overcurrent) := all _
theorem faultTimerExpiry : Statement (.faultTimerExpiry) := all _
theorem readEntry (node : Nat) (tag table entry : Byte) : Statement (.readEntry node tag table entry) := all _
theorem writeEntry (node : Nat) (tag table entry : Byte) (data : List Byte) : Statement (.writeEntry node tag table entry data) := all _
theorem writeEntryCounters (node : Nat) (tag entry : Byte) (data : List Byte) : Statement (.writeEntryCounters node tag entry data) := all _
theorem writeEntrySafetyStage (node : Nat) (tag entry : Byte) (data : List Byte) : Statement (.writeEntrySafetyStage node tag entry data) := all _
theorem commitSafety (node : Nat) (tag : Byte) (crc : BitVec 16) : Statement (.commitSafety node tag crc) := all _
theorem readState (node : Nat) (tag group index part : Byte) : Statement (.readState node tag group index part) := all _
theorem readFaults (node : Nat) (tag list direction index : Byte) : Statement (.readFaults node tag list direction index) := all _
theorem lockoutReset (node : Nat) (tag : Byte) : Statement (.lockoutReset node tag) := all _
theorem proxyRead (node : Nat) (tag target item : Byte) : Statement (.proxyRead node tag target item) := all _
theorem clearHistory (node : Nat) (tag : Byte) : Statement (.clearHistory node tag) := all _
theorem restart (node : Nat) (tag : Byte) : Statement (.restart node tag) := all _
theorem restartProceed : Statement (.restartProceed) := all _
theorem proxyHoldExpiry : Statement (.proxyHoldExpiry) := all _
theorem pageWriteEnd (verified : Bool) : Statement (.pageWriteEnd verified) := all _
theorem busLineLevelChange (dominant : Bool) (dt : Nat) : Statement (.busLineLevelChange dominant dt) := all _
theorem replyByteReceived (value : Byte) (dt : Nat) : Statement (.replyByteReceived value dt) := all _

end Sys2Proof.Laws.NotSpelled
end

