-- ==== Sys2Proof/Tests/Slice0.lean ====
section
/-! SUPPORT. The model's own tests: well-formedness, check codes and the manual's worked figures, one step of each kind of command on small states, and for each obligation with hypotheses a state that meets them. Expected numbers are the manual's worked examples or hand calculations from its rules, as each docstring says. -/

namespace Sys2Proof.Tests

open Sys2Proof Sys2Proof.Machine

set_option Elab.async false

/-! ### States -/

/-- A safety block with the typical values of section 4.9 (Prated 30,000, m_min 150, p_ign 300, Fs 800, Fe 950, Fl 1000) and the built-in characteristics, its CRC computed. -/
def block : List Byte :=
  let head := ([30, 5, 30, 20, 5, 15, 3, 2, 4000, 3000, 30000, 150, 300, 950, 800, 950, 1000, 15, 8, 50, 70].map put16).flatten
  let tables := ((defaultNtc ++ defaultPressure).map fun p => put16 p.1.toNat ++ putInt16 p.2).flatten
  let fan := put16 3 ++ (defaultFanMap.map fun p => put16 p.1.toNat ++ putInt16 p.2).flatten
  let b := head ++ tables ++ fan ++ List.replicate 118 0
  b ++ put16 (crc16 b).toNat

/-- The part in operation with that block, after its first frame, in STANDBY, the bus port ready. -/
def op : State :=
  { power := .on
    latch := { safety := block, valid := true }
    mp := { firstFrame := true }
    bs := { inhibit := { startUp := false } }
    zp := { port := .ready }
    pe := { portReady := true }
    mg := { staging := block }
    st := { safety := block, loaded := .valid } }

/-- The part with a burner record. -/
def withBs (b : Bs) : State := { op with bs := { b with inhibit := { startUp := false } } }

/-- IGNITION with the gas open. -/
def shot : State :=
  withBs { state := .ignition, gas1 := true, gas2 := true, spark := true, tSafe := some 72000, tSpark := some 48000 }

/-- IGNITION in the pre-spark wait. -/
def preSpark : State := withBs { state := .ignition, spark := true, tPrespk := some 12000 }

/-- RUN for CH. -/
def burning : State :=
  { withBs { state := .run, gas1 := true, gas2 := true } with dm := { circuit := .ch, active := true, burn := .ch } }

/-- RUN for CH with the flow at 890 and the return at 300. -/
def stagnant : State :=
  { burning with mp := { burning.mp with
      circ := 199, pub := { flowCtl := some 890 }, ret := { validity := .valid, unproven := false, filtered := some 300 } } }

/-- LOCKOUT by a false flame. -/
def locked : State :=
  { withBs { state := .lockout } with
    fm := {
      active := [{ source := .falseFlame, detail := 63, cls := .lockout, count := 1, first := 5, last := 5 }]
      lockout := { state := .active, source := some .falseFlame, code := 103, time := 5 } } }

/-- The burner in a state with one timer. -/
def waiting (st : BurnerState) (f : Bs → Bs) : State := withBs (f { state := st })

/-- An exchange in flight in a phase: the management poll of node 15. -/
def exch (p : Phase) : Exchange :=
  { node := 15, kind := PollKind.mgmtPoll.request, replies := PollKind.mgmtPoll.replies, phase := p
    out := telegram 15 PollKind.mgmtPoll.request [] }

/-- That exchange, changed by `f`, in flight as PE's service poll, the idle line lasting since time 0. -/
def bus (f : Exchange → Exchange) (p : Phase) : State :=
  { op with
    clock := { now := 1000 }
    zp := { port := .exchange, exch := some (f (exch p)) }
    pe := { portReady := true, round := { state := .running, inFlight := some .servicePoll, passDone := true } } }

/-- A frame of raw values 1200, the pressure at 1500. -/
def frame : Frame := ⟨1200, 1200, 1200, 1200, 1200, 1200, 1500, 1200, false⟩

/-- The state after a command. -/
def after (c : Instr) (s : State) : State :=
  match exec c s with
  | .next t => t
  | .fault _ => s
  | .refused _ => s

/-! ### Well-formedness -/

theorem test_wf_zone_8_refused : (Instr.zoneFallbackTimeout 8).WellFormed = false := by decide
theorem test_wf_valve_zone_8_refused : (Instr.valveTravelExpiry 8).WellFormed = false := by decide
theorem test_wf_source_without_blocking_timer_refused : (Instr.blockingTimerExpiry 13).WellFormed = false := by decide
theorem test_wf_start_mark_of_9_refused : (Instr.replyStartMark 9 0).WellFormed = false := by decide
theorem test_wf_start_mark_of_15_refused : (Instr.replyStartMark 15 0).WellFormed = false := by decide
theorem test_wf_length_16_breaks_no_framing : (Instr.replyFraming (.lengthAbove16 16) 0).WellFormed = false := by decide
theorem test_wf_node_0_refused : (Instr.readEntry 0 1 0 0).WellFormed = false := by decide
theorem test_wf_node_16_refused : (Instr.restart 16 1).WellFormed = false := by decide
theorem test_wf_write_of_12_bytes_refused :
    (Instr.writeEntry 15 1 0 0 (List.replicate 12 0)).WellFormed = false := by decide
theorem test_wf_write_entry_to_staging_refused : (Instr.writeEntry 15 1 7 0 []).WellFormed = false := by decide
theorem test_wf_good_commands :
    ([.valveTravelExpiry 7, .blockingTimerExpiry 18, .replyStartMark 10 0, .replyStartMark 14 0, .restart 15 1,
      .replyFraming (.lengthAbove16 17) 0,
      .writeEntry 1 1 5 0 [1], .powerOn].all Instr.WellFormed) = true := by decide

/-! ### The words of the table: none -/

theorem test_no_word_spells_a_command : decodeTableWord 8 0 = none ∧ State.reset.withFetchWord 8 0 = State.reset := by
  decide +kernel

/-! ### Check codes: the values of section 6.2 -/

theorem test_crc8_of_123456789 : crc8 [0x31, 0x32, 0x33, 0x34, 0x35, 0x36, 0x37, 0x38, 0x39] = 0xF4 := by decide +kernel
theorem test_crc8_of_01 : crc8 [0x01] = 0x07 := by decide +kernel
theorem test_crc8_of_01_02 : crc8 [0x01, 0x02] = 0x1B := by decide +kernel
theorem test_telegram_checks_to_zero : crc8 (telegram 3 0x11 [1, 2]) = 0 := by decide +kernel
/-- 0x29B1 is the published check value of the CRC-16 with generator 0x1021 and initial value 0xFFFF. -/
theorem test_crc16_of_123456789 :
    crc16 [0x31, 0x32, 0x33, 0x34, 0x35, 0x36, 0x37, 0x38, 0x39] = 0x29B1 := by decide +kernel
/-- Section 6.3: the request without payload takes 64 tBIT, the reply of 5 payload bytes 114. -/
theorem test_telegram_lengths :
    (telegramLevels (telegram 3 1 [])).length = 64 ∧ (telegramLevels (telegram 3 1 [1, 2, 3, 4, 5])).length = 114 := by
  decide +kernel

/-! ### Measurement: sections 1.3, 1.4, 1.7 -/

theorem test_ntc_conversions :
    [1200, 1250, 3900].map (interpolate defaultNtc) = [460, 445, -250] := by decide +kernel
theorem test_pressure_conversions : [1500, 300].map (interpolate defaultPressure) = [133, 0] := by decide +kernel

/-- The filter of FLOW_A over the frames of section 1.4. -/
theorem test_filter_sequence :
    ([620, 621, 622, 622, 622, 619].foldl
      (fun (acc : List Int) x => (acc.headD 600 + roundHalfAway (x - acc.headD 600) 1) :: acc) []).reverse
      = [610, 616, 619, 621, 622, 620] := by decide +kernel

/-- A flow of 8 pulses in the tenth frame: the ring sums 80 and q is 106; and a further pulse counts. -/
theorem test_flow_of_eight_pulses_a_frame :
    (after (.frameCompletion frame)
      { op with mp := { op.mp with dhwRing := List.replicate 10 8, dhwCount := 8 } }).mp.pub.q = 106 := by decide +kernel
theorem test_pulse_counts : (after (.inputPulse .dhwPulse) op).mp.dhwCount = 1 := by decide +kernel
theorem test_pulse_count_saturates :
    (after (.inputPulse .fanTacho) { op with mp := { op.mp with tachoCount := 255 } }).mp.tachoCount = 255 := by
  decide +kernel

/-- The first frame makes the unproven channels VALID with the converted values: raw 1200 is 460 (section 1.3). -/
theorem test_first_frame_loads_filters :
    (after (.frameCompletion frame) op).mp.pub.flowCtl = some 460 := by
  decide +kernel

/-- R12: raw 250 is a current of 15, the flame-on threshold; the third sample in a row gives the flame. -/
theorem test_third_sample_gives_flame :
    (after (.flameSample 240) { op with mp := { op.mp with flame := { onRun := 2 } } }).mp.flame
      = { current := 15, present := true } := by decide +kernel
theorem test_sample_between_thresholds_ends_runs :
    (after (.flameSample 239) { op with mp := { op.mp with flame := { onRun := 2 } } }).mp.flame
      = { current := 14 } := by decide +kernel

/-! ### Modulation: sections 4.2 and 4.9 -/

theorem test_curve_at_35_and_0 : [35, 0].map (interpolate (curvePoints defaultCurve)) = [465, 500] := by decide +kernel

theorem test_fan_map :
    [300, 460, 854, 320, 620, 640, 720, 840].map (fanMap defaultFanMap)
      = [2400, 3360, 5299, 2520, 4176, 4272, 4656, 5232] := by decide +kernel

/-- The zones of the worked flow target, at outdoor value 35. -/
def targetState : State :=
  let calling (sp t : Int) : Zone := { setpoint := sp, temp := some t, call := .call, valve := .opened }
  let image : List Byte :=
    [5, 0, 0, 120, 0, 0, 0, 0] ++ [5, 0, 0, 120, 0, 20, 0, 0] ++ [5, 0, 0, 120, 0, 0, 0, 0] ++ [4, 0, 0, 120, 0, 0, 0, 0]
      ++ [5, 0, 0, 120, 0, 0, 0, 0] ++ List.replicate 24 0
  { burning with
    latch := { op.latch with zones := image }
    mp := { op.mp with
      pub := { outdoor := 35, flowCtl := some 435 }
      flue := { validity := .valid, unproven := false, filtered := some 860 } }
    mu := { iAcc := 15000, uPrev := 440 }
    st := { op.st with zones := image }
    dm := { burning.dm with
      zones := [{}, calling 210 200, calling 205 200, {}, { call := .call, valve := .opened, fallback := true }, {}, {}, {}]
      diverter := { state := .atCh } } }

theorem test_worked_flow_target :
    (muStage1 targetState).mu.tz = [none, some 515, some 480, none, some 465, none, none, none]
      ∧ (muStage1 targetState).mu.ts = some 515 := by decide +kernel

/-- R57: an offset of zone 1 raised from 20 to 40 waits for the next frame, also at a change to CH between frames; then Tz is 535 in the place of 515. -/
theorem test_offset_waits_for_the_next_frame :
    let s := { targetState with st := { targetState.st with zones := splice targetState.st.zones 13 [40] } }
    (muCircuit .frost s).mu.ts = some 515 ∧ (muStage1 (latchTables s)).mu.ts = some 535 := by decide +kernel

/-- The heating frame of section 4.9. -/
theorem test_heating_frame :
    (muCompute targetState).mu =
      { (muStage1 targetState).mu with
        e := some 80, p := some 320, iAcc := 15160, uRaw := some 471, ceiling := some 660, ceilItem := some 2
        uC := some 471, uS := some 460 } := by decide +kernel

/-- Its delivery: 3360 rpm to BS, u_prev 460. -/
theorem test_heating_frame_delivery :
    (muFrame targetState).bs.fanTarget = 3360 ∧ (muFrame targetState).mu.uPrev = 460 := by decide +kernel

/-- The hot-water frame of section 4.9: u_raw 854, and 620 after the slew from 600. -/
theorem test_hot_water_frame :
    let s : State := { targetState with
      latch := { targetState.latch with settings := splice defaultSettings 14 (put16 450) }
      mp := { targetState.mp with
        pub := { q := 100, flowCtl := some 700 }, dhwOut := { validity := .valid, filtered := some 430 }
        flue := { validity := .valid, filtered := some 700 } }
      mu := { uPrev := 600 }
      dm := { circuit := .dhw, active := true, burn := .dhw, diverter := { state := .atDhw } } }
    (muCompute s).mu.uRaw = some 854 ∧ (muCompute s).mu.uS = some 620 ∧ (muFrame s).mu.fanOut = 4176 := by
  decide +kernel

/-- The cycle lengths of section 4.9: u_raw 60 at Pc 600 and m_min 150 gives 240 s on; u_raw 45 gives 180; 150 gives 600. -/
theorem test_cycle_lengths : [60, 45, 150].map (pendingOn 600 150) = [240, 180, 600] := by decide +kernel

/-! ### Burner -/

theorem test_purge_complete_starts_the_spark :
    let t := after .purgeComplete
      (withBs { state := .prePurge, purge := some ⟨29, 30⟩, purgeLimit := some 100, fanTarget := 4000 })
    t.bs.state = .ignition ∧ t.bs.spark = true ∧ t.bs.gas1 = false ∧ t.bs.fanTarget = 2400 := by decide +kernel
theorem test_pre_spark_end_opens_the_gas :
    (after .tprespkExpiry preSpark).bs.gas1 = true ∧ (after .tprespkExpiry preSpark).bs.tSafe = some (12000 + 72000) := by
  decide +kernel
theorem test_first_failed_attempt_retries :
    (after .tsafeExpiry shot).bs.state = .postPurge ∧ (after .tsafeExpiry shot).bs.retry = true := by decide +kernel
/-- NATT is 3: the third failure locks out with code 101 (R107). -/
theorem test_third_failed_attempt_locks_out :
    let t := after .tsafeExpiry { shot with bs := { shot.bs with attempts := 2 } }
    t.bs.state = .lockout ∧ t.fm.lockout.code = 101 ∧ t.pe.leadCode = 101 ∧ t.st.counters.getD 3 0 = 1 := by
  decide +kernel
theorem test_spark_time_ends_the_spark :
    (after .tsparkExpiry shot).bs.spark = false ∧ (after .tsparkExpiry shot).bs.gas1 = true := by decide +kernel
theorem test_stabilise_ends_in_run :
    (after .tstabExpiry (withBs { state := .stabilise, gas1 := true, gas2 := true, tStab := some 9 })).bs.state = .run := by
  decide +kernel
theorem test_post_purge_without_request_ends_in_standby :
    (after .tpostExpiry (waiting .postPurge fun b => { b with tPost := some 9 })).bs.state = .standby := by decide +kernel
theorem test_running_fan_in_pre_check_is_not_stopped :
    let s := waiting .preCheck fun b => { b with tPchk := some 9 }
    (after .tpchkExpiry { s with mp := { s.mp with pub := { fanSpeed := 120 } } }).fm.blockNotStopped = some 60 := by
  decide +kernel
theorem test_purge_limit_blocks_for_60_s :
    (after .prePurgeLimitExpiry (waiting .prePurge fun b => { b with purgeLimit := some 9 })).bs.inhibit.blocking = true := by
  decide +kernel
theorem test_fan_deviation_closes_the_gas :
    (after .fanDeviationTimeout { burning with bs := { burning.bs with fanDev := 99 } }).bs.gas1 = false := by
  decide +kernel
theorem test_false_flame_code_103 :
    (after .tffExpiry (waiting .standby fun b => { b with falseFlame := some 9 })).fm.lockout.code = 103 := by decide +kernel
theorem test_post_gas_flame_locks_out :
    let s := waiting .postPurge fun b => { b with postGas := some 9, tPost := some 50 }
    (after .tffpostExpiry { s with mp := { s.mp with flame := { present := true } } }).bs.state = .lockout := by
  decide +kernel
theorem test_relay_mismatch_runs_200_ms :
    (after (.relayReadbackChange .gas2 true 10) op).bs.mismatch2 = some (10 + 4800) := by decide +kernel
theorem test_relay_mismatch_code_104 :
    (after (.mismatchTimerExpiry .gas2) { op with bs := { op.bs with mismatch2 := some 9 } }).fm.active.map
      (fun r => (r.source, r.detail)) = [(.gasRelay, 1)] := by decide +kernel
theorem test_relay_energised_at_a_pre_check_entry_code_104 :
    let s := waiting .postPurge fun b => { b with tPost := some 9 }
    (after .tpostExpiry { s with dm := burning.dm, lines := { relay2Fb := true } }).fm.lockout.code = 104 := by decide +kernel
theorem test_lockout_purge_stops_the_fan :
    (after .lockoutPurgeExpiry (waiting .lockout fun b => { b with lockPurge := some 9, fanTarget := 3000 })).bs.fanTarget
      = 0 := by decide +kernel
theorem test_circulation_timeout_blocks_120_s :
    (after .circulationTimeout stagnant).fm.blockCirculation = some 120 := by decide +kernel
/-- R20: with the burner out of STABILISE and RUN the timer returns to 0 and nothing is raised. -/
theorem test_circulation_needs_a_burn :
    (after .circulationTimeout { stagnant with bs := { state := .postPurge } }).fm.active = [] := by decide +kernel
theorem test_flow_disagreement_locks_out :
    (after .flowDisagreeTimeout { op with mp := { op.mp with disagree := 99 } }).fm.lockout.code = 112 := by decide +kernel

/-! ### Demand -/

theorem test_silent_zone_falls_back :
    let s := { op with st := { op.st with counters := [600, 0, 0, 0, 0, 0, 0] } }
    ((after (.zoneFallbackTimeout 0) s).zone 0).fallback = true
      ∧ ((after (.zoneFallbackTimeout 0) s).zone 0).call = .call := by decide +kernel
theorem test_valve_travel_opens_the_valve :
    let s := { op with dm := { op.dm with zones := { valve := .opening, travel := some 9 } :: List.replicate 7 {} } }
    ((after (.valveTravelExpiry 0) s).zone 0).valve = .opened := by decide +kernel
/-- The default DHW overrun leads the diverter back over 6 s. -/
theorem test_draw_ends :
    let s := { op with dm := { op.dm with draw := { state := .overrun, overrun := some 9 }, diverter := { state := .atDhw } } }
    (after .dhwOverrunExpiry s).dm.draw.state = .idle ∧ (after .dhwOverrunExpiry s).dm.diverter.pos = 144000 := by
  decide +kernel
theorem test_diverter_reaches_its_end :
    (after .diverterEndReached { op with dm := { op.dm with diverter := { state := .toCh, pos := 9 } } }).dm.diverter.state
      = .atCh := by decide +kernel
theorem test_anti_cycle_ends :
    (after .antiCycleExpiry { op with dm := { op.dm with antiCycle := some 9 } }).dm.antiCycle = none := by decide +kernel
theorem test_pump_overrun_ends :
    (after .pumpOverrunExpiry { op with dm := { op.dm with pumpOverrun := some 9 } }).pumpEn = false := by decide +kernel
theorem test_pump_kick_of_10_s :
    (after .pumpKickStart { op with dm := { op.dm with idle := 86400 } }).dm.kick = some 240000 := by decide +kernel
theorem test_pump_kick_ends :
    (after .pumpKickEnd { op with dm := { op.dm with kick := some 9, idle := 86400 } }).dm.idle = 0 := by decide +kernel
theorem test_on_phase_end_closes_the_gas :
    let s := { burning with mu := { cyc := { state := .onPhase, onLen := 240, offLen := 360, remain := 100 } } }
    (after .onPhaseExpiry s).mu.cyc.remain = 360000 ∧ (after .onPhaseExpiry s).bs.state = .postPurge := by decide +kernel
theorem test_off_phase_end_restarts :
    let s := { op with
      dm := { circuit := .ch, offPhase := true }
      mu := { cyc := { state := .offPhase, onLen := 240, offLen := 360, remain := 100 } } }
    (after .offPhaseExpiry s).bs.state = .preCheck := by decide +kernel

/-! ### Faults and time -/

theorem test_blocking_timer_removes_the_record :
    let s := { op with
      fm := { active := [⟨.fanNoSpeed, 63, .blocking, 1, 0, 0⟩], blockNoSpeed := some 60 }
      st := { op.st with counters := [60, 0, 0, 0, 0, 0, 0] } }
    (after (.blockingTimerExpiry 11) s).fm.active = [] := by decide +kernel
theorem test_press_timer_of_half_a_second :
    (after (.resetInLevelChange true 24) { op with fm := { armed := true } }).fm.press = some (24 + 12000) := by
  decide +kernel
theorem test_press_resets_a_false_flame :
    (after .resetInPress { locked with fm := { locked.fm with press := some 9 } }).fm.lockout.state = .resetPending := by
  decide +kernel
theorem test_second_counted :
    (after .powerOnSecond burning).st.counters = [1, 1, 0, 0, 0, 1, 0] := by decide +kernel

/-! ### Bus -/

theorem test_settling_ends_ready :
    (after .tsettleExpiry { op with zp := { port := .settling, settle := some 9 }, pe := {} }).zp.port ≠ .settling := by
  decide +kernel
theorem test_period_starts_a_round :
    (after .periodTimerExpiry { op with pe := { op.pe with round := { period := some 9 } } }).pe.round.number = 1 := by
  decide +kernel
/-- R158 and table 7.7: the service poll after the list pass shows no entry taken up. -/
theorem test_no_position_after_the_list_pass :
    (passEnd { op with pe := { op.pe with round := { state := .running, cur := some (readTaken op.st.poll 0) } } }).pe.round.cur
      = none := by decide +kernel
theorem test_line_check_sends : (after .lineCheckIdle (bus id .lineCheck)).inPhase .sending = true := by decide +kernel
theorem test_dominant_line_check_clears :
    let s := bus id .lineCheck
    (after .lineDominanceTimeout { s with lines := { busDominant := true } }).zp.port = .clearing := by decide +kernel
theorem test_long_line_check_clears : (after .lineCheckTimeout (bus id .lineCheck)).zp.clear = some (4800 + 4800) := by
  decide +kernel
/-- 64 tBIT of request (section 6.3), then tREPLY of 20 ms: 320 and 480 ticks from time 0, the clock being later. -/
theorem test_request_sent_awaits :
    ((after .requestSent { bus id .sending with clock := {} }).zp.exch.bind fun x => x.reply) = some (320 + 480) := by
  decide +kernel
theorem test_hold_of_10_ms_is_a_stretch :
    ((after .holdTimeout (bus (fun x => { x with hold := some 800 }) .sending)).zp.lastFail.map fun f => f.reason)
      = some .stretch := by decide +kernel
theorem test_start_mark_opens_reception :
    (after (.replyStartMark 12 60) (bus (fun x => { x with reply := some 1400 }) .awaiting)).inPhase .receiving = true := by
  decide +kernel
theorem test_no_reply :
    ((after .treplyExpiry (bus (fun x => { x with reply := some 1400 }) .awaiting)).nodeLive 15).miss = 1 := by decide +kernel
theorem test_reception_too_long :
    ((after .trxmaxExpiry (bus (fun x => { x with rxMax := some 4000 }) .receiving)).zp.lastFail.map fun f => f.reason)
      = some .noReply := by decide +kernel
theorem test_framing :
    ((after (.replyFraming .idleBreak 50) (bus id .receiving)).zp.lastFail.map fun f => f.reason) = some .framing := by
  decide +kernel
/-- R136: of a length byte whose last three bits are 1 the line has been idle since the end of bit 4, three data bits and the stop bit ago. -/
theorem test_framing_by_a_length_byte_of_0xE0 :
    (after (.replyFraming (.lengthAbove16 0xE0) 50) (bus id .receiving)).lines.busSince = 1050 - 4 * Config.tBit := by
  decide +kernel
theorem test_byte_joins_the_assembly : (after (.replyByteReceived 7 50) (bus id .receiving)).zp.rx = [7] := by
  decide +kernel
theorem test_wrong_check :
    let s := bus id .receiving
    ((after (.replyReceived 1 50) { s with zp := { s.zp with rx := [0, 15, 0x20, 0] } }).zp.lastFail.map fun f => f.reason)
      = some .check := by decide +kernel
theorem test_closing_sent_ends_the_exchange : (after .closingSent (bus id .closing)).zp.lastFail = none := by decide +kernel
/-- R140, R141: a hold of 10 ms in the closing phase is recorded and counts no miss. -/
theorem test_closing_stretch_is_recorded :
    let t := after .holdTimeout (bus (fun x => { x with hold := some 800 }) .closing)
    (t.zp.lastFail.map fun f => f.reason) = some .stretch ∧ (t.nodeLive 15).miss = 0 := by decide +kernel
theorem test_clear_ends_settling :
    (after .tclearExpiry { op with zp := { port := .clearing, clear := some 9 } }).zp.settle = some (9 + 12000) := by
  decide +kernel
theorem test_overcurrent_faults : (after .overcurrent op).zp.port = .fault ∧ (after .overcurrent op).zp.busFault = true := by
  decide +kernel
theorem test_fault_timer_settles :
    (after .faultTimerExpiry { op with zp := { port := .fault, fault := some 9 } }).zp.port = .settling := by decide +kernel
theorem test_level_change_holds_the_bit_timer :
    ((after (.busLineLevelChange true 0) { bus id .sending with clock := { now := 62 } }).zp.exch.bind fun x => x.hold)
      = some 62 := by decide +kernel

/-! ### Requests -/

/-- Section 10.4: IDENT entry 0 is 416, least significant byte first. -/
theorem test_read_ident :
    (after (.readEntry 15 7 8 0) op).mg.answer = some ⟨15, [7, 1, 0, 8, 0, 160, 1]⟩ := by decide +kernel
/-- Mode SUMMER written to SETTINGS entry 0. -/
theorem test_write_mode :
    (after (.writeEntry 15 7 0 0 [1]) op).st.settings.getD 0 0 = 1
      ∧ (after (.writeEntry 15 7 0 0 [1]) op).mg.answer = some ⟨15, [7, 2, 0]⟩ := by decide +kernel
/-- R148: node 2 already names zone 0, so a second room unit of zone 0 is refused INVALID. -/
theorem test_second_room_unit_of_a_zone_refused :
    (after (.writeEntry 15 7 3 4 [1, 0, 0, 0, 0, 0, 0, 0]) op).mg.answer = some ⟨15, [7, 2, 2]⟩ := by decide +kernel
theorem test_counter_zeroed :
    (after (.writeEntryCounters 15 7 2 [0, 0, 0, 0]) { op with st := { op.st with counters := [9, 9, 9, 9, 9, 9, 9] } }).st.counters
      = [9, 9, 0, 9, 9, 9, 9] := by decide +kernel
theorem test_staging_written :
    (after (.writeEntrySafetyStage 15 7 6 [1, 0]) op).mg.staging.getD 12 0 = 1
      ∧ ((after (.writeEntrySafetyStage 15 7 6 [1, 0]) op).st.safety.getD 12 0) = 3 := by decide +kernel
theorem test_commit_refused_while_burning :
    (after (.commitSafety 15 7 0) burning).mg.answer = some ⟨15, [7, 3, 9]⟩ := by decide +kernel
theorem test_read_state_answers : ((after (.readState 15 7 3 0 0) op).mg.answer.map fun a => a.payload.take 3) = some [7, 4, 0] := by
  decide +kernel
theorem test_read_faults_end : (after (.readFaults 15 7 0 0 0) op).mg.answer = some ⟨15, [7, 5, 15, 0]⟩ := by decide +kernel
theorem test_reset_not_locked : (after (.lockoutReset 15 7) op).mg.answer = some ⟨15, [7, 6, 11]⟩ := by decide +kernel
theorem test_proxy_pending : (after (.proxyRead 15 7 3 4) op).mg.slot.state = .fetching := by decide +kernel
theorem test_clear_history : (after (.clearHistory 15 7) op).mg.answer = some ⟨15, [7, 8, 0]⟩ := by decide +kernel
theorem test_room_unit_may_not_clear_history : (after (.clearHistory 2 7) op).mg.answer = some ⟨2, [7, 8, 3]⟩ := by
  decide +kernel
theorem test_restart_mark : (after (.restart 15 7) op).mg.restart = true := by decide +kernel
theorem test_restart_proceeds :
    (after .restartProceed { op with mg := { op.mg with restart := true } }).power = .loading := by decide +kernel
theorem test_proxy_hold_ends :
    (after .proxyHoldExpiry { op with mg := { op.mg with slot := { state := .ready, hold := some 9 } } }).mg.slot = {} := by
  decide +kernel

/-! ### Power and store -/

theorem test_power_loss_then_power_on :
    (after .powerLoss burning).bs.gas1 = false ∧ (after .powerOn (after .powerLoss burning)).power = .loading := by
  decide +kernel
theorem test_blank_store_locks_out_with_120 :
    (after .loadComplete State.reset).fm.lockout.code = 120 ∧ (after .loadComplete State.reset).zp.port = .settling := by
  decide +kernel
/-- R43: a relay that reads energised at the load runs its 200 ms; R68: the diverter is driven to CH from the load on. -/
theorem test_load_supervises_and_drives :
    let t := after .loadComplete { State.reset with lines := { relay2Fb := true } }
    State.reset.divB = false ∧ t.divB = true ∧ t.bs.mismatch1 = none ∧ t.bs.mismatch2 = some 4800 := by decide +kernel
/-- R203: a staged Prated of 0x8000 lies in its range and is refused all the same. -/
theorem test_staged_prated_of_absent_is_refused :
    (safetyScalars (splice block 20 (put16 0x8000))).findIdx? (fun ok => !ok) = some 10 := by decide +kernel
theorem test_page_write_ends_stored :
    let w : Write := ⟨11, defaultSettings, 1, 9, false, false, 0, .none⟩
    (after (.pageWriteEnd true) { op with st := { op.st with write := some w } }).nv.read (32 * 11 + 4) = 70 := by
  decide +kernel
theorem test_failed_verify_is_tried_again :
    let w : Write := ⟨11, defaultSettings, 1, 9, false, false, 0, .none⟩
    ((after (.pageWriteEnd false) { op with st := { op.st with write := some w } }).st.write.map fun w => (w.attempt, w.due))
      = some (2, 9 + 144) := by decide +kernel

/-! ### Witnesses: states and operands that meet the hypotheses of each obligation -/

theorem not_recorded (s : State) (src : Source) (h : s.record src = none) (P : Record → Prop) :
    ∀ r, s.record src = some r → P r := by
  intro r h'; rw [h] at h'; cases h'

theorem witness_StepKeepsStoreCanonical :
    (op.nv.program 11 defaultSettings).wf = true
      ∧ step { op with pending := [.powerOnSecond], nv := op.nv.program 11 defaultSettings }
        = .next (after .powerOnSecond { op with nv := op.nv.program 11 defaultSettings }) := ⟨by decide +kernel, rfl⟩

theorem safe_shot : SafeBurner shot := by unfold SafeBurner BurnerOk LockoutAgrees onlyIn; decide +kernel
theorem safe_preSpark : SafeBurner preSpark := by unfold SafeBurner BurnerOk LockoutAgrees onlyIn; decide +kernel
theorem safe_burning : SafeBurner burning := by unfold SafeBurner BurnerOk LockoutAgrees onlyIn; decide +kernel
theorem safe_locked : SafeBurner locked := by unfold SafeBurner BurnerOk LockoutAgrees onlyIn; decide +kernel
theorem safe_op : SafeBurner op := by unfold SafeBurner BurnerOk LockoutAgrees onlyIn; decide +kernel

theorem witness_StepKeepsTheBurnerSafe :
    SafeBurner { shot with pending := [.tsafeExpiry] }
      ∧ step { shot with pending := [.tsafeExpiry] } = .next (after .tsafeExpiry shot) := by
  refine ⟨?_, rfl⟩
  unfold SafeBurner BurnerOk LockoutAgrees onlyIn; decide +kernel

theorem witness_StepKeepsTheFaultListSound :
    FaultListSound { locked with pending := [.tffExpiry] }
      ∧ step { locked with pending := [.tffExpiry] } = .next (after .tffExpiry locked) := by
  refine ⟨?_, rfl⟩
  unfold FaultListSound; decide +kernel

theorem witness_StepKeepsCountsInRange :
    CountsInRange { burning with pending := [.powerOnSecond] } ∧ QueueFits { burning with pending := [.powerOnSecond] }
      ∧ step { burning with pending := [.powerOnSecond] } = .next (after .powerOnSecond burning) := by
  refine ⟨?_, ?_, rfl⟩
  · unfold CountsInRange; decide +kernel
  · unfold QueueFits; decide +kernel

theorem witness_LockoutIsLeftOnlyByResetOrPower :
    (SafeBurner locked ∧ locked.bs.state = .lockout ∧ exec (.flameSample 4000) locked = .next (after (.flameSample 4000) locked)
      ∧ Instr.flameSample 4000 ≠ .powerLoss ∧ Instr.flameSample 4000 ≠ .restartProceed
      ∧ Instr.flameSample 4000 ≠ .pageWriteEnd true)
    ∧ (let w : Write := ⟨8, pad32 [1], 1, 9, false, false, 0, .active⟩
      let s := { locked with st := { locked.st with write := some w } }
      SafeBurner s ∧ s.bs.state = .lockout ∧ s.st.write = some w ∧ w.carried ≠ .none) :=
  ⟨⟨safe_locked, rfl, rfl, by simp, by simp, by simp⟩, safe_locked, rfl, rfl, by simp⟩

theorem witness_SafetyBlockAndStoreChangeByPageWritesOnly :
    (exec .powerOnSecond op = .next (after .powerOnSecond op) ∧ (∀ v, Instr.powerOnSecond ≠ .pageWriteEnd v)
      ∧ familyOf .powerOnSecond ≠ .power ∧ Instr.powerOnSecond ≠ .powerLoss)
    ∧ (let w : Write := ⟨7, pad32 [], 1, 9, false, false, 0, .none⟩
      let s := { op with st := { op.st with write := some w } }
      exec (.pageWriteEnd true) s = .next (after (.pageWriteEnd true) s) ∧ familyOf (.pageWriteEnd true) ≠ .power
        ∧ s.st.write = some w ∧ ¬(w.page = 7 ∧ w.commit = true)) := by
  refine ⟨⟨rfl, ?_, ?_, ?_⟩, rfl, ?_, rfl, ?_⟩ <;> simp [familyOf]

theorem witness_CommandsKeepWhatTheyDoNotReach :
    exec .tsparkExpiry shot = .next (after .tsparkExpiry shot) ∧ familyOf .tsparkExpiry = .plant
      ∧ (∀ f, Instr.tsparkExpiry ≠ .frameCompletion f) ∧ (∀ r, Instr.tsparkExpiry ≠ .flameSample r)
      ∧ Instr.tsparkExpiry ≠ .tsafeExpiry ∧ Instr.tsparkExpiry ≠ .powerOnSecond
      ∧ (∀ r l dt, Instr.tsparkExpiry ≠ .relayReadbackChange r l dt)
      ∧ ∀ l dt, Instr.tsparkExpiry ≠ .resetInLevelChange l dt := by
  refine ⟨rfl, rfl, ?_, ?_, ?_, ?_, ?_, ?_⟩ <;> simp

theorem witness_PowerOnSetsThePowerOnValues : (after .powerLoss op).power = .off := rfl

theorem witness_PowerLossTearsOnlyThePageBeingWritten :
    (op.nv.wf = true ∧ op.st.write = none)
      ∧ (let w : Write := ⟨8, pad32 [1], 1, 9, false, true, 3, .active⟩
        let s := { op with st := { op.st with write := some w }, nv := op.nv.program 11 defaultSettings }
        s.nv.wf = true ∧ s.st.write = some w ∧ 352 / 32 ≠ physPage w.page w.slotB) := by decide +kernel

/-- The part with a store, as power-on leaves it. -/
def loading (m : Memory) : State := { State.reset with nv := m }

/-- The store with the block's eight pages written. -/
def stored : Memory := (List.range 8).foldl (fun m p => m.program p (slice block (32 * p) 32)) {}

/-- The block with T_limit 800, so that Tch_max is at most 700 (R85), its CRC computed, and the store with its pages. -/
def lowBlock : List Byte :=
  let b := splice block 26 (put16 800)
  splice b 254 (put16 (blockCrc b).toNat)
def lowStored : Memory := (List.range 8).foldl (fun m p => m.program p (slice lowBlock (32 * p) 32)) {}

set_option maxRecDepth 100000 in
/-- R198: beside that block, whose bound of R85 is 700, a stored Tch_max of 750 loads as it is stored, and no job waits. -/
theorem test_loaded_tch_max_is_the_stored_one :
    let t := after .loadComplete (loading (lowStored.program 11 defaultSettings))
    t.st.loaded = .valid ∧ t.tLimit = 800 ∧ setTchMax t.st.settings = 750 ∧ t.st.jobs = [] := by
  decide +kernel

/-- A history entry: the false flame of number 7. -/
def oneHist : Hist := { seq := 7, source := .falseFlame, code := 103, cls := .lockout, detail := 63, hours := 2, count := 1 }

set_option maxRecDepth 100000 in
/-- A blank store; a VALID block with the settings page and no lockout; a lockout by a false flame stored; a torn settings page; a reset history; a NONE copy of the lockout page with one history entry. -/
theorem witness_LoadCompleteTakesTheStoredPages :
    (State.reset = State.reset.volatileReset .loading ∧ State.reset.nv = {}
      ∧ ∃ p < 8, State.reset.nv.complete p = false)
    ∧ (let s := loading (stored.program 11 defaultSettings)
      s = s.volatileReset .loading ∧ (∀ p < 8, s.nv.complete p = true) ∧ s.nv.complete 11 = true
        ∧ s.nv.newest 8 = none ∧ (∀ p < 35, s.nv.loadFault p = false)
        ∧ (after .loadComplete s).st.loaded = .valid)
    ∧ (let s := loading (({} : Memory).program 8 (pad32 [1, 3]))
      s = s.volatileReset .loading ∧ s.nv.newest 8 = some false ∧ u8 (s.nv.readPage (physPage 8 false)) 0 = 1
        ∧ Source.ofNum (u8 (s.nv.readPage (physPage 8 false)) 1) = some .falseFlame)
    ∧ (let s := loading (({} : Memory).spoil 11 (.torn 0))
      s = s.volatileReset .loading ∧ s.nv.torn 11 = true)
    ∧ (loading (({} : Memory).program 9 (pad32 [1]))).nv.newest 9 = some false
    ∧ (let s := loading ((stored.program 8 (pad32 [0])).program 27 (pad32 (slotBytes (some oneHist))))
      s = s.volatileReset .loading ∧ s.nv.newest 8 = some false ∧ u8 (s.nv.readPage (physPage 8 false)) 0 = 0
        ∧ (∀ p < 35, s.nv.loadFault p = false) ∧ (after .loadComplete s).st.loaded = .valid
        ∧ (after .loadComplete s).fm.ring.getD 0 none = some oneHist
        ∧ endsRun (after .loadComplete s).fm.ring 0 = true
        ∧ ∀ j < 32, endsRun (after .loadComplete s).fm.ring j = true → j = 0) :=
  ⟨⟨rfl, rfl, 0, by decide, rfl⟩, ⟨rfl, by decide +kernel⟩, ⟨rfl, by decide +kernel⟩, ⟨rfl, rfl⟩, by decide +kernel,
    ⟨rfl, by decide +kernel⟩⟩

theorem witness_FrameCompletionPublishesOneFrame : op.power = .on ∧ setKpl op.st.settings ≠ 0 := by decide +kernel

/-- The boundary raw values of R4 are 40 and 4050; a run of 1 is the last that changes nothing, and of 2 the first whose next sample changes the validity. -/
theorem witness_RangeCheckFollowsTheTable :
    (op.power = .on ∧ fitted op.st.settings .flowA = true ∧ op.mp.flowA.validity = .invalid ∧ op.mp.flowA.unproven = true
      ∧ outOfRange 40 = false ∧ outOfRange 4050 = false ∧ outOfRange 39 = true ∧ outOfRange 4051 = true)
    ∧ ∀ v ∈ [Validity.valid, .invalid], ∀ n ∈ [1, 2],
        let s := { op with mp := { op.mp with
          flowA := { validity := v, unproven := false, inRun := n, outRun := n, filtered := some 460 } } }
        let r := s.mp.chan .flowA
        s.power = .on ∧ fitted s.st.settings .flowA = true ∧ r.validity = v ∧ r.unproven = false
          ∧ r.filtered = some 460 ∧ (r.outRun < 2 ↔ n = 1) ∧ (r.inRun < 2 ↔ n = 1) := by decide +kernel

/-- The pressure's 3 bits of filter move 100 to 104 with a sample of 133: above 80 a set marker clears, below 50 one is set; FLUE at raw 120 is 1300, above Fl. -/
theorem witness_FrameThresholdsSetAndClearTheirMarkers :
    (op.power = .on ∧ SafeBurner op ∧ FaultListSound op ∧ op.mp.lowP = false ∧ op.mp.highP = false
      ∧ op.mp.flueHigh = false ∧ op.bs.overheatMark = false ∧ op.bs.limitMark = false
      ∧ (after (.frameCompletion { frame with pressure := 300 }) op).mp.lowP = true
      ∧ (after (.frameCompletion { frame with pressure := 3900 }) op).mp.highP = true
      ∧ (after (.frameCompletion { frame with flue := 120 }) op).mp.flueHigh = true
      ∧ (after (.frameCompletion { frame with flowA := 120, flowB := 120 }) op).bs.overheatMark = true)
    ∧ (let s := { op with
        mp := { op.mp with lowP := true, highP := true, flueHigh := true }, bs := { op.bs with overheatMark := true } }
      SafeBurner s ∧ FaultListSound s ∧ s.mp.lowP = true ∧ s.mp.highP = true ∧ s.mp.flueHigh = true
        ∧ s.bs.overheatMark = true ∧ (after (.frameCompletion frame) s).mp.lowP = false) := by
  refine ⟨⟨rfl, safe_op, ?_, ?_⟩, ?_, ?_, ?_⟩
  · unfold FaultListSound; decide +kernel
  · decide +kernel
  · unfold SafeBurner BurnerOk LockoutAgrees onlyIn; decide +kernel
  · unfold FaultListSound; decide +kernel
  · decide +kernel

theorem witness_CharacteristicHoldsItsEndsAndInterpolates :
    defaultNtc.Pairwise (fun p q => p.1 < q.1) ∧ defaultNtc.head? = some (120, 1300)
      ∧ defaultNtc.getLast? = some (3700, -250) ∧ defaultNtc[0]? = some (120, 1300) ∧ defaultNtc[0 + 1]? = some (200, 1100)
      ∧ (119 : Int) < 120 ∧ (3700 : Int) ≤ 3700 ∧ (120 : Int) ≤ 120 ∧ (199 : Int) < 200 := by decide +kernel

/-- The thresholds are 15 and 8: raw 240 and 239, 128 and 127 are the boundary samples. -/
theorem witness_FlameSamplesAndPulsesAreTaken :
    op.power = .on ∧ op.mp.flame.present = false ∧ op.flameOn ≤ (240 : Sample).toNat / 16
      ∧ (239 : Sample).toNat / 16 < op.flameOn ∧ (127 : Sample).toNat / 16 < op.flameOff
      ∧ op.flameOff ≤ (128 : Sample).toNat / 16 ∧ op.mayStart = false
      ∧ ∀ n ∈ [1, 2], let s := { op with mp := { op.mp with flame := { present := true, onRun := n, offRun := n } } }
        s.power = .on ∧ s.mp.flame.present = true ∧ (s.mp.flame.offRun < 2 ↔ n = 1) := by decide +kernel

theorem witness_FlameOnEstablishesTheBurn :
    let s := { shot with mp := { shot.mp with flame := { onRun := 2 } } }
    s.power = .on ∧ SafeBurner s ∧ s.bs.state = .ignition ∧ s.bs.tPrespk = none ∧ s.mp.flame.present = false
      ∧ 2 ≤ s.mp.flame.onRun ∧ s.flameOn ≤ (240 : Sample).toNat / 16 := by
  unfold SafeBurner BurnerOk LockoutAgrees onlyIn; decide +kernel

/-- NREC is 2: with one recycle made the next is allowed, with two it is not. -/
theorem witness_FlameLossClosesTheGas :
    let s := { burning with mp := { burning.mp with flame := { present := true, offRun := 2 } } }
    s.power = .on ∧ SafeBurner s ∧ (s.bs.state = .stabilise ∨ s.bs.state = .run) ∧ s.mp.flame.present = true
      ∧ 2 ≤ s.mp.flame.offRun ∧ (127 : Sample).toNat / 16 < s.flameOff ∧ LocksOut s .flameLoss
      ∧ s.bs.recycles < sbNrec s.st.safety ∧ sbNrec s.st.safety = 2 := by
  refine ⟨rfl, ?_, .inr rfl, rfl, by decide, by decide +kernel, ⟨rfl, ?_⟩, by decide +kernel, by decide +kernel⟩
  · unfold SafeBurner BurnerOk LockoutAgrees onlyIn; decide +kernel
  · exact not_recorded _ _ rfl _

theorem witness_FlowTimersRaiseTheirSources :
    let s := { stagnant with mp := { stagnant.mp with disagree := 99 } }
    s.power = .on ∧ SafeBurner s ∧ 0 < s.mp.disagree ∧ s.mp.disagree < 100 ∧ LocksOut s .flowDisagree
      ∧ s.noCirculation = true ∧ 0 < s.mp.circ ∧ s.mp.circ < 200 := by
  refine ⟨rfl, safe_burning, ?_, ?_, ⟨rfl, not_recorded _ _ rfl _⟩, ?_, ?_, ?_⟩ <;> decide +kernel

theorem witness_FanFaultsEndTheAttempt_fan :
    let s := waiting .preCheck fun b => { b with tPchk := some 9 }
    let s := { s with mp := { s.mp with pub := { fanSpeed := 100 } } }
    s.power = .on ∧ SafeBurner s ∧ s.bs.tPchk = some 9 ∧ 100 ≤ s.mp.pub.fanSpeed ∧ s.newClass .fanNotStopped ≠ .warning
      ∧ ∀ r, s.record .fanNotStopped = some r → r.cls ≠ .warning := by
  refine ⟨rfl, ?_, rfl, by decide, by decide +kernel, not_recorded _ _ rfl _⟩
  unfold SafeBurner BurnerOk LockoutAgrees onlyIn; decide +kernel
theorem witness_FanFaultsEndTheAttempt_purge :
    let s := waiting .prePurge fun b => { b with purgeLimit := some 9 }
    s.power = .on ∧ SafeBurner s ∧ s.bs.purgeLimit = some 9 ∧ s.newClass .fanNoSpeed ≠ .warning
      ∧ ∀ r, s.record .fanNoSpeed = some r → r.cls ≠ .warning := by
  refine ⟨rfl, ?_, rfl, by decide +kernel, not_recorded _ _ rfl _⟩
  unfold SafeBurner BurnerOk LockoutAgrees onlyIn; decide +kernel
theorem witness_FanFaultsEndTheAttempt_deviation :
    let s := { burning with bs := { burning.bs with fanDev := 99 }, mp := { burning.mp with pub := { fanSpeed := 99 } } }
    s.power = .on ∧ SafeBurner s ∧ (s.bs.state = .stabilise ∨ s.bs.state = .run) ∧ 0 < s.bs.fanDev ∧ s.bs.fanDev < 100
      ∧ s.newClass .fanDeviation ≠ .warning ∧ (∀ r, s.record .fanDeviation = some r → r.cls ≠ .warning)
      ∧ s.mp.pub.fanSpeed < 100 := by
  refine ⟨rfl, ?_, .inr rfl, by decide, by decide, by decide +kernel, not_recorded _ _ rfl _, by decide⟩
  unfold SafeBurner BurnerOk LockoutAgrees onlyIn; decide +kernel

theorem witness_QuietTimersDoOneThing :
    (let s := waiting .preCheck fun b => { b with tPchk := some 9 };
      s.power = .on ∧ s.bs.state = .preCheck ∧ s.bs.tPchk = some 9 ∧ s.mp.pub.fanSpeed < 100)
    ∧ (shot.bs.state = .ignition ∧ shot.bs.tSpark = some 48000)
    ∧ (let s := waiting .lockout fun b => { b with lockPurge := some 9 };
      s.bs.state = .lockout ∧ s.bs.lockPurge = some 9)
    ∧ (let s := { op with dm := { op.dm with pumpOverrun := some 9 } };
      s.power = .on ∧ s.mayStart = false ∧ s.dm.pumpOverrun = some 9)
    ∧ (let s := { op with dm := { op.dm with idle := 86400 } };
      s.mayStart = false ∧ 86400 ≤ s.dm.idle ∧ s.dm.kick = none ∧ s.record .lowPressure = none)
    ∧ (let s := { op with fm := { active := [⟨.lowPressure, 63, .blocking, 1, 0, 0⟩] } };
      s.mayStart = false ∧ (s.record .lowPressure).isSome = true)
    ∧ (let s := { op with dm := { op.dm with kick := some 9 } };
      s.mayStart = false ∧ s.dm.kick = some 9) := by decide +kernel

theorem witness_PurgeLeadsToIgnitionAndTheGasOpens :
    (let s := withBs { state := .prePurge, purge := some ⟨29, 30⟩, purgeLimit := some 100 };
      s.power = .on ∧ s.bs.state = .prePurge ∧ s.bs.purge = some ⟨29, 30⟩)
    ∧ (preSpark.power = .on ∧ SafeBurner preSpark ∧ preSpark.bs.tPrespk = some 12000 ∧ preSpark.mp.flame.present = false)
    ∧ (let s := { preSpark with mp := { preSpark.mp with flame := { present := true } } };
        SafeBurner s ∧ s.bs.tPrespk = some 12000 ∧ LocksOut s .falseFlame ∧ s.mp.flame.present = true) :=
  ⟨by decide +kernel, ⟨rfl, safe_preSpark, rfl, rfl⟩, safe_preSpark, rfl, ⟨rfl, not_recorded _ _ rfl _⟩, rfl⟩

/-- NATT is 3: with one failed attempt a retry follows, with two the attempts are used up. -/
theorem witness_SafetyTimeEndsTheAttempt :
    shot.power = .on ∧ SafeBurner shot ∧ shot.bs.tSafe = some 72000 ∧ LocksOut shot .ignitionFailure
      ∧ (after .tsafeExpiry shot).bs.attempts < sbNatt shot.st.safety
      ∧ (let s := { shot with bs := { shot.bs with attempts := 2 } };
        (after .tsafeExpiry s).bs.attempts = sbNatt s.st.safety) :=
  ⟨rfl, safe_shot, rfl, ⟨rfl, not_recorded _ _ rfl _⟩, by decide +kernel, by decide +kernel⟩

/-- STABILISE with a cycling record and a circuit, Ts at 515 and the flow at 480. -/
def stabilising (c : Cycle) (k : Circuit) : State :=
  let s := withBs { state := .stabilise, gas1 := true, gas2 := true, tStab := some 9 }
  { s with
    dm := { circuit := k, active := true, burn := k }, mp := { s.mp with pub := { flowCtl := some 480 } }
    mu := { s.mu with ceiling := some 660, ts := some 515, cyc := c } }

/-- The record INACTIVE with circuit DHW and CH, and in OFF_PHASE with a pending on length below Pc and of Pc. -/
theorem witness_StabiliseEndsInRun :
    (∀ c ∈ [({} : Cycle), { state := .offPhase, pendOn := 200, pendOff := 400 }, { state := .offPhase, pendOn := 600 }],
      ∀ k ∈ [Circuit.dhw, .ch], let s := stabilising c k
        s.power = .on ∧ SafeBurner s ∧ s.bs.tStab = some 9 ∧ s.mu.ceiling = some 660 ∧ s.mu.cyc = c ∧ s.dm.circuit = k
          ∧ s.mp.pub.flowCtl = some 480 ∧ s.mu.ts = some 515) := by
  unfold SafeBurner BurnerOk LockoutAgrees onlyIn; decide +kernel

/-- The preset of section 4.3's example: (300 - 140) × 100; and an on phase that begins at the restart with its 200 s. -/
theorem test_run_entry_presets_and_starts_the_on_phase :
    (after .tstabExpiry (stabilising {} .ch)).mu.iAcc = 16000
      ∧ (after .tstabExpiry (stabilising { state := .offPhase, pendOn := 200, pendOff := 400 } .ch)).mu.cyc.remain = 200000 := by
  decide +kernel

theorem witness_PostPurgeEndsInPreCheckOrStandby :
    let s := waiting .postPurge fun b => { b with tPost := some 9 }
    (s.power = .on ∧ s.bs.tPost = some 9 ∧ RelaysOpen s ∧ s.bs.state = .postPurge ∧ s.dm.active = false)
      ∧ (let s := { s with dm := burning.dm };
        RelaysOpen s ∧ s.dm.active = true ∧ s.inhibited = false ∧ s.bs.state = .postPurge) := by
  unfold RelaysOpen; decide +kernel

theorem witness_FalseFlameAndRelaysAreSupervised :
    let s := waiting .postPurge fun b => { b with falseFlame := some 9, postGas := some 9, mismatch1 := some 9, mismatch2 := some 9 }
    s.power = .on ∧ SafeBurner s ∧ s.bs.falseFlame = some 9 ∧ s.bs.postGas = some 9 ∧ LocksOut s .falseFlame
      ∧ s.mp.flame.present = false ∧ s.mayStart = false ∧ s.bs.mismatch .gas1 = some 9 ∧ s.bs.mismatch .gas2 = some 9
      ∧ LocksOut s .gasRelay ∧ (let s := { s with mp := { s.mp with flame := { present := true } } };
        s.mp.flame.present = true ∧ LocksOut s .falseFlame)
      ∧ op.mayStart = false ∧ true ≠ op.bs.gas1 ∧ op.bs.mark1 = false ∧ op.bs.mismatch1 = none
      ∧ true ≠ op.bs.gas2 ∧ op.bs.mark2 = false ∧ op.bs.mismatch2 = none
      ∧ (let s := { s with bs := { s.bs with tPost := some 9 }, dm := burning.dm, lines := { relay2Fb := true } };
        SafeBurner s ∧ s.bs.tPost = some 9 ∧ s.bs.state = .postPurge ∧ s.dm.active = true ∧ s.inhibited = false
          ∧ LocksOut s .gasRelay ∧ (s.lines.relay2Fb && !s.bs.mark2) = true) := by
  refine ⟨rfl, ?_, rfl, rfl, ⟨rfl, not_recorded _ _ rfl _⟩, rfl, by decide +kernel, rfl, rfl,
    ⟨rfl, not_recorded _ _ rfl _⟩, ⟨rfl, rfl, not_recorded _ _ rfl _⟩, rfl, ?_, rfl, rfl, ?_, rfl, rfl,
    ?_, rfl, rfl, rfl, ?_, ⟨rfl, not_recorded _ _ rfl _⟩, rfl⟩
  · unfold SafeBurner BurnerOk LockoutAgrees onlyIn; decide +kernel
  · decide
  · decide
  · unfold SafeBurner BurnerOk LockoutAgrees onlyIn; decide +kernel
  · decide +kernel

theorem witness_ZoneTimersEnd :
    (let s := { op with st := { op.st with counters := [600, 0, 0, 0, 0, 0, 0] } };
      s.power = .on ∧ s.dm.zones.length = 8 ∧ hasRoomUnit s.st.zones s.st.nodes 0 = true ∧ (s.zone 0).fallback = false
        ∧ 600 ≤ s.time - (s.zone 0).lastDemand) ∧
    let z : Zone := { valve := .opening, travel := some 9, desired := .opened, call := .call }
    let s := { op with dm := { op.dm with zones := z :: List.replicate 7 {} } }
    (s.power = .on ∧ s.dm.zones.length = 8 ∧ (s.zone 0).travel = some 9 ∧ zoneEndSwitch s.st.zones 0 = false
      ∧ (s.zone 0).valve = .opening ∧ (s.zone 0).desired = .opened ∧ zoneEnabled s.st.zones 0 = true
      ∧ (s.zone 0).call = .call ∧ setMode s.latch.settings = .winter ∧ s.mp.firstFrame = true
      ∧ s.dm.draw.state = .idle
      ∧ (let s := { s with bs := { state := .run, gas1 := true, gas2 := true }, dm := { s.dm with circuit := .frost } };
        (s.zone 0).travel = some 9 ∧ s.dm.circuit = .frost ∧ s.bs.state = .run))
    ∧ (let s := { s with st := { s.st with zones := splice s.st.zones 0 [7] } }
      (s.zone 0).travel = some 9 ∧ zoneEndSwitch s.st.zones 0 = true)
    ∧ (let c : Zone := { valve := .closing, travel := some 9, desired := .closed, call := .noCall }
      let s := { op with dm := { op.dm with zones := c :: List.replicate 7 {} } }
      s.power = .on ∧ s.dm.zones.length = 8 ∧ (s.zone 0).travel = some 9 ∧ zoneEndSwitch s.st.zones 0 = false
      ∧ (s.zone 0).valve = .closing ∧ (s.zone 0).desired = .closed ∧ (s.zone 0).call ≠ .call
      ∧ s.dm.frost = false) := by decide +kernel

/-- A draw record with its counts, and a DHW pulse ring that makes the coming frame's flow 20 with 6 pulses counted in it and 18 with 5. -/
def drawing (st : DrawState) (startRun endRun pulses : Nat) : State :=
  { op with
    dm := { op.dm with draw := { state := st, startRun := startRun, endRun := endRun } }
    mp := { op.mp with dhwRing := List.replicate 10 1, dhwCount := pulses } }

/-- R67 at its bounds: the third frame of 20 starts a draw and the fifth below 15 ends one; R70 and R56 at a cold flow and a silent zone. -/
theorem witness_DrawFrostAndCircuitFollowTheFrame :
    (op.power = .on ∧ setDhwEnabled op.st.settings = true ∧ setMode op.st.settings ≠ .off ∧ setDhwOverrun op.st.settings ≠ 0
      ∧ setDhwOverrun (splice op.st.settings 2 [0]) = 0 ∧ setFrostEnabled op.st.settings = true
      ∧ setDhwEnabled (splice op.st.settings 1 [0]) = false)
    ∧ (∀ st ∈ [DrawState.idle, .overrun], ∀ v ∈ [(1, 6, 20), (2, 6, 20), (2, 5, 18)],
        (after (.frameCompletion frame) (drawing st v.1 0 v.2.1)).mp.pub.q = v.2.2)
    ∧ (∀ v ∈ [(3, 2, 14), (4, 2, 14), (4, 3, 16)],
        (after (.frameCompletion frame) (drawing .active 0 v.1 v.2.1)).mp.pub.q = v.2.2)
    ∧ (let s := { op with st := { op.st with counters := [600, 0, 0, 0, 0, 0, 0] } };
      s.dm.zones.length = 8 ∧ hasRoomUnit s.st.zones s.st.nodes 0 = true ∧ (s.zone 0).fallback = false
        ∧ 600 ≤ s.time - (s.zone 0).lastDemand)
    ∧ (let t := after (.frameCompletion { frame with flowA := 3000, flowB := 3000 }) op;
      Value.lt t.mp.pub.flowCtl 70 = true ∧ t.dm.draw.state ≠ .active ∧ t.dm.circuit = .frost)
    ∧ (after (.frameCompletion frame) (drawing .idle 2 0 6)).dm.draw.state = .active
    ∧ ((after (.frameCompletion frame) targetState).zone 1).valve = .opened := by decide +kernel

theorem witness_DrawEndsAndTheDiverterTravels :
    (let s := { op with dm := { op.dm with draw := { state := .overrun, overrun := some 9 }, diverter := { state := .atDhw } } };
      s.power = .on ∧ s.dm.draw.overrun = some 9 ∧ s.dm.diverter.state = .atDhw)
    ∧ (let s := { op with dm := { op.dm with diverter := { state := .toDhw } } };
      s.dm.diverter.state = .toDhw ∧ s.mayStart = false)
    ∧ (op.dm.diverter.state = .toCh ∧ op.mayStart = false) := by decide +kernel

theorem witness_AntiCycleEndsAndTheBurnerMayStart :
    (let s := { op with
        bs := { op.bs with inhibit := { startUp := false, antiCycle := true } }
        dm := { burning.dm with antiCycle := some 9 } };
      s.power = .on ∧ s.dm.antiCycle = some 9 ∧ s.mayStart = false ∧ RelaysOpen s ∧ s.bs.state = .standby
        ∧ s.dm.active = true ∧ s.bs.inhibit.blocking = false ∧ s.bs.inhibit.commitHold = false
        ∧ s.bs.inhibit.startUp = false)
    ∧ (let s := { op with dm := { op.dm with antiCycle := some 9 } };
      s.mayStart = false ∧ RelaysOpen s ∧ s.dm.active = false) := by unfold RelaysOpen; decide +kernel

theorem witness_CyclePhasesWithdrawAndReleaseTheRequest :
    (let s := { burning with mu := { cyc := { state := .onPhase, onLen := 240, offLen := 360, remain := 100 } } };
      s.power = .on ∧ s.dm.circuit = .ch ∧ s.mu.cyc.state = .onPhase ∧ s.dm.active = true ∧ s.bs.state = .run)
    ∧ (let s := { op with
        dm := { circuit := .ch, offPhase := true }
        mu := { cyc := { state := .offPhase, onLen := 240, offLen := 360, remain := 100 } } };
      s.dm.circuit = .ch ∧ s.mu.cyc.state = .offPhase ∧ 0 < s.mu.cyc.remain ∧ s.dm.chStop = false ∧ s.dm.active = false
        ∧ RelaysOpen s ∧ s.bs.state = .standby ∧ s.inhibited = false) := by unfold RelaysOpen; decide +kernel

/-- A heating frame in RUN with its integrator at 0, at work and at the ceiling; one without a flow; a draw, frost and no circuit. -/
theorem witness_FlowTargetAndRawOutputFollowTheFrame :
    targetState.power = .on
    ∧ (∀ i ∈ [0, 15000, 100000], let s := { targetState with mu := { targetState.mu with iAcc := i } }
        let t := after (.frameCompletion frame) s
        t.dm.circuit = .ch ∧ t.bs.state = .run ∧ s.dm.circuit = .ch ∧ t.mp.pub.flowCtl = some 460
          ∧ t.mu.ts = some 550 ∧ t.mu.ceiling.isSome = true ∧ s.mu.cyc.state ≠ .offPhase)
    ∧ (let t := after (.frameCompletion { frame with flowA := 20, flowB := 20 }) targetState
      t.mp.pub.flowCtl = none ∧ t.dm.circuit = .ch)
    ∧ (let t := after (.frameCompletion frame) (drawing .active 0 0 6); t.dm.circuit = .dhw ∧ t.prated ≠ 0)
    ∧ (after (.frameCompletion { frame with flowA := 3000, flowB := 3000 }) op).dm.circuit = .frost
    ∧ (after (.frameCompletion frame) op).dm.circuit = .none := by decide +kernel

theorem witness_OutputRisesByTwentyAtMost : targetState.bs.state = .run := rfl

theorem witness_DeliveredOutputKeepsFloorAndCeiling :
    targetState.power = .on ∧ (let t := after (.frameCompletion frame) targetState
      t.bs.state = .run ∧ t.dm.active = true ∧ t.dm.circuit ≠ .none) := by decide +kernel

/-- FAN_NO_SPEED with an escalation count of 2 within 24 h and its history flag: no raising before, and one before on record. -/
def purgeFails : State :=
  let s := waiting .prePurge fun b => { b with purgeLimit := some 9 }
  { s with st := { s.st with
      counters := [50000, 0, 0, 0, 0, 0, 0]
      faultCodes := splice s.st.faultCodes 40 (put16 (110 + 1024) ++ [2, 152]) } }

theorem witness_RaisingsEscalateAndEnterTheHistory :
    ∀ v ∈ [[], [⟨.fanNoSpeed, 63, .blocking, 1, 40000, 40000⟩]],
      let s := { purgeFails with fm := { active := v, esc := List.replicate 10 [] ++ [v.map fun r => r.last] ++ List.replicate 15 [] } }
      s.power = .on ∧ SafeBurner s ∧ s.bs.purgeLimit = some 9 ∧ RelaysOpen s ∧ s.fm.esc.length = 26 ∧ s.fm.ring.length = 32
        ∧ s.fm.nextSlot < 32 ∧ s.fm.rePages.length = 8 ∧ s.newClass .fanNoSpeed ≠ .lockout
        ∧ s.record .fanNoSpeed = v[0]? ∧ 0 < fcCount s.st.faultCodes .fanNoSpeed
        ∧ (fcCount s.st.faultCodes .fanNoSpeed
            ≤ ((escAdd s.time (s.fm.esc.getD 10 [])).filter
              (withinLast s.time (3600 * fcWindow s.st.faultCodes .fanNoSpeed))).length ↔ v ≠ []) := by
  unfold SafeBurner BurnerOk LockoutAgrees onlyIn RelaysOpen; decide +kernel

/-- Opening a relay mismatch changes the list; a power-on second does not; a request writes FAULTCODES. -/
theorem witness_LeadFaultIsDeterminedAtEveryChange :
    (let s := { op with bs := { op.bs with mismatch2 := some 9 } }
      let t := after (.mismatchTimerExpiry .gas2) s
      exec (.mismatchTimerExpiry .gas2) s = .next t ∧ familyOf (.mismatchTimerExpiry .gas2) ≠ .power
        ∧ t.st.faultCodes = s.st.faultCodes
        ∧ (t.fm.active.map fun r => (r.source, r.cls)) ≠ (s.fm.active.map fun r => (r.source, r.cls)))
    ∧ (Requests op 15 ∧ op.pe.round.inFlight = none ∧ op.mayStart = false)
    ∧ (let s := bus id .awaiting
      Requests s 15 ∧ (s.nodeLive 15).presence ≠ .absent ∧ s.zp.busFault = false ∧ RelaysOpen s) := by
  refine ⟨⟨rfl, ?_, ?_, ?_⟩, ?_, ?_⟩ <;> first | decide +kernel | ((try unfold RelaysOpen); unfold Requests; decide +kernel)

/-- A timer due at 60 s: at 60 s it has come due, at 59 s it has not. -/
theorem witness_BlockingTimerRemovesItsRecord :
    let s := { op with
      fm := { active := [⟨.fanNoSpeed, 63, .blocking, 1, 0, 0⟩], blockNoSpeed := some 60 }
      st := { op.st with counters := [60, 0, 0, 0, 0, 0, 0] } }
    (s.power = .on ∧ s.fm.blockTimer .fanNoSpeed = some 60 ∧ 60 ≤ s.time
      ∧ s.record .fanNoSpeed = some ⟨.fanNoSpeed, 63, .blocking, 1, 0, 0⟩
      ∧ ∀ q ∈ s.fm.active, q.source ≠ .fanNoSpeed → q.cls ≠ .blocking)
    ∧ (let s := { s with st := { s.st with counters := [59, 0, 0, 0, 0, 0, 0] } };
      s.time < 60 ∧ s.mayStart = false)
    ∧ (let s := { s with fm := { s.fm with active := [⟨.fanNoSpeed, 63, .lockout, 1, 0, 0⟩] } };
      s.record .fanNoSpeed = some ⟨.fanNoSpeed, 63, .lockout, 1, 0, 0⟩ ∧ s.mayStart = false) := by decide +kernel

theorem witness_ResetInPressIsADisplayReset :
    (op.power = .on ∧ op.lines.resetLow = false ∧ op.mayStart = false)
    ∧ (let s := { op with lines := { resetLow := true } };
      s.lines.resetLow = true ∧ s.mayStart = false)
    ∧ (let s := { locked with fm := { locked.fm with press := some 9 } };
      s.fm.press = some 9 ∧ s.bs.state = .lockout ∧ ResetResult s .display .accepted) := by
  unfold ResetResult; decide +kernel

/-- At 899 s the next second is a multiple of 900. -/
theorem witness_SecondsAreCounted :
    let s := { burning with st := { burning.st with counters := [899, 0, 0, 0, 0, 0, 0] } }
    s.power = .on ∧ s.st.counters.length = 7 ∧ (s.bs.state = .stabilise ∨ s.bs.state = .run)
      ∧ s.dm.circuit.heating = true ∧ (after .powerOnSecond s).time % 900 = 0 ∧ op.pumpEn = false
      ∧ op.bs.state ≠ .stabilise ∧ op.bs.state ≠ .run := by decide +kernel

theorem witness_RoundsStartWithThePortReady :
    (let s := { op with zp := { port := .settling, settle := some 9 }, pe := { round := { period := some 50 } } };
      s.power = .on ∧ s.zp.settle = some 9 ∧ s.pe.round.state = .idle ∧ s.pe.round.period ≠ none)
    ∧ (let s := { op with zp := { port := .settling, settle := some 9 }, pe := { round := { state := .waitingPort } } };
      s.zp.settle = some 9 ∧ s.pe.round.state = .waitingPort ∧ s.mg.restart = false)
    ∧ (let s := { op with zp := { port := .settling, settle := some 9 }, pe := {} };
      s.zp.settle = some 9 ∧ s.pe.round.state = .idle ∧ s.pe.round.period = none ∧ s.mg.restart = false)
    ∧ (let s := { op with pe := { op.pe with round := { period := some 9 } } };
      s.pe.round.period = some 9 ∧ s.pe.round.state = .idle ∧ s.pe.portReady = true ∧ s.mg.restart = false)
    ∧ (let s := { op with pe := { round := { period := some 9 } } };
      s.pe.round.period = some 9 ∧ s.pe.portReady = false ∧ s.mayStart = false) := by decide +kernel

theorem witness_TheLineIsCheckedAndHoldsTheBitTimer :
    InExchange (bus id .lineCheck) (exch .lineCheck) .servicePoll .lineCheck ∧ (bus id .lineCheck).dm.zones.length = 8
      ∧ (bus id .lineCheck).lines.busDominant = false ∧ (bus id .lineCheck).mayStart = false
      ∧ (bus id .lineCheck).mg.slot.state ≠ .fetching ∧ (bus id .lineCheck).inPhase .closing = false
      ∧ (let s := { bus id .lineCheck with mg := { op.mg with slot := { state := .fetching, target := 2 } } };
        InExchange s (exch .lineCheck) .servicePoll .lineCheck ∧ s.mg.slot.state = .fetching)
      ∧ (let s := { bus id .lineCheck with lines := { busDominant := true } };
        InExchange s (exch .lineCheck) .servicePoll .lineCheck ∧ s.lines.busDominant = true)
      ∧ (let s := bus id .sending;
      InExchange s (exch .sending) .servicePoll .sending ∧ s.busSupply = true ∧ s.lines.busDominant = false
        ∧ (exch .sending).hold = none)
    ∧ (let s := { bus (fun x => { x with hold := some 1010 }) .sending with lines := { busDominant := true } };
      InExchange s { exch .sending with hold := some 1010 } .servicePoll .sending ∧ s.busSupply = true
        ∧ s.lines.busDominant = true ∧ 1010 ≤ s.clock.now + 10 ∧ s.clock.now + 9 < 1010)
    ∧ (op.power = .on ∧ op.mayStart = false ∧ op.zp.exch = none) := by unfold InExchange; decide +kernel

theorem witness_RequestIsSentOrStretched :
    InExchange (bus id .sending) (exch .sending) .servicePoll .sending ∧ (exch .sending).hold = none
      ∧ InExchange (bus (fun x => { x with hold := some 800 }) .sending) { exch .sending with hold := some 800 }
        .servicePoll .sending := by unfold InExchange; decide +kernel

theorem witness_RepliesAreAssembledByteByByte :
    (let x := { exch .awaiting with reply := some 1400 };
      let s := bus (fun x => { x with reply := some 1400 }) .awaiting;
      InExchange s x .servicePoll .awaiting ∧ (∀ e, x.reply = some e → s.clock.now + 450 - 10 * Config.tBit ≤ e)
        ∧ (x.reply = none → x.replyExpired = true))
    ∧ (let s := bus id .receiving;
      InExchange s (exch .receiving) .servicePoll .receiving ∧ s.zp.checkDue = false
        ∧ ¬(s.zp.rx.length = 3 ∧ 16 < (16 : Byte).toNat))
    ∧ (let s := { bus id .receiving with zp := { (bus id .receiving).zp with rx := [0, 15, 0x20] } };
      InExchange s (exch .receiving) .servicePoll .receiving ∧ s.zp.checkDue = false ∧ s.zp.rx.length = 3
        ∧ 16 < (17 : Byte).toNat) := by
  refine ⟨⟨by unfold InExchange; decide +kernel, ?_, by decide +kernel⟩, by unfold InExchange; decide +kernel,
    by unfold InExchange; decide +kernel⟩
  intro e h; cases h; decide +kernel

theorem witness_BrokenRepliesFailTheExchange :
    (InExchange (bus (fun x => { x with reply := some 1400 }) .awaiting) { exch .awaiting with reply := some 1400 }
        .servicePoll .awaiting ∧ (bus id .awaiting).lines.busDominant = false)
    ∧ (let s := { bus (fun x => { x with reply := some 1400 }) .awaiting with lines := { busDominant := true } };
      InExchange s { exch .awaiting with reply := some 1400 } .servicePoll .awaiting ∧ s.lines.busDominant = true)
    ∧ InExchange (bus (fun x => { x with rxMax := some 4000 }) .receiving) { exch .receiving with rxMax := some 4000 }
        .servicePoll .receiving
    ∧ (let s := { bus id .receiving with zp := { (bus id .receiving).zp with rx := [0, 14, 0x20, 0], rxCheck := 5 } };
      InExchange s (exch .receiving) .servicePoll .receiving ∧ s.zp.checkDue = true ∧ (4 : Byte) ≠ s.zp.rxCheck
        ∧ (5 : Byte) = s.zp.rxCheck ∧ u8 s.zp.rx 1 ≠ (exch .receiving).node)
    ∧ InExchange (bus id .receiving) (exch .receiving) .servicePoll .receiving
    ∧ (∀ c ∈ [FramingCause.stopBitDominant, .idleBreak, .lengthAbove16 17, .overlongRun], framingOk c = true) := by unfold InExchange; decide +kernel

/-- The default POLL's DEMAND_QUERY of node 2, the default room unit of zone 0, and the exchange for it. -/
def demandEntry : PollEntry := ⟨2, 1, .demandQuery, false, false, false, 0⟩
def demandExch : Exchange :=
  { node := 2, kind := PollKind.demandQuery.request, replies := PollKind.demandQuery.replies, phase := .receiving, out := [] }

/-- Its DEMAND received up to the check byte: status OK, setpoint 215, room temperature 200, call flag set. -/
def demandState : State :=
  { op with
    zp := { port := .exchange, exch := some demandExch, rx := [0, 2, byte kindDemand, 6, 0, 215, 0, 200, 0, 1], rxCheck := 9 }
    pe := { portReady := true, round := { state := .running, inFlight := some .entry, cur := some ⟨0, demandEntry, [], 0, false⟩ } } }

theorem witness_GoodRepliesAreDelivered :
    InExchange demandState demandExch .entry .receiving ∧ demandState.zp.checkDue = true ∧ u8 demandState.zp.rx 0 = 0
      ∧ u8 demandState.zp.rx 1 = 2 ∧ demandExch.replies.contains (u8 demandState.zp.rx 2) = true
      ∧ u8 demandState.zp.rx 2 ≠ kindMgmtRequest ∧ demandState.dm.zones.length = 8
      ∧ replyBusy (u8 demandState.zp.rx 2) (demandState.zp.rx.drop 4) = false ∧ demandState.kindOf 2 = .roomUnit
      ∧ nodeZone demandState.st.nodes 2 = 0 ∧ zoneEnabled demandState.st.zones 0 = true
      ∧ receivedTemp (demandState.zp.rx.drop 4) 3 = some 200 ∧ clamp 50 300 (s16 (demandState.zp.rx.drop 4) 1) = 215
      ∧ (∀ v ∈ [(203, CallState.call), (204, .noCall), (205, .noCall), (207, .noCall)], ∀ old ∈ [CallState.unknown, .noCall],
        let s := { demandState with
          zp := { demandState.zp with rx := [0, 2, byte kindDemand, 6, 0, byte (v.1 + 3), 0, 203, 0, 0] }
          dm := { op.dm with zones := { call := old } :: List.replicate 7 {} } }
        InExchange s demandExch .entry .receiving ∧ s.zp.checkDue = true ∧ (s.zone 0).fallback = false) := by
  unfold InExchange; decide +kernel

/-- R161: setpoint 215 and room temperature 200 reach zone 0. -/
theorem test_demand_is_delivered :
    ((after (.replyReceived 9 0) demandState).zone 0).setpoint = 215
      ∧ ((after (.replyReceived 9 0) demandState).zone 0).temp = some 200 := by decide +kernel

/-- Zone 0 with node 4 as its valve node at channel 1 and an end switch, its call set, and the exchange with that node. -/
def valveState (v : ValveState) (p : Position) (c : CallState) : State :=
  { op with
    dm := { op.dm with zones := { valve := v, desired := p, call := c } :: List.replicate 7 {} }
    st := { op.st with zones := splice op.st.zones 0 [7, 4, 1] } }
def valveExch (kind reply : Nat) (p : Phase) : Exchange :=
  { node := 4, kind := kind, replies := [reply], phase := p, out := [], reply := some 1400 }
def valveBus (s : State) (f : InFlight) (x : Exchange) (rx : List Byte) : State :=
  { s with
    zp := { port := .exchange, exch := some x, rx := rx }
    pe := { portReady := true
            round := { state := .running, inFlight := some f, cur := some ⟨0, ⟨4, 1, .valveQuery, false, false, false, 0⟩, [], 0, false⟩ } } }

theorem witness_ValveCommandsAreSentAndTheirResultsTaken :
    (let s := { valveState .opening .opened .call with
        pe := { portReady := true, urgent := [{ item := .valve 0 .opened }], round := { period := some 9 } } };
      s.power = .on ∧ s.dm.zones.length = 8 ∧ s.hasValve 0 = true ∧ s.pe.round.period = some 9
        ∧ s.pe.round.state = .idle ∧ s.pe.portReady = true ∧ s.mg.restart = false
        ∧ s.pe.urgent.head? = some { item := .valve 0 .opened }
        ∧ dueIn ((s.pe.round.number + 1) % 4294967296) (pollEntry s.st.poll 0) = true)
    ∧ (∀ st ∈ [(0 : Byte), 1],
        let x := valveExch kindValveCommand kindAck .receiving
        let s := valveBus (valveState .opening .opened .call) (.valve 0 .opened) x [0, 4, byte kindAck, 1, st]
        InExchange s x (.valve 0 .opened) .receiving ∧ s.zp.checkDue = true ∧ u8 s.zp.rx 0 = 0 ∧ u8 s.zp.rx 1 = x.node
          ∧ u8 s.zp.rx 2 = kindAck ∧ x.replies = [kindAck] ∧ replyBusy kindAck (s.zp.rx.drop 4) = (st == 1)
          ∧ s.selected = s.dm.circuit ∧ (s.zone 0).desired = .opened ∧ (s.zone 0).valve = .opening
          ∧ s.desiredOf 0 = .opened)
    ∧ (let x := valveExch kindValveCommand kindAck .awaiting
        let s := valveBus (valveState .opening .opened .call) (.valve 0 .opened) x []
        InExchange s x (.valve 0 .opened) .awaiting ∧ x.reply = some 1400 ∧ s.lines.busDominant = false)
    ∧ ∀ v ∈ [(ValveState.opening, Position.opened, CallState.call, (1 : Byte)), (.closing, .closed, .noCall, 2)],
        let x := valveExch PollKind.valveQuery.request kindValveState .receiving
        let s := valveBus (valveState v.1 v.2.1 v.2.2.1) .entry x [0, 4, byte kindValveState, 2, 0, v.2.2.2]
        let s := { s with dm := { s.dm with zones := (s.dm.zones.map fun z => { z with ack := true }) } }
        InExchange s x .entry .receiving ∧ s.zp.checkDue = true ∧ u8 s.zp.rx 1 = x.node
          ∧ u8 s.zp.rx 2 = kindValveState ∧ zoneEndSwitch s.st.zones 0 = true ∧ zoneValveNode s.st.zones 0 = x.node
          ∧ replyBusy kindValveState (s.zp.rx.drop 4) = false ∧ (s.zone 0).ack = true
          ∧ u8 (s.zp.rx.drop 4) 1 = v.2.2.2.toNat ∧ (s.zone 0).valve = v.1 ∧ (s.zone 0).desired = v.2.1
          ∧ zoneEnabled s.st.zones 0 = true ∧ setMode s.latch.settings = .winter ∧ s.dm.frost = false := by
  unfold InExchange; refine ⟨?_, ?_, ?_, ?_⟩ <;> decide +kernel

theorem witness_ClosingOutcomeEndsTheExchange :
    InExchange (bus id .closing) (exch .closing) .servicePoll .closing ∧ (exch .closing).hold = none
      ∧ InExchange (bus (fun x => { x with hold := some 800 }) .closing) { exch .closing with hold := some 800 }
        .servicePoll .closing := by unfold InExchange; decide +kernel

theorem witness_SupplyIsSwitchedOnAndOff :
    (let s := { op with zp := { port := .clearing, clear := some 9 } };
      s.power = .on ∧ s.dm.zones.length = 8 ∧ s.zp.clear = some 9)
    ∧ (let s := { op with zp := { port := .fault, fault := some 9 } };
      s.zp.fault = some 9 ∧ s.busSupply = false ∧ s.mayStart = false)
    ∧ op.busSupply = true ∧ op.zp.exch = none ∧ op.mg.slot.state ≠ .fetching ∧ op.inPhase .closing = false
    ∧ (let s := { op with mg := { op.mg with slot := { state := .fetching, target := 2 } } };
      s.busSupply = true ∧ s.mg.slot.state = .fetching)
    ∧ (bus id .closing).busSupply = true ∧ (bus id .closing).zp.exch = some (exch .closing) := by decide +kernel

/-- A request of the service tool at address 15, with no poll in flight and in its management poll; and one of an address without rights. -/
theorem requests_of_node_15 :
    Requests op 15 ∧ Requests (bus id .awaiting) 15 ∧ op.rightsOf 15 = .service ∧ Requests op 3 ∧ op.rightsOf 3 = .none
      ∧ Requests op 1 ∧ op.rightsOf 1 = .display ∧ Requests op 2 ∧ op.rightsOf 2 = .room := by
  unfold Requests; decide +kernel

theorem witness_ReadsAnswerAndChangeNoTable :
    Requests op 15 ∧ op.rightsOf 15 ≠ .none ∧ entryAt 0 20 = some (30, 2) ∧ entryAt 0 21 = none
      ∧ groupIndexOk 12 0 = true ∧ groupIndexOk 0 15 = false ∧ op.rightsOf 3 = .none
      ∧ (locked.fm.active[0]?).isSome = true ∧ locked.fm.active[1]? = none
      ∧ op.pe.round.inFlight = none ∧ op.mayStart = false
      ∧ (bus id .awaiting).zp.exch = some (exch .awaiting) ∧ (bus id .awaiting).pe.round.inFlight ≠ none := by
  refine ⟨requests_of_node_15.1, ?_⟩; decide +kernel

/-- Entry 2 of SETTINGS, the DHW overrun time: 20 is taken as it is; the rights of a room unit do not suffice. -/
theorem witness_WritesReachTheLiveImage :
    Requests op 15 ∧ (0 : Byte).toNat ≤ 5 ∧ writeRank 0 ≤ (op.rightsOf 15).rank ∧ (op.rightsOf 3).rank < writeRank 0
      ∧ op.rightsOf 3 = .none ∧ entryAt 0 21 = none ∧ entryAt 0 2 = some (2, 1) ∧ 1 ≤ [(20 : Byte)].length
      ∧ op.checkWrite 0 2 [20] = some ([20], false) ∧ ([20] : List Byte) ≠ op.entryBytes 0 (2, 1)
      ∧ op.checkWrite 0 2 [10] = some ([10], false) ∧ ([10] : List Byte) = op.entryBytes 0 (2, 1)
      ∧ op.checkWrite 0 0 [3] = none ∧ op.canTake (entryPage 0 2) = true
      ∧ (let s := { op with st := { op.st with jobs := (List.range 16).map fun i => ⟨12 + i, false⟩ } };
        s.canTake (entryPage 0 2) = false) := by
  refine ⟨requests_of_node_15.1, ?_⟩; decide +kernel

/-- No data for an entry of one byte. -/
theorem witness_WritesReachTheLiveImage_short :
    Requests op 15 ∧ op.rightsOf 15 ≠ .none ∧ entryAt 0 2 = some (2, 1) ∧ ([] : List Byte).length < 1
      ∧ entryAt 0 2 ≠ none := by
  refine ⟨requests_of_node_15.1, ?_⟩; decide +kernel

theorem witness_CountersAreZeroedAndStagingIsWritten :
    Requests op 15 ∧ op.rightsOf 15 = .service ∧ op.st.counters.length = 7 ∧ 4 ≤ [(0 : Byte), 0, 0, 0].length
      ∧ 1 ≤ (1 : Byte).toNat ∧ (6 : Byte).toNat ≤ 6 ∧ u32 [0, 0, 0, 0] 0 = 0 ∧ op.canTake 10 = true
      ∧ 7 ≤ (7 : Byte).toNat ∧ u32 [1, 0, 0, 0] 0 ≠ 0 ∧ entryAt 7 49 = some (152, 4) ∧ entryAt 7 50 = some (254, 2)
      ∧ op.rightsOf 1 ≠ .service ∧ entryAt 6 6 = some (12, 2) ∧ entryAt 8 0 = some (0, 2)
      ∧ op.mg.commit ≠ .committing
      ∧ ({ op.mg with commit := .committing } : Mg).commit = .committing := by
  refine ⟨requests_of_node_15.1, ?_⟩; decide +kernel

theorem witness_CommitIsCheckedAndQueued :
    Requests op 15 ∧ op.rightsOf 15 = .service ∧ op.rightsOf 1 ≠ .service ∧ op.mg.commit ≠ .committing
      ∧ (requestState 15 op).bs.state = .standby ∧ firstBad op.mg.staging = none ∧ 8 ≤ op.freePlaces
      ∧ blockCrc op.mg.staging = blockCrc op.mg.staging ∧ op.st.write = none ∧ op.st.lockJob = false ∧ op.st.jobs = []
      ∧ firstBad (splice block 12 [0, 0]) = some 6
      ∧ (let s := { op with st := { op.st with jobs := (List.range 9).map fun i => ⟨12 + i, false⟩ } };
        s.freePlaces < 8) := by
  refine ⟨requests_of_node_15.1, ?_, ?_, ?_, ?_, ?_, ?_, rfl, ?_⟩ <;> decide +kernel

/-- A reset for each row of R121: accepted, already pending, five resets within 900 s, an overheat still present, and no lockout. -/
theorem witness_LockoutResetFollowsItsTable :
    Requests locked 15 ∧ locked.rightsOf 15 = .service ∧ locked.rightsOf 1 = .display ∧ locked.bs.state = .lockout
      ∧ ResetResult (requestState 15 locked) .service .accepted
      ∧ ResetResult (requestState 15 { locked with fm := { locked.fm with lockout := { state := .resetPending } } })
          .service .resetPending
      ∧ ResetResult (requestState 1 { locked with fm := { locked.fm with resets := [0, 0, 0, 0, 0] } }) .display .budget
      ∧ ResetResult (requestState 15 { locked with
          bs := { locked.bs with overheatMark := true }
          fm := { locked.fm with active := [⟨.overheat, 63, .lockout, 1, 0, 0⟩] } }) .service .condition
      ∧ RelaysOpen op ∧ ResetResult (requestState 15 op) .service .notLocked
      ∧ op.rightsOf 3 = .none := by
  and_intros <;> first | decide +kernel | (unfold ResetResult; decide +kernel)

theorem witness_ProxySlotFetchesHoldsAndEmpties :
    Requests op 15 ∧ 2 ≤ (op.rightsOf 15).rank ∧ 1 ≤ (1 : Byte).toNat ∧ (15 : Byte).toNat ≤ 15
      ∧ op.rightsOf 3 = .none ∧ op.rightsOf 2 = .room ∧ 15 < (16 : Byte).toNat
      ∧ op.mg.slot.state = .empty ∧ (op.pe.urgent.all fun u => u.high) = true
      ∧ (let s : Slot := { state := .fetching, target := 1, item := 4 };
        s.state = .fetching ∧ s.target = (1 : Byte).toNat ∧ s.item = (4 : Byte).toNat)
      ∧ (let s := { op with mg := { op.mg with slot := { state := .ready, target := 1, item := 4, hold := some 9 } } };
        s.mg.slot.state = .ready ∧ s.mg.slot.hold = some 9 ∧ s.mg.slot.item ≠ (5 : Byte).toNat) := by
  refine ⟨requests_of_node_15.1, ?_⟩; decide +kernel

/-- Eight jobs wait: the eight of the history pages still fit; with nine they do not. -/
theorem witness_ClearHistoryEmptiesTheRing :
    let s := { op with st := { op.st with jobs := (List.range 8).map fun i => ⟨12 + i, false⟩ } }
    let v := { op with st := { op.st with jobs := (List.range 9).map fun i => ⟨12 + i, false⟩ } }
    Requests s 15 ∧ RelaysOpen s ∧ QueueFits s ∧ s.rightsOf 15 = .service ∧ s.rightsOf 2 ≠ .service
      ∧ (historyPages.filter fun p => !s.jobWaiting p).length + s.st.jobs.length ≤ 16
      ∧ 16 < (historyPages.filter fun p => !v.jobWaiting p).length + v.st.jobs.length := by
  unfold Requests RelaysOpen QueueFits; decide +kernel

theorem witness_RestartWaitsForTheStore :
    Requests op 15 ∧ op.rightsOf 15 = .service ∧ op.rightsOf 1 ≠ .service ∧ (requestState 15 op).bs.state = .standby
      ∧ Requests burning 15 ∧ (requestState 15 burning).bs.state ≠ .standby ∧ (requestState 15 burning).bs.state ≠ .lockout
      ∧ (let s := { op with mg := { op.mg with restart := true } };
        let w : Write := ⟨11, defaultSettings, 1, 9, false, false, 0, .none⟩;
        s.power = .on ∧ s.mg.restart = true ∧ s.inPhase .closing = false ∧ s.st.write = none ∧ s.st.jobs = []
          ∧ s.st.lockJob = false
          ∧ ({ s with st := { s.st with write := some w } } : State).st.write ≠ none
          ∧ ({ s with st := { s.st with jobs := [⟨11, false⟩] } } : State).st.jobs ≠ []
          ∧ ({ s with st := { s.st with lockJob := true } } : State).st.lockJob = true)
      ∧ op.mg.restart = false
      ∧ (let s := { bus id .closing with mg := { op.mg with restart := true } };
        s.power = .on ∧ s.mg.restart = true ∧ s.inPhase .closing = true) := by unfold Requests; decide +kernel

theorem witness_PageWritesEndInTheStore :
    let w : Write := ⟨7, slice block 224 32, 1, 9, true, false, 0, .none⟩
    let s := { op with st := { op.st with write := some w } }
    s.power = .on ∧ s.st.write = some w ∧ s.nv.wf = true ∧ w.copy.length = 32 ∧ w.commit = true ∧ w.page = 7
      ∧ w.attempt < 2 ∧ s.mayStart = false ∧ 2 ≤ ({ w with attempt := 2 } : Write).attempt := by
  refine ⟨rfl, rfl, by decide +kernel, by decide +kernel, rfl, rfl, by decide, by decide +kernel, by decide⟩

theorem witness_ResetCompletionLeavesLockout :
    let w : Write := ⟨8, pad32 [0], 1, 9, false, false, 0, .none⟩
    let s := { locked with
      fm := { locked.fm with lockout := { state := .resetPending } }, st := { locked.st with write := some w } }
    s.power = .on ∧ s.st.write = some w ∧ w.page = 8 ∧ w.carried = .none ∧ w.commit = false
      ∧ s.fm.lockout.state = .resetPending ∧ SafeBurner s ∧ RelaysOpen s := by
  refine ⟨rfl, rfl, rfl, rfl, rfl, rfl, ?_, rfl, rfl⟩
  unfold SafeBurner BurnerOk LockoutAgrees onlyIn; decide +kernel

end Sys2Proof.Tests
end

/-! SUPPORT. TSAFE_EXPIRY (R33): what the operations of the burner sequencer leave of the attempt count, the counters and the fault manager, what a raising that locks out leads to (R48, R111, R118), and the statement assembled from them. -/

namespace Sys2Proof.Machine

/-! ### What the burner sequencer leaves alone -/

/-- The attempt count, the counters and the fault manager: what no change of burner state alters. -/
def State.tally (s : State) : Nat × List Nat × Fm := (s.bs.attempts, s.st.counters, s.fm)

theorem tally_fields {s t : State} (h : t.tally = s.tally) :
    t.bs.attempts = s.bs.attempts ∧ t.st.counters = s.st.counters ∧ t.fm = s.fm := by
  simpa [State.tally] using h

section
variable (s : State)
@[simp] theorem State.onDm_tally (f : Dm → Dm) : (s.onDm f).tally = s.tally := rfl
@[simp] theorem State.onMu_tally (f : Mu → Mu) : (s.onMu f).tally = s.tally := rfl
@[simp] theorem State.onBs_tally (f : Bs → Bs) (h : ∀ b, (f b).attempts = b.attempts) : (s.onBs f).tally = s.tally := by
  simp [State.tally, h]
@[simp] theorem State.setAntiCycle_tally (v : Bool) : (s.setAntiCycle v).tally = s.tally := rfl
@[simp] theorem setFanTarget_tally (n : Nat) : (setFanTarget n s).tally = s.tally := rfl
@[simp] theorem cycleInactive_tally : (cycleInactive s).tally = s.tally := rfl
@[simp] theorem onPhaseStart_tally : (onPhaseStart s).tally = s.tally := rfl
@[simp] theorem entryOutput_tally (u : Nat) : (entryOutput u s).tally = s.tally := rfl
@[simp] theorem muStabiliseEntry_tally : (muStabiliseEntry s).tally = s.tally := rfl
@[simp] theorem pumpOverrunStart_tally : (pumpOverrunStart s).tally = s.tally := rfl
end

@[simp] theorem muPreset_tally (u : Nat) (s : State) : (muPreset u s).tally = s.tally := by
  simp only [muPreset]
  split <;> rfl

@[simp] theorem muRunEntry_tally (s : State) : (muRunEntry s).tally = s.tally := by
  simp only [muRunEntry]
  repeat' split
  all_goals simp

@[simp] theorem muReturn_tally (s : State) : (muReturn s).tally = s.tally := by
  simp only [muReturn]
  split <;> simp

@[simp] theorem muLockout_tally (s : State) : (muLockout s).tally = s.tally := by
  simp only [muLockout]
  split <;> simp

@[simp] theorem setMismatch_tally (r : Relay) (t : Timer) (m : Bool) (s : State) :
    (setMismatch r t m s).tally = s.tally := by
  cases r <;> rfl

@[simp] theorem mismatchSync_tally (r : Relay) (s : State) : (mismatchSync r s).tally = s.tally := by
  simp only [mismatchSync]
  repeat' split
  all_goals simp

@[simp] theorem safeOff_tally (s : State) : (safeOff s).tally = s.tally := by
  simp only [safeOff, relaySync]
  split <;> simp

@[simp] theorem antiCycleStart_tally (s : State) : (antiCycleStart s).tally = s.tally := by
  simp only [antiCycleStart]
  split <;> simp

@[simp] theorem dmDeparture_tally (c : Cause) (o : Bool) (s : State) : (dmDeparture c o s).tally = s.tally := by
  simp only [dmDeparture]
  repeat' split
  all_goals simp

@[simp] theorem dmFiring_tally (s : State) : (dmFiring s).tally = s.tally := by
  simp only [dmFiring]
  split <;> simp

@[simp] theorem bsReport_tally (w : Bool) (c : Cause) (o : Bool) (s : State) : (bsReport w c o s).tally = s.tally := by
  simp only [bsReport]
  repeat' split
  all_goals simp

@[simp] theorem bsMove_tally (st : BurnerState) (c : Cause) (o : Bool) (s : State) :
    (bsMove st c o s).tally = s.tally := by
  simp only [bsMove, bsReport_tally]
  split <;> simp [stopPhase]

@[simp] theorem toPostPurge_tally (c : Cause) (o r : Bool) (s : State) : (toPostPurge c o r s).tally = s.tally := by
  simp [toPostPurge]

@[simp] theorem lockoutEntry_tally (src : Source) (s : State) : (lockoutEntry src s).tally = s.tally := by
  simp only [lockoutEntry]
  repeat' split
  all_goals simp

/-! ### POST_PURGE, LOCKOUT and safe-off -/

theorem toPostPurge_state (c : Cause) (o r : Bool) (s : State) : (toPostPurge c o r s).bs.state = .postPurge := by
  obtain ⟨t, ht⟩ := toPostPurge_drive c o r s
  exact congrArg (fun d => d.1.state) ht

@[simp] theorem toPostPurge_retry (c : Cause) (o r : Bool) (s : State) : (toPostPurge c o r s).bs.retry = r := rfl

theorem lockoutEntry_retry (src : Source) {s : State} (h : s.bs.state ≠ .lockout) :
    (lockoutEntry src s).bs.retry = false := by
  simp only [lockoutEntry, h, if_false]
  split <;> rfl

/-- In LOCKOUT no fault stop is left to take: only the BLOCKING reason follows the list (R25, R109). -/
theorem fmSync_of_lockout {s : State} (h : s.bs.state = .lockout) : fmSync s = s.setBlocking s.hasBlocking := by
  have hstop : faultStop (s.setBlocking true) = s.setBlocking true := by simp [faultStop, State.setBlocking, h]
  have hsame : s.setBlocking s.bs.inhibit.blocking = s := rfl
  cases hb : s.hasBlocking with
  | false => simp [fmSync, hb]
  | true =>
    cases hi : s.bs.inhibit.blocking with
    | false => simp [fmSync, hb, hi, hstop]
    | true => simpa [fmSync, hb, hi] using hsame.symm

/-- Outside IGNITION, STABILISE and RUN a safe burner has gas and spark off and no ignition timer running (R22). -/
theorem safe_gas_off {s : State} (h : SafeOn s) (hs : s.bs.state = .postPurge ∨ s.bs.state = .lockout) :
    s.bs.gas1 = false ∧ s.bs.gas2 = false ∧ s.bs.spark = false ∧ s.bs.tSafe = none ∧ s.bs.tSpark = none := by
  obtain ⟨⟨hgas, hopen, hspark, _, _, _, _, hsafe, htspark, _⟩, _⟩ := h
  have hi : s.bs.state ≠ .ignition := by rcases hs with hs | hs <;> simp [hs]
  have hg : s.bs.gas1 = false := by
    rcases hs with hs | hs <;> simpa [hs] using hopen
  exact ⟨hg, hgas ▸ hg, by simpa [hi] using hspark, by simpa [onlyIn, hi] using hsafe, by simpa [onlyIn, hi] using htspark⟩

theorem lockedOut_of_safe {s : State} (h : SafeOn s) (hl : s.fm.lockout.state ≠ .none) : LockedOut s := by
  have hk : s.bs.state = .lockout := h.2.1 hl
  obtain ⟨h1, h2, hsp, -, -⟩ := safe_gas_off h (.inr hk)
  exact ⟨hk, h1, h2, hsp, hl⟩

/-! ### A raising that locks out -/

/-- The burner sequencer, the counters and the lockout record: what the keeping of the fault list leaves alone. -/
def State.unlisted (s : State) : Bs × List Nat × Lockout := (s.bs, s.st.counters, s.fm.lockout)

theorem unlisted_fields {s t : State} (h : t.unlisted = s.unlisted) :
    t.bs = s.bs ∧ t.st.counters = s.st.counters ∧ t.fm.lockout = s.fm.lockout := by
  simpa [State.unlisted] using h

@[simp] theorem State.onFm_unlisted (s : State) (f : Fm → Fm) (h : ∀ m, (f m).lockout = m.lockout) :
    (s.onFm f).unlisted = s.unlisted := by
  simp [State.unlisted, h]

theorem State.offer_keeps (s : State) (page : Nat) :
    (s.offer page).bs = s.bs ∧ (s.offer page).fm = s.fm ∧ (s.offer page).st.counters = s.st.counters := by
  simp only [State.offer]
  repeat' split
  all_goals simp

@[simp] theorem State.offer_unlisted (s : State) (page : Nat) : (s.offer page).unlisted = s.unlisted := by
  obtain ⟨hb, hf, hc⟩ := s.offer_keeps page
  simp [State.unlisted, hb, hf, hc]

theorem State.offerCounters_keeps (s : State) :
    s.offerCounters.bs = s.bs ∧ s.offerCounters.fm = s.fm ∧ s.offerCounters.st.counters = s.st.counters := by
  simp only [State.offerCounters]
  split
  · exact s.offer_keeps 10
  · simp

@[simp] theorem histAppend_unlisted (r : Record) (s : State) : (histAppend r s).unlisted = s.unlisted := by
  simp only [histAppend, offerHistory]
  split <;> simp

theorem histAppend_active (r : Record) (s : State) : (histAppend r s).fm.active = s.fm.active := by
  simp only [histAppend, offerHistory]
  split
  · simp [State.offer_keeps]
  · simp

/-- Steps 1 to 3 of R111: the state in which the record of a raising stands and its class is about to be taken up. -/
def recorded (src : Source) (detail : Nat) (s : State) : State :=
  raiseCondition src (raiseRecord src detail (raiseEscalation src s))

theorem raiseEscalation_fields (src : Source) (s : State) :
    (raiseEscalation src s).unlisted = s.unlisted ∧ (raiseEscalation src s).fm.active = s.fm.active := by
  simp only [raiseEscalation]
  split <;> simp

theorem raiseCondition_fields (src : Source) (s : State) :
    (raiseCondition src s).unlisted = s.unlisted ∧ (raiseCondition src s).fm.active = s.fm.active := by
  have hset : ∀ (f : Fm) (t : Timer), (f.setBlockTimer src t).active = f.active := by intro f t; cases src <;> rfl
  simp only [raiseCondition, State.setCond]
  repeat' split
  all_goals simp [hset]

@[simp] theorem raiseRecord_unlisted (src : Source) (detail : Nat) (s : State) :
    (raiseRecord src detail s).unlisted = s.unlisted := by
  simp only [raiseRecord]
  repeat' split
  all_goals simp

/-- A new record of a source of the safety set has class LOCKOUT; a standing one keeps its class and takes the detail (R108, R110). -/
theorem raiseRecord_record {src : Source} {s : State} (detail : Nat) (h : LocksOut s src) :
    ∃ r, (raiseRecord src detail s).record src = some r ∧ r.detail = detail ∧ r.cls = .lockout := by
  obtain ⟨hsafe, hcls⟩ := h
  cases hr : s.record src with
  | none =>
    refine ⟨{ source := src, detail := detail, cls := s.newClass src, count := 1, first := s.time, last := s.time },
      ?_, rfl, by simp [State.newClass, hsafe]⟩
    have hnone : s.fm.active.find? (fun r => r.source == src) = none := hr
    simp only [raiseRecord, hr]
    split <;> simp [State.record, histAppend_active, List.find?_append, hnone]
  | some r =>
    refine ⟨{ r with detail := detail, last := s.time, count := min 255 (r.count + 1) }, ?_, rfl, hcls r hr⟩
    have hsome : s.fm.active.find? (fun r => r.source == src) = some r := hr
    have hsrc : r.source = src := by simpa using List.find?_some hsome
    have hkeep : ∀ q : Record, (if q.source = src then
        { q with detail := detail, last := s.time, count := min 255 (q.count + 1) } else q).source = q.source := by
      intro q; split <;> rfl
    simp only [raiseRecord, State.record, State.onFm_fm, List.find?_map, Function.comp_def, hkeep, hsome]
    simp [hsrc]

theorem recorded_unlisted (src : Source) (detail : Nat) (s : State) : (recorded src detail s).unlisted = s.unlisted := by
  simp [recorded, raiseCondition_fields, raiseEscalation_fields]

theorem locksOut_of_active {s t : State} {src : Source} (ha : t.fm.active = s.fm.active) (h : LocksOut s src) :
    LocksOut t src := by
  simpa [LocksOut, State.record, ha] using h

theorem recorded_record {src : Source} {s : State} (detail : Nat) (h : LocksOut s src) :
    ∃ r, (recorded src detail s).record src = some r ∧ r.detail = detail ∧ r.cls = .lockout := by
  have hl := locksOut_of_active (raiseEscalation_fields src s).2 h
  obtain ⟨r, hr, hd, hc⟩ := raiseRecord_record detail hl
  refine ⟨r, ?_, hd, hc⟩
  rw [State.record, recorded, (raiseCondition_fields src _).2]
  exact hr

/-- A raising is its first three steps, then the class, then BLOCKING, with at most a new lead code after them (R111, R113). -/
theorem fmRaise_eq (src : Source) (detail : Nat) (s : State) :
    ∃ p, fmRaise src detail s = (fmSync (raiseClass src (recorded src detail s))).onPe fun _ => p := by
  simp only [fmRaise]
  split
  · exact ⟨_, rfl⟩
  · exact ⟨_, rfl⟩

theorem raiseClass_of_lockout {src : Source} {s : State} {r : Record} (hr : s.record src = some r)
    (hc : r.cls = .lockout) : raiseClass src s = lockoutPath src s := by
  simp [raiseClass, hr, hc]

/-- The lockout path from no lockout: the record ACTIVE, its page and the counters offered, then the entry to LOCKOUT (R118). -/
theorem lockoutPath_of_none {src : Source} {s : State} (h : s.fm.lockout.state = .none) :
    ∃ u, lockoutPath src s = lockoutEntry src u ∧ u.bs = s.bs ∧ u.st.counters = s.st.counters
      ∧ u.fm.active = s.fm.active ∧ u.fm.lockout.state = .active := by
  obtain ⟨hb, hf, hc⟩ := (queueLockoutPage (lockActive src s)).offerCounters_keeps
  refine ⟨(queueLockoutPage (lockActive src s)).offerCounters, by simp [lockoutPath, h], ?_, ?_, ?_, ?_⟩
  · rw [hb]; rfl
  · rw [hc]; rfl
  · rw [hf]; rfl
  · rw [hf]; rfl

/-- A raising that locks out a burner not in LOCKOUT: the burner is locked out without the retry mark, the record stands, and the attempt count and the counters are as they were (R48, R111, R118). -/
theorem fmRaise_locksOut {src : Source} {s : State} (detail : Nat) (hs : SafeOn s) (hn : s.bs.state ≠ .lockout)
    (hl : LocksOut s src) :
    let t := fmRaise src detail s
    LockedOut t ∧ LockoutRecord t src detail ∧ t.bs.retry = false
      ∧ t.bs.attempts = s.bs.attempts ∧ t.st.counters = s.st.counters := by
  intro t
  have htsafe : SafeOn t := fmRaise_safe src detail s hs
  obtain ⟨hbs, hcount, hlock⟩ := unlisted_fields (recorded_unlisted src detail s)
  obtain ⟨r, hr, hdet, hcls⟩ := recorded_record detail hl
  obtain ⟨u, hpath, hub, huc, hua, hul⟩ := lockoutPath_of_none (src := src) (hlock ▸ safe_none hs hn)
  obtain ⟨p, ht⟩ := fmRaise_eq src detail s
  rw [raiseClass_of_lockout hr hcls, hpath] at ht
  have hun : u.bs.state ≠ .lockout := by rwa [hub, hbs]
  obtain ⟨d, hd⟩ := lockoutEntry_drive src u hun
  have hstate : (lockoutEntry src u).bs.state = .lockout := congrArg (fun x => x.1.state) hd
  obtain ⟨hatt, hcnt, hfm⟩ := tally_fields (lockoutEntry_tally src u)
  rw [fmSync_of_lockout hstate] at ht
  have htfm : t.fm = u.fm := (congrArg State.fm ht).trans hfm
  refine ⟨lockedOut_of_safe htsafe (by simp [htfm, hul]), ⟨r, ?_, ?_, hdet, hcls⟩, ?_, ?_, ?_⟩
  · rw [htfm, hua]
    exact List.mem_of_find?_eq_some hr
  · simpa using List.find?_some hr
  · exact (congrArg (fun x => x.bs.retry) ht).trans (lockoutEntry_retry src hun)
  · have htatt : t.bs.attempts = (lockoutEntry src u).bs.attempts := congrArg (fun x => x.bs.attempts) ht
    rw [htatt, hatt, hub, hbs]
  · have htcnt : t.st.counters = (lockoutEntry src u).st.counters := congrArg (fun x => x.st.counters) ht
    rw [htcnt, hcnt, huc, hcount]

/-! ### The end of the event -/

@[simp] theorem startWrite_counters (s : State) : (startWrite s).st.counters = s.st.counters := by
  simp only [startWrite]
  repeat' split
  all_goals rfl

/-- Outside STANDBY the end of an event leaves BS, FM and the counters alone. -/
theorem settle_fields {s : State} (h : s.bs.state ≠ .standby) :
    (settle s).bs = s.bs ∧ (settle s).fm = s.fm ∧ (settle s).st.counters = s.st.counters := by
  have hend : AtEnd s (settle s) := settle_atEnd s (by simp [State.mayStart, h])
  have hbs := congrArg State.bs hend
  have hfm := congrArg State.fm hend
  have hst := congrArg State.st hend
  exact ⟨hbs, hfm, (congrArg St.counters hst).trans (startWrite_counters s)⟩

/-! ### TSAFE_EXPIRY -/

/-- The attempt count of R33 after one more attempt without a flame. -/
def State.spent (s : State) : Nat := min (sbNatt s.st.safety) (s.bs.attempts + 1)

/-- The state with the attempt and the ignition failure counted. -/
def attemptCounted (s : State) : State :=
  (s.onBs fun b => { b with attempts := s.spent, tSafe := none }).bump 3

theorem tsafeExpired_of_lt {s : State} (h : s.spent < sbNatt s.st.safety) :
    tsafeExpired s = toPostPurge .ignitionFailure false true (attemptCounted s) := if_pos h

theorem tsafeExpired_of_eq {s : State} (h : s.spent = sbNatt s.st.safety) :
    tsafeExpired s =
      fmRaise .ignitionFailure noDetail (toPostPurge .ignitionFailure false false (attemptCounted s)) :=
  if_neg (Nat.not_lt.2 h.ge)

theorem attemptCounted_toPostPurge (r : Bool) (s : State) :
    let u := toPostPurge .ignitionFailure false r (attemptCounted s)
    u.bs.attempts = s.spent ∧ u.st.counters = countUp 3 s.st.counters ∧ u.fm = s.fm :=
  tally_fields (toPostPurge_tally .ignitionFailure false r (attemptCounted s))

/-- Below NATT the burner goes to POST_PURGE for a retry, and FM is not told. -/
theorem tsafeExpired_retries {s : State} (hl : s.fm.lockout.state = .none) (h : s.spent < sbNatt s.st.safety) :
    let t := tsafeExpired s
    SafeOn t ∧ t.bs.state = .postPurge ∧ t.bs.retry = true ∧ t.fm = s.fm
      ∧ t.bs.attempts = s.spent ∧ t.st.counters = countUp 3 s.st.counters := by
  obtain ⟨hatt, hcnt, hfm⟩ := attemptCounted_toPostPurge true s
  rw [tsafeExpired_of_lt h]
  exact ⟨toPostPurge_safe _ _ _ _ hl, toPostPurge_state _ _ _ _, rfl, hfm, hatt, hcnt⟩

/-- At NATT the burner leaves the gas for POST_PURGE, and the raising takes it on to LOCKOUT. -/
theorem tsafeExpired_locksOut {s : State} (hl : s.fm.lockout.state = .none) (hr : LocksOut s .ignitionFailure)
    (h : s.spent = sbNatt s.st.safety) :
    let t := tsafeExpired s
    SafeOn t ∧ LockedOut t ∧ t.bs.retry = false ∧ LockoutRecord t .ignitionFailure noDetail
      ∧ t.bs.attempts = s.spent ∧ t.st.counters = countUp 3 s.st.counters := by
  obtain ⟨hatt, hcnt, hfm⟩ := attemptCounted_toPostPurge false s
  rw [tsafeExpired_of_eq h]
  have hsafe : SafeOn (toPostPurge .ignitionFailure false false (attemptCounted s)) := toPostPurge_safe _ _ _ _ hl
  have hstate := toPostPurge_state .ignitionFailure false false (attemptCounted s)
  obtain ⟨hlocked, hrec, hretry, hatt', hcnt'⟩ :=
    fmRaise_locksOut noDetail hsafe (by simp [hstate]) (locksOut_of_active (congrArg Fm.active hfm) hr)
  exact ⟨fmRaise_safe _ _ _ hsafe, hlocked, hretry, hrec, hatt'.trans hatt, hcnt'.trans hcnt⟩

theorem exec_tsafeExpiry {s : State} {d : Nat} (hp : s.power = .on) (hd : s.bs.tSafe = some d) :
    exec .tsafeExpiry s = .next (settle (tsafeExpired (s.reach d))) := by
  have hexpire : s.expire s.bs.tSafe tsafeExpired = tsafeExpired (s.reach d) := by rw [hd]; rfl
  calc exec .tsafeExpiry s
      = .next (s.event fun s => s.expire s.bs.tSafe tsafeExpired) := rfl
    _ = .next (settle (tsafeExpired (s.reach d))) := by rw [State.event_on s _ hp, hexpire]

/-- Settles O26: the two outcomes of R33, split by whether the attempt just spent is the last that NATT allows. -/
theorem safetyTimeEndsTheAttempt : Obligations.SafetyTimeEndsTheAttempt := by
  unfold Obligations.SafetyTimeEndsTheAttempt
  intro s d hp hsb hd hl
  have hignition : s.bs.state = .ignition := by
    obtain ⟨⟨_, _, _, _, _, _, _, hsafe, _⟩, _⟩ := hsb
    exact hsafe (by simp [hd])
  have hnone : s.fm.lockout.state = .none := safe_none ⟨hsb.1, hsb.2.1⟩ (by simp [hignition])
  have hspent : (s.reach d).spent = min (sbNatt s.st.safety) (s.bs.attempts + 1) := rfl
  refine ⟨_, exec_tsafeExpiry hp hd, ?_⟩
  rcases Nat.lt_or_eq_of_le (Nat.min_le_left (sbNatt s.st.safety) (s.bs.attempts + 1)) with hlt | heq
  · obtain ⟨hsafe, hstate, hretry, hfm, hatt, hcnt⟩ := tsafeExpired_retries (s := s.reach d) hnone hlt
    obtain ⟨hebs, hefm, hecnt⟩ := settle_fields (s := tsafeExpired (s.reach d)) (by simp [hstate])
    obtain ⟨hg1, hg2, hsp, hts, htsp⟩ := safe_gas_off hsafe (.inl hstate)
    rw [hebs, hefm, hecnt, hatt, hspent]
    refine ⟨hg1, hg2, hsp, hts, htsp, rfl, hcnt, fun _ => ⟨hstate, hretry, hfm⟩, fun h => absurd h hlt.ne, fun h1 => ?_⟩
    omega
  · obtain ⟨hsafe, hlocked, hretry, hrec, hatt, hcnt⟩ := tsafeExpired_locksOut (s := s.reach d) hnone hl heq
    obtain ⟨hebs, hefm, hecnt⟩ := settle_fields (s := tsafeExpired (s.reach d)) (by simp [hlocked.1])
    obtain ⟨hg1, hg2, hsp, hts, htsp⟩ := safe_gas_off hsafe (.inr hlocked.1)
    rw [LockedOut, LockoutRecord, hebs, hefm, hecnt, hatt, hspent]
    exact ⟨hg1, hg2, hsp, hts, htsp, rfl, hcnt, fun h => absurd heq h.ne, fun _ => ⟨hlocked, hretry, hrec⟩, fun _ => hrec⟩

end Sys2Proof.Machine

/-! SUPPORT. Stage 4 of the modulation (R92): what stage 1 leaves of the values the slew reads, the output of stage 4 from that of stage 3, and the slew of a constant demand over any number of frames. -/

namespace Sys2Proof.Machine

/-! ### What stage 1 leaves alone -/

@[simp] theorem muStage1_bs (s : State) : (muStage1 s).bs = s.bs := by
  simp only [muStage1]
  split <;> rfl

@[simp] theorem muStage1_uPrev (s : State) : (muStage1 s).mu.uPrev = s.mu.uPrev := by
  simp only [muStage1]
  split <;> rfl

@[simp] theorem muStage1_uS (s : State) : (muStage1 s).mu.uS = s.mu.uS := by
  simp only [muStage1]
  split <;> rfl

/-! ### Stage 4 -/

/-- Every frame forms a ceiled output, with any circuit and in any burner state. -/
theorem muCompute_uC_formed (s : State) : ∃ c, (muCompute s).mu.uC = some c := ⟨_, rfl⟩

/-- Stage 4 (R92): the slew above the last applied output in RUN; outside RUN the value stands. -/
theorem muCompute_uS (s : State) :
    (muCompute s).mu.uS =
      if s.bs.state = .run then (muCompute s).mu.uC.map fun c => min c (s.mu.uPrev + 20) else s.mu.uS := by
  rw [← muStage1_bs s, ← muStage1_uPrev s, ← muStage1_uS s]
  rfl

/-! ### The slew over frames -/

/-- While the ceiled output stays at `cap`, `n` frames raise the output by 20 each until it meets `cap`. -/
theorem slew_iterate {cap u : Nat} (h : u ≤ cap) (n : Nat) :
    (fun v => min cap (v + 20))^[n] u = min cap (u + 20 * n) := by
  induction n with
  | zero => simp [h]
  | succ n ih =>
    rw [Function.iterate_succ_apply', ih]
    omega

/-- Settles O36: the rise by stage 4's own equation; the 43 frames from 150 to 1000 by the closed form of the slew. -/
theorem outputRisesByTwentyAtMost : Obligations.OutputRisesByTwentyAtMost := by
  unfold Obligations.OutputRisesByTwentyAtMost
  refine ⟨fun s hrun => ?_, ?_, ?_⟩
  · obtain ⟨c, hc⟩ := muCompute_uC_formed s
    have hslew : (muCompute s).mu.uS = some (min c (s.mu.uPrev + 20)) := by
      rw [muCompute_uS, if_pos hrun, hc, Option.map_some]
    have hfall : c ≤ s.mu.uPrev → min c (s.mu.uPrev + 20) = c := by omega
    exact ⟨_, c, hc, hslew, rfl, hfall⟩
  · rw [slew_iterate (by decide)]
    decide
  · rw [slew_iterate (by decide)]
    decide

end Sys2Proof.Machine

/-! SUPPORT. Every command apart from power and load as one event: what it notes before the event (`arrive`), and the effect that the event takes (`effect`). The rules over all commands are proved of these two and of the end of the event. -/

namespace Sys2Proof.Machine

/-- What a command notes whatever the power: the time it carries and the level of its line. -/
def arrive (c : Instr) (s : State) : State :=
  match c with
  | .relayReadbackChange r e dt =>
    (s.advance dt).onLines fun l =>
      match r with
      | .gas1 => { l with relay1Fb := e }
      | .gas2 => { l with relay2Fb := e }
  | .resetInLevelChange low dt => (s.advance dt).onLines fun l => { l with resetLow := low }
  | .busLineLevelChange dominant dt =>
    if dominant = s.lines.busDominant then s.advance dt
    else (s.advance dt).onLines fun l => { l with busDominant := dominant, busSince := s.clock.now + dt }
  | .replyStartMark _ dt | .replyFraming _ dt | .replyReceived _ dt | .replyByteReceived _ dt => s.advance dt
  | _ => s

/-- The effect that a command's event takes; `s` is the state in which the command came. -/
def effect (c : Instr) (s : State) : State → State :=
  match c with
  | .powerOn | .powerLoss | .loadComplete | .restartProceed => id
  | .frameCompletion f => frameStep f
  | .flowDisagreeTimeout => disagreeTimeout
  | .circulationTimeout => circulationTimeout
  | .fanDeviationTimeout => fanDeviationTimeout
  | .purgeComplete => purgeTimeout
  | .zoneFallbackTimeout z => fallbackTimeout z
  | .flameSample raw => flameSampled raw
  | .inputPulse l => pulseCounted l
  | .relayReadbackChange r _ _ => mismatchSync r
  | .mismatchTimerExpiry r => fun s => s.expire (s.bs.mismatch r) (mismatchFound r)
  | .tpchkExpiry => fun s => s.expire s.bs.tPchk tpchkExpired
  | .prePurgeLimitExpiry => fun s => s.expire s.bs.purgeLimit purgeLimitExpired
  | .tprespkExpiry => fun s => s.expire s.bs.tPrespk tprespkExpired
  | .tsparkExpiry => fun s => s.expire s.bs.tSpark tsparkExpired
  | .tsafeExpiry => fun s => s.expire s.bs.tSafe tsafeExpired
  | .tstabExpiry => fun s => s.expire s.bs.tStab tstabExpired
  | .tpostExpiry => fun s => s.expire s.bs.tPost tpostExpired
  | .lockoutPurgeExpiry => fun s => s.expire s.bs.lockPurge lockPurgeExpired
  | .tffExpiry => fun s => s.expire s.bs.falseFlame falseFlameFound
  | .tffpostExpiry => fun s => s.expire s.bs.postGas tffpostExpired
  | .valveTravelExpiry z => fun s => s.expire (s.zone z).travel (travelExpired z)
  | .dhwOverrunExpiry => fun s => s.expire s.dm.draw.overrun overrunExpired
  | .diverterEndReached => fun s => s.expire s.dm.diverter.arrival divertEnded
  | .antiCycleExpiry => fun s => s.expire s.dm.antiCycle antiCycleEnd
  | .pumpOverrunExpiry => fun s => s.expire s.dm.pumpOverrun fun s => s.onDm fun d => { d with pumpOverrun := none }
  | .pumpKickStart => kickBegins
  | .pumpKickEnd => fun s => s.expire s.dm.kick kickEnds
  | .onPhaseExpiry => onPhaseTimeout
  | .offPhaseExpiry => offPhaseTimeout
  | .blockingTimerExpiry n => fun s =>
    match Source.ofNum n with
    | some src => s.due (s.fm.blockTimer src) (blockingExpired src)
    | none => s
  | .resetInLevelChange low _ => if low = s.lines.resetLow then id else resetInChanged low
  | .resetInPress => fun s => s.expire s.fm.press resetInPressed
  | .powerOnSecond => secondStep
  | .tsettleExpiry => fun s => s.expire s.zp.settle settleExpired
  | .periodTimerExpiry => fun s => s.expire s.pe.round.period periodExpired
  | .lineCheckIdle => lineCheckIdle
  | .lineDominanceTimeout => lineDominance
  | .lineCheckTimeout => lineCheckLong
  | .requestSent => requestEnd
  | .holdTimeout => holdReached
  | .replyStartMark run _ => markSeen run
  | .treplyExpiry => fun s => s.expire (s.zp.exch.bind fun x => x.reply) replyWindowEnds
  | .trxmaxExpiry => fun s => s.expire (s.zp.exch.bind fun x => x.rxMax) rxTooLong
  | .replyFraming cause _ => framingBroken cause
  | .replyReceived check _ => replyCheck check
  | .closingSent => closingEnd
  | .tclearExpiry => fun s => s.expire s.zp.clear toSettling
  | .overcurrent => overcurrent
  | .faultTimerExpiry => fun s => s.expire s.zp.fault toSettling
  | .readEntry node tag table entry => mgmtRequest node 1 tag [table, entry]
  | .writeEntry node tag table entry data => mgmtRequest node 2 tag (table :: entry :: data)
  | .writeEntryCounters node tag entry data => mgmtRequest node 2 tag (9 :: entry :: data)
  | .writeEntrySafetyStage node tag entry data => mgmtRequest node 2 tag (7 :: entry :: data)
  | .commitSafety node tag crc => mgmtRequest node 3 tag (put16 crc.toNat)
  | .readState node tag group index part => mgmtRequest node 4 tag [group, index, part]
  | .readFaults node tag list direction index => mgmtRequest node 5 tag [list, direction, index]
  | .lockoutReset node tag => mgmtRequest node 6 tag []
  | .proxyRead node tag target item => mgmtRequest node 7 tag [target, item]
  | .clearHistory node tag => mgmtRequest node 8 tag []
  | .restart node tag => mgmtRequest node 9 tag []
  | .proxyHoldExpiry => fun s => s.expire s.mg.slot.hold slotExpired
  | .pageWriteEnd verified => writeEnd verified
  | .busLineLevelChange dominant _ =>
    if dominant = s.lines.busDominant then id else lineChanged dominant s.lines.busSince
  | .replyByteReceived value _ => replyByte value

/-- Every command apart from power and load is an event: `arrive`, then its effect and the end of the event. -/
theorem exec_eq (c : Instr) (s : State) (h : familyOf c ≠ .power) :
    exec c s = .next ((arrive c s).event (effect c s)) := by
  cases c
  case powerOn | powerLoss | loadComplete | restartProceed => exact absurd rfl h
  case resetInLevelChange low dt =>
    show execResetInLevelChange low dt s = _
    simp only [execResetInLevelChange, effect, arrive, done]
    split <;> rfl
  case busLineLevelChange dominant dt =>
    show execBusLineLevelChange dominant dt s = _
    simp only [execBusLineLevelChange, effect, arrive, done]
    split <;> rfl
  all_goals rfl

/-- With power on, a command apart from power and load is its effect and the end of the event. -/
theorem exec_on {c : Instr} {s : State} (h : familyOf c ≠ .power) (hp : (arrive c s).power = .on) :
    exec c s = .next (settle (effect c s (arrive c s))) := by
  rw [exec_eq c s h, State.event_on _ _ hp]

@[simp] theorem arrive_base (c : Instr) (s : State) : (arrive c s).base = s.base := by
  cases c
  case busLineLevelChange dominant dt =>
    simp only [arrive]
    split <;> rfl
  all_goals rfl

theorem base_fields {s t : State} (h : t.base = s.base) :
    t.pending = s.pending ∧ t.power = s.power ∧ t.nv = s.nv ∧ t.st.safety = s.st.safety := by
  simp only [State.base, State.outer, State.mk.injEq, St.mk.injEq] at h
  simp [h]

@[simp] theorem arrive_power (c : Instr) (s : State) : (arrive c s).power = s.power := by
  obtain ⟨-, h, -⟩ := base_fields (arrive_base c s)
  exact h

@[simp] theorem arrive_drive (c : Instr) (s : State) : (arrive c s).drive = s.drive := by
  cases c
  case busLineLevelChange dominant dt =>
    simp only [arrive]
    split <;> rfl
  all_goals rfl

@[simp] theorem arrive_bs (c : Instr) (s : State) : (arrive c s).bs = s.bs := by
  cases c
  case busLineLevelChange dominant dt =>
    simp only [arrive]
    split <;> rfl
  all_goals rfl

@[simp] theorem arrive_fm (c : Instr) (s : State) : (arrive c s).fm = s.fm := by
  cases c
  case busLineLevelChange dominant dt =>
    simp only [arrive]
    split <;> rfl
  all_goals rfl

end Sys2Proof.Machine

namespace Sys2Proof.Machine

/-! ### The queue, the power, the store memory and the live safety block -/

/-- No effect but the end of a page write changes the store memory or the live safety block. -/
theorem effect_base {c : Instr} (h : ∀ v, c ≠ .pageWriteEnd v) (s u : State) : (effect c s u).base = u.base := by
  cases c
  case pageWriteEnd v => exact absurd rfl (h v)
  case blockingTimerExpiry n =>
    simp only [effect]
    split
    · exact State.due_base _ _ _ (blockingExpired_base _)
    · rfl
  case resetInLevelChange low dt =>
    simp only [effect]
    split <;> simp
  case busLineLevelChange dominant dt =>
    simp only [effect]
    split <;> simp
  all_goals first
    | exact State.expire_base _ _ _ fun s => by simp
    | simp [effect]

/-! ### The end of a page write -/

/-- The queue of commands, the power and the store memory. -/
def State.stored (s : State) : List Instr × Power × Memory := (s.pending, s.power, s.nv)

theorem stored_of_base {s t : State} (h : t.base = s.base) : t.stored = s.stored := by
  obtain ⟨h1, h2, h3, -⟩ := base_fields h
  simp [State.stored, h1, h2, h3]

theorem safety_of_base {s t : State} (h : t.base = s.base) : t.st.safety = s.st.safety := by
  obtain ⟨-, -, -, h⟩ := base_fields h
  exact h

theorem commitComplete_stored (s : State) : (commitComplete s).stored = s.stored := by
  let u := s.onSt fun t => { t with safety := s.mg.staging, paramFault := false }
  have hu : ∀ {t : State}, t.base = u.base → t.stored = s.stored := fun h => (stored_of_base h).trans rfl
  simp only [commitComplete]
  split <;> exact hu (by simp [u])

/-- MG's answer to a report is the completion of a commit at page 7, its abort, or nothing, with SETTINGS offered again at most (R182, R183). -/
theorem mgReport_cases (w : Write) (good : Bool) (s : State) :
    ∃ u, ((good = true ∧ w.page = 7 ∧ w.commit = true ∧ u = commitComplete s) ∨ u = commitAbort w.page s ∨ u = s)
      ∧ (mgReport w good s = u ∨ mgReport w good s = (u.offer 11).onMg fun m => { m with reSettings := false }) := by
  simp only [mgReport]
  have hor : ∀ (b : Bool) (x y : State), (if b = true then x else y) = y ∨ (if b = true then x else y) = x := by
    intro b x y
    cases b <;> simp
  refine ⟨_, ?_, hor _ _ _⟩
  repeat' split
  · exact .inl ⟨‹_›, ‹_›, ‹_›, rfl⟩
  · exact .inr (.inr rfl)
  · exact .inr (.inl rfl)
  · exact .inr (.inr rfl)

theorem mgReport_stored (w : Write) (good : Bool) (s : State) : (mgReport w good s).stored = s.stored := by
  obtain ⟨u, hu, h⟩ := mgReport_cases w good s
  have hs : u.stored = s.stored := by
    rcases hu with ⟨-, -, -, rfl⟩ | rfl | rfl
    · exact commitComplete_stored s
    · rfl
    · rfl
  rcases h with h | h
  · rw [h, hs]
  · rw [h, stored_of_base (t := (u.offer 11).onMg _) (s := u) (by simp), hs]

/-- Only the completion of a commit changes the live safety block among MG's answers to a report (R182). -/
theorem mgReport_safety {w : Write} {good : Bool} (hw : ¬(good = true ∧ w.page = 7 ∧ w.commit = true)) (s : State) :
    (mgReport w good s).st.safety = s.st.safety := by
  obtain ⟨u, hu, h⟩ := mgReport_cases w good s
  have hs : u.st.safety = s.st.safety := by
    rcases hu with ⟨h1, h2, h3, -⟩ | rfl | rfl
    · exact absurd ⟨h1, h2, h3⟩ hw
    · rfl
    · rfl
  rcases h with h | h
  · rw [h, hs]
  · rw [h, safety_of_base (t := (u.offer 11).onMg _) (s := u) (by simp), hs]

theorem writeReports_stored (w : Write) (good : Bool) (s : State) : (writeReports w good s).stored = s.stored :=
  calc (writeReports w good s).stored
      = (mgReport w good (fmReport w good s)).stored := stored_of_base (reofferCounters_base _)
    _ = (fmReport w good s).stored := mgReport_stored ..
    _ = s.stored := stored_of_base (fmReport_base ..)

theorem writeReports_safety {w : Write} {good : Bool} (h : ¬(good = true ∧ w.page = 7 ∧ w.commit = true)) (s : State) :
    (writeReports w good s).st.safety = s.st.safety :=
  calc (writeReports w good s).st.safety
      = (mgReport w good (fmReport w good s)).st.safety := safety_of_base (reofferCounters_base _)
    _ = (fmReport w good s).st.safety := mgReport_safety h _
    _ = s.st.safety := safety_of_base (fmReport_base ..)

theorem writeGood_stored (w : Write) (s : State) :
    (writeGood w s).stored = (s.pending, s.power, noteSlot w (s.nv.program (physPage w.page w.slotB) w.copy))
      ∧ (writeGood w s).st.safety = s.st.safety := by
  simp only [writeGood]
  split
  · rw [stored_of_base (fmClear_base ..), safety_of_base (fmClear_base ..)]
    exact ⟨rfl, rfl⟩
  · exact ⟨rfl, rfl⟩

theorem writeDropped_stored (w : Write) (s : State) :
    (writeDropped w s).stored = (s.pending, s.power, s.nv.spoil (physPage w.page w.slotB) (.dropped s.free))
      ∧ (writeDropped w s).st.safety = s.st.safety := by
  simp only [writeDropped]
  rw [stored_of_base (fmRaise_base ..), safety_of_base (fmRaise_base ..)]
  exact ⟨rfl, rfl⟩

theorem noteSlot_wf (w : Write) {m : Memory} (h : m.wf = true) : (noteSlot w m).wf = true := by
  simp only [noteSlot]
  split <;> exact h

/-- The end of a page write keeps the queue and the power, and puts a page programmed or spoilt into the store memory (R193). -/
theorem writeEnd_stored (v : Bool) (s : State) :
    (writeEnd v s).stored = s.stored
      ∨ ∃ w, (writeEnd v s).stored = (s.pending, s.power, noteSlot w (s.nv.program (physPage w.page w.slotB) w.copy))
        ∨ (writeEnd v s).stored = (s.pending, s.power, s.nv.spoil (physPage w.page w.slotB) (.dropped s.free)) := by
  simp only [writeEnd]
  repeat' split
  · exact .inl rfl
  case _ w _ _ =>
    rw [writeReports_stored, (writeGood_stored w _).1]
    exact .inr ⟨w, .inl rfl⟩
  · exact .inl rfl
  case _ w _ _ _ =>
    rw [writeReports_stored, (writeDropped_stored w _).1]
    exact .inr ⟨w, .inr rfl⟩

theorem writeEnd_wf (v : Bool) (s : State) :
    (writeEnd v s).pending = s.pending ∧ (writeEnd v s).power = s.power ∧ (s.nv.wf = true → (writeEnd v s).nv.wf = true) := by
  rcases writeEnd_stored v s with h | ⟨w, h | h⟩ <;> simp only [State.stored, Prod.mk.injEq] at h <;>
    refine ⟨h.1, h.2.1, fun hw => ?_⟩ <;> rw [h.2.2]
  · exact hw
  · exact noteSlot_wf _ (Memory.program_wf _ _ _ hw)
  · exact Memory.spoil_wf _ _ _ hw

/-- The end of a page write keeps the live safety block but at the completion of a commit (R182). -/
theorem writeEnd_safety {v : Bool} {s : State}
    (h : v = true → ∀ w, s.st.write = some w → ¬(w.page = 7 ∧ w.commit = true)) :
    (writeEnd v s).st.safety = s.st.safety := by
  simp only [writeEnd]
  repeat' split
  · rfl
  case _ w hw hv =>
    rw [writeReports_safety (fun k => h hv w hw k.2), (writeGood_stored w _).2]
    rfl
  · rfl
  case _ w hw hv _ =>
    rw [writeReports_safety (fun k => Bool.false_ne_true k.1), (writeDropped_stored w _).2]
    rfl

/-! ### Events -/

theorem settle_stored (s : State) : (settle s).stored = s.stored := stored_of_base (settle_base s)

/-- What an event keeps where its effect and the end of the event do. -/
theorem State.event_rec {P : State → Prop} {s : State} {f : State → State} (hs : P s) (hf : P s → P (f s))
    (hset : ∀ t, P t → P (settle t)) : P (s.event f) := by
  simp only [State.event]
  split
  · exact hset _ (hf hs)
  · exact hs

theorem effect_stored (c : Instr) (s u : State) :
    (effect c s u).pending = u.pending ∧ (effect c s u).power = u.power ∧ (u.nv.wf = true → (effect c s u).nv.wf = true) := by
  by_cases h : ∀ v, c ≠ .pageWriteEnd v
  · obtain ⟨h1, h2, h3, -⟩ := base_fields (effect_base h s u)
    exact ⟨h1, h2, h3 ▸ id⟩
  · obtain ⟨v, rfl⟩ := not_forall_not.1 h
    exact writeEnd_wf v u

theorem loadComplete_stored (s : State) : (loadComplete s).stored = (s.pending, .on, s.nv) := by
  let u := latchTables (loadImages { s with power := .on })
  have hu : u.stored = (s.pending, .on, s.nv) := rfl
  have hb : (loadComplete s).base = u.base := by
    show (relaySync (scanStart (toSettling (dmLoaded ((raiseFound (fmLoaded u)).onMg _))))).base = u.base
    rw [relaySync_base, scanStart_base, toSettling_base, dmLoaded_base, State.onMg_base, raiseFound_base, fmLoaded_base]
  rw [stored_of_base hb, hu]

theorem powerLoss_stored (s : State) :
    (powerLoss s).pending = s.pending ∧ (s.nv.wf = true → (powerLoss s).nv.wf = true) := by
  simp only [powerLoss]
  split
  · exact ⟨rfl, Memory.spoil_wf _ _ _⟩
  · exact ⟨rfl, id⟩

/-- A command of power or load, by its name. -/
theorem power_cases {c : Instr} (h : familyOf c = .power) :
    c = .powerOn ∨ c = .powerLoss ∨ c = .loadComplete ∨ c = .restartProceed := by
  cases c <;> simp_all [familyOf]

/-- Every command leads to a next state with the queue left alone and the store memory in canonical form. -/
theorem exec_stored (c : Instr) (s : State) :
    ∃ t, exec c s = .next t ∧ t.pending = s.pending ∧ (s.nv.wf = true → t.nv.wf = true) := by
  by_cases h : familyOf c = .power
  · rcases power_cases h with rfl | rfl | rfl | rfl
    · exact ⟨_, rfl, by split <;> rfl, by split <;> exact id⟩
    · exact ⟨_, rfl, powerLoss_stored s⟩
    · refine ⟨_, rfl, ?_⟩
      split
      · have hl := (settle_stored (loadComplete s)).trans (loadComplete_stored s)
        simp only [State.stored, Prod.mk.injEq] at hl
        simp [hl]
      · exact ⟨rfl, id⟩
    · exact ⟨_, rfl, by split <;> rfl, by split <;> exact id⟩
  · obtain ⟨a1, -, a3, -⟩ := base_fields (arrive_base c s)
    refine ⟨_, exec_eq c s h, ?_⟩
    refine State.event_rec (P := fun t => t.pending = s.pending ∧ (s.nv.wf = true → t.nv.wf = true)) ⟨a1, a3 ▸ id⟩ ?_ ?_
    · obtain ⟨e1, -, e3⟩ := effect_stored c s (arrive c s)
      exact fun ⟨p1, p2⟩ => ⟨e1.trans p1, fun w => e3 (p2 w)⟩
    · intro t ⟨p1, p2⟩
      obtain ⟨s1, -, s3, -⟩ := base_fields (settle_base t)
      exact ⟨s1.trans p1, s3 ▸ p2⟩

/-- Settles O2. -/
theorem everyCommandCompletesAndKeepsTheQueue : Obligations.EveryCommandCompletesAndKeepsTheQueue := by
  unfold Obligations.EveryCommandCompletesAndKeepsTheQueue
  intro c s
  obtain ⟨t, ht, hp, -⟩ := exec_stored c s
  exact ⟨t, ht, hp⟩

/-- What every command keeps, a step keeps. -/
theorem step_rec {P : State → Prop} (hq : ∀ (s : State) r, P s → P { s with pending := r })
    (he : ∀ c s t, P s → exec c s = .next t → P t) {s t : State} (hs : P s) (h : step s = .next t) : P t := by
  simp only [step] at h
  split at h
  · cases h
    exact hs
  · exact he _ _ _ (hq _ _ hs) h

/-- Settles O3. -/
theorem stepKeepsStoreCanonical : Obligations.StepKeepsStoreCanonical := by
  unfold Obligations.StepKeepsStoreCanonical
  intro s t hs h
  refine step_rec (P := fun s => s.nv.wf = true) (fun _ _ h => h) (fun c s t hs h => ?_) hs h
  obtain ⟨t', ht, -, hw⟩ := exec_stored c s
  cases ht.symm.trans h
  exact hw hs

/-- Settles O1. -/
theorem stepTakesTheFrontCommand : Obligations.StepTakesTheFrontCommand := by
  unfold Obligations.StepTakesTheFrontCommand
  intro c r s
  rfl

/-- Settles O9: every other command keeps the base, and of the ends of a page write only a commit's completion puts a new block in force. -/
theorem safetyBlockAndStoreChangeByPageWritesOnly : Obligations.SafetyBlockAndStoreChangeByPageWritesOnly := by
  unfold Obligations.SafetyBlockAndStoreChangeByPageWritesOnly
  intro c s t ht
  have hset : ∀ u, (settle u).st.safety = u.st.safety := fun u => safety_of_base (settle_base u)
  have harr : (arrive c s).st.safety = s.st.safety := safety_of_base (arrive_base c s)
  refine ⟨fun hfam hc => ?_, fun hw hl => ?_⟩
  · cases (exec_eq c s hfam).symm.trans ht
    refine State.event_rec (P := fun t => t.st.safety = s.st.safety) harr (fun hs => ?_) fun t h => (hset t).trans h
    by_cases h : ∀ v, c ≠ .pageWriteEnd v
    · exact (safety_of_base (effect_base h s _)).trans hs
    · obtain ⟨v, rfl⟩ := not_forall_not.1 h
      exact writeEnd_safety fun hv => hc (by rw [hv])
  · by_cases hfam : familyOf c = .power
    · rcases power_cases hfam with rfl | rfl | rfl | rfl
      · cases ht
        split <;> rfl
      · exact absurd rfl hl
      · cases ht
        split
        · have h := (settle_stored (loadComplete s)).trans (loadComplete_stored s)
          simp only [State.stored, Prod.mk.injEq] at h
          exact h.2.2
        · rfl
      · cases ht
        split <;> rfl
    · cases (exec_eq c s hfam).symm.trans ht
      have hb := State.event_rec (P := fun t => t.base = s.base) (f := effect c s) (arrive_base c s)
        (fun h => (effect_base hw s _).trans h) fun t h => (settle_base t).trans h
      obtain ⟨-, -, h, -⟩ := base_fields hb
      exact h

end Sys2Proof.Machine

namespace Sys2Proof.Machine

/-! ### Safe operation under every effect -/

theorem State.expire_safe {s : State} {t : Timer} {f : State → State} (h : SafeOn s)
    (hf : ∀ d, t = some d → SafeOn (s.reach d) → SafeOn (f (s.reach d))) : SafeOn (s.expire t f) := by
  simp only [State.expire]
  split
  · exact hf _ rfl ((safeOn_of_drive (State.reach_drive _ _)).2 h)
  · exact h

/-- A timer that runs in one state only tells the state. -/
theorem onlyIn.state {b : Bs} {st : BurnerState} {t : Timer} {d : Nat} (h : onlyIn b st t) (ht : t = some d) : b.state = st :=
  h (by simp [ht])

theorem tpchkExpired_safe (s : State) (h : SafeOn s) (hs : s.bs.state = .preCheck) : SafeOn (tpchkExpired s) := by
  have hn : s.fm.lockout.state = .none := safe_none h (by simp [hs])
  simp only [tpchkExpired]
  split
  · exact fmRaise_safe _ _ _ (toStandby_safe _ _ hn)
  · obtain ⟨⟨h1, h2, h3, h4, h5, h6, h7, h8, h9, h10, h11, h12, h13, h14⟩, hl⟩ := h
    exact ⟨⟨h1, h2, h3, nofun, h5, h6, h7, h8, h9, h10, h11, h12, h13, h14⟩, hl⟩

theorem purgeLimitExpired_safe (s : State) (h : SafeOn s) (hs : s.bs.state = .prePurge) : SafeOn (purgeLimitExpired s) :=
  fmRaise_safe _ _ _ (toStandby_safe _ _ (safe_none h (by simp [hs])))

theorem falseFlameFound_safe (s : State) (h : SafeOn s) : SafeOn (falseFlameFound s) :=
  fmRaise_safe _ _ _ (faultStop_safe _ ((safeOn_of_drive rfl).2 h))

theorem tsparkExpired_safe (s : State) (h : SafeOn s) : SafeOn (tsparkExpired s) := by
  obtain ⟨⟨h1, h2, h3, h4, h5, h6, h7, h8, h9, h10, h11, h12, h13, h14⟩, hl⟩ := h
  exact ⟨⟨h1, h2, nofun, h4, h5, h6, h7, h8, nofun, h10, nofun, h12, h13, h14⟩, hl⟩

theorem tsafeExpired_safe (s : State) (h : SafeOn s) (hs : s.bs.state = .ignition) : SafeOn (tsafeExpired s) := by
  have hn : s.fm.lockout.state = .none := safe_none h (by simp [hs])
  simp only [tsafeExpired]
  split
  · exact toPostPurge_safe _ _ _ _ hn
  · exact fmRaise_safe _ _ _ (toPostPurge_safe _ _ _ _ hn)

theorem lockPurgeExpired_safe (s : State) (h : SafeOn s) : SafeOn (lockPurgeExpired s) := by
  refine setFanTarget_safe _ _ ?_
  obtain ⟨⟨h1, h2, h3, h4, h5, h6, h7, h8, h9, h10, h11, h12, h13, h14⟩, hl⟩ := h
  exact ⟨⟨h1, h2, h3, h4, h5, h6, h7, h8, h9, h10, h11, h12, h13, nofun⟩, hl⟩

theorem tffpostExpired_safe (s : State) (h : SafeOn s) : SafeOn (tffpostExpired s) := by
  have hp : SafeOn (s.onBs fun b => { b with postGas := none }) := (safeOn_of_drive rfl).2 h
  simp only [tffpostExpired]
  split
  · exact falseFlameFound_safe _ hp
  · exact hp

theorem tprespkExpired_safe (s : State) (h : SafeOn s) (hs : s.bs.state = .ignition) (hp : s.bs.tPrespk.isSome = true) :
    SafeOn (tprespkExpired s) := by
  have hn : s.fm.lockout.state = .none := safe_none h (by simp [hs])
  have hg : s.bs.gas1 = false := by
    obtain ⟨⟨_, hopen, _⟩, _⟩ := h
    have : s.bs.tPrespk ≠ none := by simpa [Option.isSome_iff_ne_none] using hp
    simpa [hs, this] using hopen
  have hopening : openGas (s.onBs fun b => { b with tPrespk := none }) = openGas s := rfl
  simp only [tprespkExpired, hopening]
  split
  · refine fmRaise_safe _ _ _ ?_
    simp only [faultStop, State.onBs_bs, hs, firing, hg]
    exact toStandby_safe _ _ hn
  · exact openGas_safe _ h hs

theorem tstabExpired_safe (s : State) (h : SafeOn s) (hs : s.bs.state = .stabilise) : SafeOn (tstabExpired s) := by
  obtain ⟨⟨h1, h2, h3, h4, h5, h6, h7, h8, h9, h10, h11, h12, h13, h14⟩, hl⟩ := h
  exact toRun_safe _ ⟨⟨h1, h2, h3, h4, h5, h6, h7, h8, h9, h10, h11, nofun, h13, h14⟩, hl⟩ hs

theorem tpostExpired_safe (s : State) (h : SafeOn s) (hs : s.bs.state = .postPurge) : SafeOn (tpostExpired s) := by
  have hn : s.fm.lockout.state = .none := safe_none h (by simp [hs])
  simp only [tpostExpired]
  split
  · exact toPreCheck_safe _ hn
  · exact toStandby_safe _ _ hn

/-- Every effect keeps safe operation; the timer that expires tells the burner's state. -/
theorem effect_safe (c : Instr) (s : State) {u : State} (h : SafeOn u) : SafeOn (effect c s u) := by
  obtain ⟨⟨_, _, _, hpchk, hlimit, _, hprespk, hsafe, hspark, _, _, hstab, hpost, hlock⟩, _⟩ := id h
  cases c
  case tpchkExpiry => exact State.expire_safe h fun d hd hr => tpchkExpired_safe _ hr (hpchk.state hd)
  case prePurgeLimitExpiry => exact State.expire_safe h fun d hd hr => purgeLimitExpired_safe _ hr (hlimit.state hd)
  case tprespkExpiry =>
    exact State.expire_safe h fun d hd hr => tprespkExpired_safe _ hr (hprespk.state hd) (by simp [hd])
  case tsafeExpiry => exact State.expire_safe h fun d hd hr => tsafeExpired_safe _ hr (hsafe.state hd)
  case tstabExpiry => exact State.expire_safe h fun d hd hr => tstabExpired_safe _ hr (hstab.state hd)
  case tpostExpiry => exact State.expire_safe h fun d hd hr => tpostExpired_safe _ hr (hpost.state hd)
  case tsparkExpiry => exact State.expire_safe h fun d _ hr => tsparkExpired_safe _ hr
  case lockoutPurgeExpiry => exact State.expire_safe h fun d _ hr => lockPurgeExpired_safe _ hr
  case tffExpiry => exact State.expire_safe h fun d _ hr => falseFlameFound_safe _ hr
  case tffpostExpiry => exact State.expire_safe h fun d _ hr => tffpostExpired_safe _ hr
  case mismatchTimerExpiry => exact State.expire_safe h fun d _ hr => mismatchFound_safe _ _ hr
  case valveTravelExpiry => exact State.expire_safe h fun d _ hr => travelExpired_safe _ _ hr
  case dhwOverrunExpiry => exact State.expire_safe h fun d _ hr => overrunExpired_safe _ hr
  case resetInPress => exact State.expire_safe h fun d _ hr => resetInPressed_safe _ hr
  case tsettleExpiry => exact State.expire_safe h fun d _ hr => settleExpired_safe _ hr
  case periodTimerExpiry => exact State.expire_safe h fun d _ hr => periodExpired_safe _ hr
  case treplyExpiry => exact State.expire_safe h fun d _ hr => replyWindowEnds_safe _ hr
  case trxmaxExpiry => exact State.expire_safe h fun d _ hr => rxTooLong_safe _ hr
  case diverterEndReached | antiCycleExpiry | pumpOverrunExpiry | pumpKickEnd | tclearExpiry | faultTimerExpiry | proxyHoldExpiry =>
    exact State.expire_safe h fun d _ hr => (safeOn_of_drive rfl).2 hr
  case inputPulse | relayReadbackChange | pumpKickStart | powerOnSecond | lineCheckIdle | requestSent | replyStartMark =>
    exact (safeOn_of_drive (by simp [effect])).2 h
  case powerOn | powerLoss | loadComplete | restartProceed => exact h
  case frameCompletion => exact frameStep_safe _ _ h
  case flowDisagreeTimeout => exact disagreeTimeout_safe _ h
  case circulationTimeout => exact circulationTimeout_safe _ h
  case fanDeviationTimeout => exact fanDeviationTimeout_safe _ h
  case purgeComplete => exact purgeTimeout_safe _ h
  case zoneFallbackTimeout => exact fallbackTimeout_safe _ _ h
  case flameSample => exact flameSampled_safe _ _ h
  case onPhaseExpiry => exact onPhaseTimeout_safe _ h
  case offPhaseExpiry => exact offPhaseTimeout_safe _ h
  case blockingTimerExpiry =>
    simp only [effect, State.due]
    repeat' split
    · exact blockingExpired_safe _ _ h
    all_goals exact h
  case resetInLevelChange =>
    simp only [effect]
    split
    · exact h
    · exact (safeOn_of_drive (resetInChanged_drive _ _)).2 h
  case lineDominanceTimeout => exact lineDominance_safe _ h
  case lineCheckTimeout => exact lineCheckLong_safe _ h
  case holdTimeout => exact holdReached_safe _ h
  case replyFraming => exact framingBroken_safe _ _ h
  case replyReceived => exact replyCheck_safe _ _ h
  case closingSent => exact closingEnd_safe _ h
  case overcurrent => exact overcurrent_safe _ h
  case pageWriteEnd => exact writeEnd_safe _ _ h
  case busLineLevelChange =>
    simp only [effect]
    split
    · exact h
    · exact lineChanged_safe _ _ _ h
  case replyByteReceived => exact replyByte_safe _ _ h
  all_goals exact mgmtRequest_safe _ _ _ _ _ h

theorem settle_power (s : State) : (settle s).power = s.power := by
  obtain ⟨-, h, -⟩ := base_fields (settle_base s)
  exact h

theorem State.event_off {s : State} {f : State → State} (h : s.power ≠ .on) : s.event f = s := if_neg h

/-- The burner at its power-on values is safe while no lockout record stands. -/
theorem safeOn_initial {s : State} (hb : s.bs = {}) (hl : s.fm.lockout.state = .none) : SafeOn s :=
  safeOn_standby (by rw [State.drive, hb, hl]; rfl)

theorem safeBurner_iff {s : State} :
    SafeBurner s ↔ SafeOn s ∧ (s.power ≠ .on → s.bs = {} ∧ s.fm.lockout.state = .none) :=
  ⟨fun ⟨b, a, p⟩ => ⟨⟨b, a⟩, p⟩, fun ⟨⟨b, a⟩, p⟩ => ⟨b, a, p⟩⟩

theorem safeBurner_volatileReset (s : State) (p : Power) : SafeBurner (s.volatileReset p) :=
  safeBurner_iff.2 ⟨safeOn_initial rfl rfl, fun _ => ⟨rfl, rfl⟩⟩

theorem restoreLockout_safe {s : State} (hb : s.bs = {}) : SafeOn (restoreLockout s) := by
  simp only [restoreLockout]
  split
  · exact safeOn_initial hb ‹_›
  · rename_i hl
    rw [safeOn_of_drive (fmLead_drive _)]
    obtain ⟨d, hd⟩ := lockoutEntry_drive (s.fm.lockout.source.getD .paramIntegrity)
      (s.onFm fun f =>
        { f with
          active := match s.fm.lockout.source with
            | some src =>
              [{ source := src, detail := noDetail, cls := .lockout, count := 1, first := s.fm.lockout.time
                 last := s.fm.lockout.time }]
            | none => [] }) (by simp [hb])
    exact safeOn_lockout d _ hl hd

theorem raiseTorn_safe (s : State) (p : Nat) (h : SafeOn s) : SafeOn (raiseTorn s p) := by
  simp only [raiseTorn]
  split
  · exact fmRaise_safe _ _ _ ((safeOn_of_drive rfl).2 h)
  · exact h

theorem raiseFound_safe (s : State) (h : SafeOn s) : SafeOn (raiseFound s) := by
  have hf := foldl_safe raiseTorn raiseTorn_safe (List.range 35) s h
  simp only [raiseFound]
  split
  · exact fmRaise_safe _ _ _ hf
  · exact hf

@[simp] theorem locateHistory_drive (s : State) : (locateHistory s).drive = s.drive := by
  simp only [locateHistory]
  split <;> rfl

theorem dmLoaded_safe (s : State) (h : SafeOn s) : SafeOn (dmLoaded s) :=
  refresh_safe _ ((safeOn_of_drive (State.onDm_drive _ _)).2 h)

theorem scanStart_toSettling_drive (s : State) : (scanStart (toSettling s)).drive = s.drive := rfl

theorem loadComplete_safe {s : State} (hb : s.bs = {}) : SafeOn (loadComplete s) := by
  have hl : SafeOn (fmLoaded (latchTables (loadImages { s with power := .on }))) :=
    (safeOn_of_drive (locateHistory_drive _)).2 (restoreLockout_safe hb)
  simp only [loadComplete]
  refine (safeOn_of_drive (relaySync_drive _)).2
    ((safeOn_of_drive (scanStart_toSettling_drive _)).2 (dmLoaded_safe _ ?_))
  exact (safeOn_of_drive (State.onMg_drive _ _)).2 (raiseFound_safe _ hl)

theorem powerLoss_safe (s : State) : SafeBurner (powerLoss s) := by
  simp only [powerLoss]
  split <;> exact safeBurner_volatileReset _ _

/-- Every command keeps safe operation. -/
theorem exec_safe (c : Instr) (s t : State) (hs : SafeBurner s) (ht : exec c s = .next t) : SafeBurner t := by
  by_cases hfam : familyOf c = .power
  · rcases power_cases hfam with rfl | rfl | rfl | rfl <;> cases ht
    · split
      · exact safeBurner_volatileReset _ _
      · exact hs
    · exact powerLoss_safe s
    · split
      · rename_i hp
        have hpow : (settle (loadComplete s)).power = .on := by
          have h := (settle_stored (loadComplete s)).trans (loadComplete_stored s)
          simp only [State.stored, Prod.mk.injEq] at h
          exact h.2.1
        refine safeBurner_iff.2 ⟨settle_safe _ (loadComplete_safe ?_), fun h => absurd hpow h⟩
        exact ((safeBurner_iff.1 hs).2 (by simp [hp])).1
      · exact hs
    · split
      · exact safeBurner_volatileReset _ _
      · exact hs
  · cases (exec_eq c s hfam).symm.trans ht
    by_cases hp : s.power = .on
    · have hpa : (arrive c s).power = .on := (arrive_power c s).trans hp
      rw [State.event_on _ _ hpa]
      have ha : SafeOn (arrive c s) := (safeOn_of_drive (arrive_drive c s)).2 (safeBurner_iff.1 hs).1
      refine safeBurner_iff.2 ⟨settle_safe _ (effect_safe c s ha), fun h => absurd ?_ h⟩
      rw [settle_power, (effect_stored c s _).2.1, hpa]
    · have hpa : (arrive c s).power ≠ .on := by rwa [arrive_power]
      rw [State.event_off hpa]
      rw [safeBurner_iff, safeOn_of_drive (arrive_drive c s), arrive_bs, arrive_fm, arrive_power, ← safeBurner_iff]
      exact hs

/-- Settles O4. -/
theorem stepKeepsTheBurnerSafe : Obligations.StepKeepsTheBurnerSafe := by
  unfold Obligations.StepKeepsTheBurnerSafe
  intro s t hs h
  exact step_rec (P := SafeBurner) (fun _ _ h => h) exec_safe hs h

end Sys2Proof.Machine

/-! SUPPORT. The rules about power, the invariants after reset, the quiet timers and the characteristic. -/

namespace Sys2Proof.Machine

/-- Settles O7. -/
theorem resetMeetsTheInvariants : Obligations.ResetMeetsTheInvariants := by
  unfold Obligations.ResetMeetsTheInvariants
  refine ⟨by decide, safeBurner_volatileReset State.reset .loading, ⟨List.nodup_nil, nofun⟩, Nat.zero_le _, ?_⟩
  simp [CountsInRange, State.reset, Config.disagreeFrames, Config.circFrames, Config.fanDevFrames]

/-- Settles O12. -/
theorem powerOnSetsThePowerOnValues : Obligations.PowerOnSetsThePowerOnValues := by
  unfold Obligations.PowerOnSetsThePowerOnValues
  intro s hoff
  refine ⟨s.volatileReset .loading, ?_, rfl, rfl, rfl, rfl, rfl, rfl, rfl, rfl⟩
  show Host.Outcome.next (if s.power = .off then s.volatileReset .loading else s) = _
  rw [if_pos hoff]

end Sys2Proof.Machine

namespace Sys2Proof.Machine

/-! ### Power loss -/

theorem Memory.spoil_status {m : Memory} (page : Nat) {v : PageStatus} (h : m.wf = true) :
    statusRead (m.spoil page v).status page = v :=
  statusRead_statusWrite_same m.status 0 page v (Memory.wf_status h)

theorem Memory.spoil_read {m : Memory} (page : Nat) (v : PageStatus) (h : m.wf = true) {a : Nat} (ha : a / 32 ≠ page) :
    (m.spoil page v).read a = m.read a :=
  Memory.read_other m page (List.replicate 32 erasedByte) v m.slotNo a h (by simp) ha

/-- Settles O13. -/
theorem powerLossTearsOnlyThePageBeingWritten : Obligations.PowerLossTearsOnlyThePageBeingWritten := by
  unfold Obligations.PowerLossTearsOnlyThePageBeingWritten
  intro s hw
  refine ⟨powerLoss s, rfl, ?_⟩
  simp only [powerLoss]
  split
  case h_1 w hwr =>
    refine ⟨rfl, fun h => absurd (hwr.symm.trans h) nofun, fun w' hw' => ?_⟩
    cases hwr.symm.trans hw'
    refine ⟨?_, fun a ha => Memory.spoil_read _ _ hw ha⟩
    show (s.nv.spoil (physPage w.page w.slotB) (.torn s.free)).torn (physPage w.page w.slotB) = true
    rw [Memory.torn, Memory.spoil_status _ hw]
  case h_2 hwr => exact ⟨rfl, fun _ => rfl, fun w h => absurd (hwr.symm.trans h) nofun⟩

/-! ### The characteristic (R7) -/

theorem interpolate_below (p : Int × Int) (r : List (Int × Int)) {x : Int} (h : x < p.1) :
    interpolate (p :: r) x = p.2 := by
  cases r with
  | nil => rfl
  | cons q r => simp [interpolate, h]

/-- From the second point on the first one is passed over. -/
theorem interpolate_from {p q : Int × Int} (r : List (Int × Int)) {x : Int} (hp : p.1 ≤ q.1) (h : q.1 ≤ x) :
    interpolate (p :: q :: r) x = interpolate (q :: r) x := by
  simp [interpolate, Int.not_lt.2 h, Int.not_lt.2 (hp.trans h)]

theorem interpolate_last {pts : List (Int × Int)} {x : Int} (hs : pts.Pairwise fun p q => p.1 < q.1) {p : Int × Int}
    (hp : pts.getLast? = some p) (h : p.1 ≤ x) : interpolate pts x = p.2 := by
  induction pts with
  | nil => simp at hp
  | cons a r ih =>
    cases r with
    | nil =>
      cases hp
      rfl
    | cons b r =>
      obtain ⟨hab, hr⟩ := List.pairwise_cons.1 hs
      have hl : (b :: r).getLast? = some p := by rwa [List.getLast?_cons_cons] at hp
      have hb : b.1 ≤ p.1 := by
        rcases List.mem_cons.1 (List.mem_of_getLast? hl) with rfl | hm
        · exact le_rfl
        · exact ((List.pairwise_cons.1 hr).1 p hm).le
      rw [interpolate_from r (hab b (by simp)).le (hb.trans h), ih hr hl]

theorem interpolate_between {pts : List (Int × Int)} {x : Int} (hs : pts.Pairwise fun p q => p.1 < q.1) {i : Nat}
    {p q : Int × Int} (hp : pts[i]? = some p) (hq : pts[i + 1]? = some q) (h₁ : p.1 ≤ x) (h₂ : x < q.1) :
    interpolate pts x = p.2 + Int.tdiv ((x - p.1) * (q.2 - p.2)) (q.1 - p.1) := by
  induction pts generalizing i with
  | nil => simp at hp
  | cons a r ih =>
    obtain ⟨hab, hr⟩ := List.pairwise_cons.1 hs
    cases i with
    | zero =>
      obtain ⟨b, r, rfl⟩ : ∃ b t, r = b :: t := by
        cases r with
        | nil => simp at hq
        | cons b t => exact ⟨b, t, rfl⟩
      simp only [List.getElem?_cons_zero, List.getElem?_cons_succ, Option.some.injEq] at hp hq
      subst hp hq
      simp [interpolate, Int.not_lt.2 h₁, h₂, quot]
    | succ i =>
      simp only [List.getElem?_cons_succ] at hp hq
      obtain ⟨b, r, rfl⟩ : ∃ b t, r = b :: t := by
        cases r with
        | nil => simp at hp
        | cons b t => exact ⟨b, t, rfl⟩
      have hb : b.1 ≤ p.1 := by
        rcases List.mem_cons.1 (List.mem_of_getElem? hp) with rfl | hm
        · exact le_rfl
        · exact ((List.pairwise_cons.1 hr).1 p hm).le
      rw [interpolate_from r (hab b (by simp)).le (hb.trans h₁), ih hr hp hq]

/-- Settles O18. -/
theorem characteristicHoldsItsEndsAndInterpolates : Obligations.CharacteristicHoldsItsEndsAndInterpolates := by
  unfold Obligations.CharacteristicHoldsItsEndsAndInterpolates
  intro pts x hs
  refine ⟨fun p hp hx => ?_, fun p hp hx => interpolate_last hs hp hx,
    fun i p q hp hq h₁ h₂ => interpolate_between hs hp hq h₁ h₂⟩
  cases pts with
  | nil => simp at hp
  | cons a r =>
    cases hp
    exact interpolate_below _ _ hx

/-! ### Quiet timers -/

theorem State.expire_some {s : State} {t : Timer} {d : Nat} (h : t = some d) (f : State → State) :
    s.expire t f = f (s.reach d) := by
  rw [h]
  rfl

theorem mayStart_of_state {s : State} (h : s.bs.state ≠ .standby) : s.mayStart = false := by simp [State.mayStart, h]

/-- An event of a part in operation after whose effect no start is due. -/
theorem exec_atEnd {c : Instr} {s u : State} (h : familyOf c ≠ .power) (hp : s.power = .on)
    (hu : effect c s (arrive c s) = u) (hm : u.mayStart = false) : ∃ t, exec c s = .next t ∧ AtEnd u t := by
  subst hu
  exact ⟨_, exec_on h (by rwa [arrive_power]), settle_atEnd _ hm⟩

/-- The kick and the LOW_PRESSURE record, which the pump's output depends on, are alike at the end of an event. -/
theorem AtEnd.pumpEn {u t : State} (h : AtEnd u t) : t.pumpEn = u.pumpEn := by
  rw [h]
  rfl

/-- Settles O24. -/
theorem quietTimersDoOneThing : Obligations.QuietTimersDoOneThing := by
  unfold Obligations.QuietTimersDoOneThing
  intro s d hp
  refine ⟨fun hb ht hf => ?_, fun hb ht => ?_, fun hb ht => ?_, fun hm => ⟨fun ht => ?_, fun hi hk hl => ?_, fun hl => ?_, fun hk => ?_⟩⟩
  · refine exec_atEnd (c := .tpchkExpiry) nofun hp ?_ (mayStart_of_state ?_)
    · show s.expire s.bs.tPchk tpchkExpired = _
      rw [State.expire_some ht, tpchkExpired]
      exact if_neg (Nat.not_le.2 hf)
    · simp [hb]
  · refine exec_atEnd (c := .tsparkExpiry) nofun hp ?_ (mayStart_of_state ?_)
    · exact State.expire_some ht _
    · simp [hb]
  · refine exec_atEnd (c := .lockoutPurgeExpiry) nofun hp ?_ (mayStart_of_state ?_)
    · exact State.expire_some ht _
    · simp [hb]
  · obtain ⟨t, ht, ha⟩ := exec_atEnd (c := .pumpOverrunExpiry) nofun hp
      (u := (s.reach d).onDm fun m => { m with pumpOverrun := none })
      (State.expire_some ht fun s => s.onDm fun m => { m with pumpOverrun := none }) hm
    refine ⟨t, ht, ?_, ha⟩
    rw [ha]
    rfl
  · obtain ⟨t, ht, ha⟩ := exec_atEnd (c := .pumpKickStart) nofun hp
      (u := { s with dm := { s.dm with kick := some (s.clock.now + 10 * Config.second) } })
      (by
        show kickBegins s = _
        rw [kickBegins, if_pos ⟨hi, hk, by rw [hl]; rfl⟩]
        rfl) hm
    refine ⟨t, ht, ha, ha.pumpEn.trans ?_⟩
    have hn : State.record { s with dm := { s.dm with kick := some (s.clock.now + 10 * Config.second) } } .lowPressure
      = none := hl
    simp [State.pumpEn, hn]
  · obtain ⟨t, ht, ha⟩ := exec_atEnd (c := .pumpKickStart) nofun hp
      (show kickBegins s = s by
        rw [kickBegins, if_neg]
        rintro ⟨-, -, h⟩
        cases hr : s.record .lowPressure <;> simp_all) hm
    refine ⟨t, ht, ha, ha.pumpEn.trans ?_⟩
    cases hr : s.record .lowPressure <;> simp_all [State.pumpEn]
  · obtain ⟨t, ht, ha⟩ := exec_atEnd (c := .pumpKickEnd) nofun hp (u := kickEnds (s.reach d))
      (State.expire_some hk _) hm
    refine ⟨t, ht, ha, ?_, ?_⟩
    · rw [ha]
      rfl
    · rw [ha]
      show (if _ then 0 else 0) = 0
      simp

end Sys2Proof.Machine

/-! SUPPORT. What an operation may touch. `Acts i p s t` reads: from `s` to `t` only the things named by `p` have been touched; every other part of the state is kept, as far as its field says, and what every operation keeps is kept. `i` tells that the operation is a part of a change of the active list, after which the lead code has still to be delivered. -/

namespace Sys2Proof.Machine

/-- What an operation may touch. -/
inductive Touch where
  /-- The clock. -/
  | clock
  /-- The bus line's level. -/
  | line
  /-- The tables as latched for the frame, and LIMIT_IN. -/
  | frame
  /-- MP. -/
  | measure
  /-- The gas opened. -/
  | gas
  /-- RUN entered. -/
  | enter
  /-- The output in RUN. -/
  | output
  /-- The limit and overheat marks. -/
  | marks
  /-- COMMIT_HOLD. -/
  | commit
  /-- START_UP. -/
  | startUp
  /-- The call part of the zone records. -/
  | calls
  /-- The circuit, the valve part of the zone records, the urgent queue, and ZONE_VALVE's record. -/
  | demand
  /-- The draw, the diverter and the frost mark. -/
  | draw
  /-- MU's stages 1 to 4. -/
  | stage
  /-- A raising of a source. -/
  | raise (src : Source)
  /-- A clear of a source. -/
  | clear (src : Source)
  /-- The history ring and the escalation lists. -/
  | history
  /-- A reset request taken. -/
  | reset
  /-- The completion of a lockout reset. -/
  | unlock
  /-- RESET_IN's press. -/
  | press
  /-- ZP, but for the exchange. -/
  | link
  /-- The exchange, the round and the urgent queue. -/
  | poll
  /-- The nodes' live records. -/
  | presence
  /-- PE's outdoor value. -/
  | outdoor
  /-- The proxy slot. -/
  | slot
  /-- MG. -/
  | manage
  /-- The counters. -/
  | counts
  /-- CURVE, ZONES, NODES and POLL. -/
  | tables
  /-- SETTINGS. -/
  | settings
  /-- FAULTCODES. -/
  | codes
  /-- The store memory, the safety block and the end of a page write. -/
  | store
deriving DecidableEq

/-! ### Parts of the state -/

/-- The ranges that CountsInRange gives MP. -/
def Mp.InRange (m : Mp) : Prop :=
  m.disagree ≤ Config.disagreeFrames ∧ m.circ < Config.circFrames ∧ m.dhwRing.length = 10 ∧ m.tachoRing.length = 10

/-- The output in RUN: the fan target and what MU has delivered. -/
def State.output (s : State) : Nat × Nat × Nat × Nat := (s.bs.fanTarget, s.mu.uOut, s.mu.uPrev, s.mu.fanOut)

/-- What MU's stages 1 to 4 form, the integrator apart. -/
def Mu.stages (m : Mu) : Mu := { m with iAcc := 0, uOut := 0, uPrev := 0, fanOut := 0, cyc := {} }

/-- The part of a zone record that demands and fallbacks change (R54 to R57). -/
def Zone.calling (r : Zone) : Int × Value × CallState × Bool × Nat := (r.setpoint, r.temp, r.call, r.fallback, r.lastDemand)

/-- The records of a source in the active list, with its blocking timer. -/
def Fm.about (f : Fm) (src : Source) : List Record × Timer := (f.active.filter fun r => r.source == src, f.blockTimer src)

/-- The history and the escalation lists. -/
def Fm.past (f : Fm) : List (List Nat) × List (Option Hist) × Nat × Nat × List Bool :=
  (f.esc, f.ring, f.nextSlot, f.nextSeq, f.rePages)

/-- The sources and classes of the active list. -/
def State.listed (s : State) : List (Source × FaultClass) := s.fm.active.map fun r => (r.source, r.cls)

/-- What is sound about an active list (R105, R108, R110). -/
def ListSound (l : List Record) : Prop :=
  (l.map fun r => r.source).Nodup ∧ ∀ r ∈ l, r.source.safety = true → r.cls = .lockout

/-- The lead code stands with the list, or has been delivered anew (R113). -/
def LeadRel (s t : State) : Prop := (t.listed = s.listed ∧ t.pe.leadCode = s.pe.leadCode) ∨ LeadDelivered t

/-- Only what `p` names has been touched from `s` to `t`. -/
structure Acts (i : Bool) (p : Touch → Prop) (s t : State) : Prop where
  power : t.power = s.power
  plant : (t.lines.relay1Fb, t.lines.relay2Fb, t.lines.resetLow) = (s.lines.relay1Fb, s.lines.relay2Fb, s.lines.resetLow)
  clock : p .clock ∨ t.clock = s.clock
  line : p .line ∨ (t.lines.busDominant, t.lines.busSince) = (s.lines.busDominant, s.lines.busSince)
  frame : p .frame ∨ (t.latch, t.lines.limitOpen) = (s.latch, s.lines.limitOpen)
  mp : p .measure ∨ t.mp = s.mp
  mpRange : s.mp.InRange → t.mp.InRange
  fanDuty : s.bs.fanDuty ≤ 1000 → t.bs.fanDuty ≤ 1000
  fanDev : s.bs.fanDev < Config.fanDevFrames → t.bs.fanDev < Config.fanDevFrames
  gas1 : p .gas ∨ (t.bs.gas1 = true → s.bs.gas1 = true)
  gas2 : p .gas ∨ (t.bs.gas2 = true → s.bs.gas2 = true)
  enter : p .enter ∨ (t.bs.state = .run → s.bs.state = .run)
  output : p .enter ∨ p .output ∨ (t.bs.state = .run → t.output = s.output)
  integral : p .enter ∨ p .demand ∨ p .stage ∨ (t.bs.state = .run → t.mu.iAcc = s.mu.iAcc)
  marks : p .marks ∨ (t.bs.limitMark, t.bs.overheatMark) = (s.bs.limitMark, s.bs.overheatMark)
  commit : p .commit ∨ t.bs.inhibit.commitHold = s.bs.inhibit.commitHold
  startUp : p .startUp ∨ t.bs.inhibit.startUp = s.bs.inhibit.startUp
  zonesLength : t.dm.zones.length = s.dm.zones.length
  idle : s.dm.idle ≤ Config.idleLimit → t.dm.idle ≤ Config.idleLimit
  calls : p .calls ∨ t.dm.zones.map Zone.calling = s.dm.zones.map Zone.calling
  demand : p .demand ∨ (t.dm.zones, t.dm.circuit) = (s.dm.zones, s.dm.circuit)
  draw : p .draw ∨ (t.dm.draw, t.dm.diverter, t.dm.frost) = (s.dm.draw, s.dm.diverter, s.dm.frost)
  iAcc : s.mu.iAcc ≤ 100000 → t.mu.iAcc ≤ 100000
  stage : p .stage ∨ p .demand ∨ t.mu.stages = s.mu.stages
  sound : ListSound s.fm.active → ListSound t.fm.active
  locked : p .unlock ∨ (s.fm.lockout.state ≠ .none → t.fm.lockout.state ≠ .none)
  resetsLength : s.fm.resets.length ≤ 5 → t.fm.resets.length ≤ 5
  about : ∀ src, p (.raise src) ∨ p (.clear src) ∨ (p .demand ∧ src = .zoneValve) ∨ p .unlock ∨ t.fm.about src = s.fm.about src
  past : p .history ∨ (∃ src, p (.raise src)) ∨ t.fm.past = s.fm.past
  lockout : p .reset ∨ p .unlock ∨ (∃ src, p (.raise src)) ∨ t.fm.lockout = s.fm.lockout
  resets : p .reset ∨ (t.fm.resets, t.fm.lastReset) = (s.fm.resets, s.fm.lastReset)
  press : p .press ∨ (t.fm.press, t.fm.armed) = (s.fm.press, s.fm.armed)
  lead : (i = true ∧ t.pe.leadCode = s.pe.leadCode) ∨ (i = false ∧ (p .codes ∨ LeadRel s t))
  code : (∃ src, p (.raise src)) ∨ (∃ src, p (.clear src)) ∨ p .unlock ∨ p .demand ∨ t.pe.leadCode = s.pe.leadCode
  link : p .link ∨ { t.zp with exch := none, port := .off } = { s.zp with exch := none, port := .off }
  exchange : p .link ∨ p .poll ∨ (t.zp.exch, t.zp.port) = (s.zp.exch, s.zp.port)
  round : p .poll ∨ (t.pe.round, t.pe.portReady) = (s.pe.round, s.pe.portReady)
  urgent : p .poll ∨ p .demand ∨ t.pe.urgent = s.pe.urgent
  nodesLength : t.pe.nodes.length = s.pe.nodes.length
  nodes : p .presence ∨ t.pe.nodes = s.pe.nodes
  outdoor : p .outdoor ∨ (t.pe.outdoor, t.pe.outdoorAt) = (s.pe.outdoor, s.pe.outdoorAt)
  slot : p .slot ∨ p .manage ∨ t.mg.slot = s.mg.slot
  manage : p .manage ∨ { t.mg with slot := {} } = { s.mg with slot := {} }
  countersLength : t.st.counters.length = s.st.counters.length
  counters : p .counts ∨ t.st.counters = s.st.counters
  tables : p .tables ∨ (t.st.curve, t.st.zones, t.st.nodes, t.st.poll) = (s.st.curve, s.st.zones, s.st.nodes, s.st.poll)
  settings : p .settings ∨ t.st.settings = s.st.settings
  codes : p .codes ∨ t.st.faultCodes = s.st.faultCodes
  store : p .store ∨ (t.nv, t.st.safety, t.st.loaded, t.st.paramFault, t.st.storeFault, t.st.lastDrop, t.st.dropAt)
    = (s.nv, s.st.safety, s.st.loaded, s.st.paramFault, s.st.storeFault, s.st.lastDrop, s.st.dropAt)
  fits : s.st.jobs.length ≤ Config.queuePlaces → t.st.jobs.length ≤ Config.queuePlaces
  stands : p .store ∨ ∀ page, JobStands s page → JobStands t page
  write : p .store ∨ ∀ w, s.st.write = some w → t.st.write = some w

/-! ### Composition -/

theorem LeadDelivered.of_listed {s t : State} (hl : t.listed = s.listed) (hc : t.pe.leadCode = s.pe.leadCode)
    (hf : t.st.faultCodes = s.st.faultCodes) (h : LeadDelivered s) : LeadDelivered t := by
  have hget : ∀ (i : Nat) (q : Record), t.fm.active[i]? = some q →
      ∃ q', s.fm.active[i]? = some q' ∧ q'.source = q.source ∧ q'.cls = q.cls := by
    intro i q hq
    have hi : t.listed[i]? = some (q.source, q.cls) := by simp [State.listed, hq]
    rw [hl] at hi
    simp only [State.listed, List.getElem?_map, Option.map_eq_some_iff, Prod.mk.injEq] at hi
    obtain ⟨q', h1, h2, h3⟩ := hi
    exact ⟨q', h1, h2, h3⟩
  have hget' : ∀ (i : Nat) (q : Record), s.fm.active[i]? = some q →
      ∃ q', t.fm.active[i]? = some q' ∧ q'.source = q.source ∧ q'.cls = q.cls := by
    intro i q hq
    have hi : s.listed[i]? = some (q.source, q.cls) := by simp [State.listed, hq]
    rw [← hl] at hi
    simp only [State.listed, List.getElem?_map, Option.map_eq_some_iff, Prod.mk.injEq] at hi
    obtain ⟨q', h1, h2, h3⟩ := hi
    exact ⟨q', h1, h2, h3⟩
  refine ⟨fun he => ?_, fun i r hr hmax => ?_⟩
  · have : s.fm.active = [] := by
      have := congrArg List.length hl
      simpa [State.listed, he] using this.symm
    rw [hc, h.1 this]
  · obtain ⟨r', hr', hs', hc'⟩ := hget i r hr
    rw [hc, hf, ← hs']
    refine h.2 i r' hr' fun j q hq => ?_
    obtain ⟨q', hq', -, hcls⟩ := hget' j q hq
    rw [hc', ← hcls]
    exact hmax j q' hq'

theorem LeadRel.trans {s t u : State} (hf : u.st.faultCodes = t.st.faultCodes) (h₁ : LeadRel s t) (h₂ : LeadRel t u) :
    LeadRel s u := by
  rcases h₂ with ⟨hl, hc⟩ | h₂
  · rcases h₁ with ⟨hl', hc'⟩ | h₁
    · exact .inl ⟨hl.trans hl', hc.trans hc'⟩
    · exact .inr (h₁.of_listed hl hc hf)
  · exact .inr h₂

variable {i : Bool} {p : Touch → Prop} {s t u : State}

theorem Acts.refl : Acts i p s s := by
  constructor
  case lead => cases i <;> simp [LeadRel]
  all_goals simp

theorem Acts.mono {q : Touch → Prop} (hpq : ∀ x, p x → q x) (h : Acts i p s t) : Acts i q s t := by
  constructor
  case about =>
    intro src
    have := h.about src
    have h1 := hpq (.raise src)
    have h2 := hpq (.clear src)
    have h3 := hpq .demand
    have h4 := hpq .unlock
    tauto
  case past => exact h.past.imp (hpq _) (.imp (.imp fun _ => hpq _) id)
  case lockout => exact h.lockout.imp (hpq _) (.imp (hpq _) (.imp (.imp fun _ => hpq _) id))
  case lead => exact h.lead.imp id (.imp id (.imp (hpq _) id))
  case code => exact h.code.imp (.imp fun _ => hpq _) (.imp (.imp fun _ => hpq _) (.imp (hpq _) (.imp (hpq _) id)))
  case output => exact h.output.imp (hpq _) (.imp (hpq _) id)
  case integral => exact h.integral.imp (hpq _) (.imp (hpq _) (.imp (hpq _) id))
  case stage => exact h.stage.imp (hpq _) (.imp (hpq _) id)
  case exchange => exact h.exchange.imp (hpq _) (.imp (hpq _) id)
  case urgent => exact h.urgent.imp (hpq _) (.imp (hpq _) id)
  case slot => exact h.slot.imp (hpq _) (.imp (hpq _) id)
  case power => exact h.power
  case plant => exact h.plant
  case mpRange => exact h.mpRange
  case fanDuty => exact h.fanDuty
  case fanDev => exact h.fanDev
  case zonesLength => exact h.zonesLength
  case idle => exact h.idle
  case iAcc => exact h.iAcc
  case sound => exact h.sound
  case resetsLength => exact h.resetsLength
  case nodesLength => exact h.nodesLength
  case countersLength => exact h.countersLength
  case fits => exact h.fits
  case clock => exact h.clock.imp (hpq _) id
  case line => exact h.line.imp (hpq _) id
  case frame => exact h.frame.imp (hpq _) id
  case mp => exact h.mp.imp (hpq _) id
  case gas1 => exact h.gas1.imp (hpq _) id
  case gas2 => exact h.gas2.imp (hpq _) id
  case enter => exact h.enter.imp (hpq _) id
  case marks => exact h.marks.imp (hpq _) id
  case commit => exact h.commit.imp (hpq _) id
  case startUp => exact h.startUp.imp (hpq _) id
  case calls => exact h.calls.imp (hpq _) id
  case demand => exact h.demand.imp (hpq _) id
  case draw => exact h.draw.imp (hpq _) id
  case locked => exact h.locked.imp (hpq _) id
  case resets => exact h.resets.imp (hpq _) id
  case press => exact h.press.imp (hpq _) id
  case link => exact h.link.imp (hpq _) id
  case round => exact h.round.imp (hpq _) id
  case nodes => exact h.nodes.imp (hpq _) id
  case outdoor => exact h.outdoor.imp (hpq _) id
  case manage => exact h.manage.imp (hpq _) id
  case counters => exact h.counters.imp (hpq _) id
  case tables => exact h.tables.imp (hpq _) id
  case settings => exact h.settings.imp (hpq _) id
  case codes => exact h.codes.imp (hpq _) id
  case store => exact h.store.imp (hpq _) id
  case stands => exact h.stands.imp (hpq _) id
  case write => exact h.write.imp (hpq _) id

theorem Acts.trans (h₁ : Acts i p s t) (h₂ : Acts i p t u) : Acts i p s u := by
  have keep : ∀ {c : Prop} {α : Type} {a b d : α}, c ∨ b = a → c ∨ d = b → c ∨ d = a := by
    rintro c α a b d (h | rfl) (h' | rfl) <;> simp [*]
  have imp : ∀ {c a b d : Prop}, c ∨ (b → a) → c ∨ (d → b) → c ∨ (d → a) := by tauto
  constructor
  case power => exact h₂.power.trans h₁.power
  case plant => exact h₂.plant.trans h₁.plant
  case clock => exact keep h₁.clock h₂.clock
  case line => exact keep h₁.line h₂.line
  case frame => exact keep h₁.frame h₂.frame
  case mp => exact keep h₁.mp h₂.mp
  case mpRange => exact h₂.mpRange ∘ h₁.mpRange
  case fanDuty => exact h₂.fanDuty ∘ h₁.fanDuty
  case fanDev => exact h₂.fanDev ∘ h₁.fanDev
  case gas1 => exact imp h₁.gas1 h₂.gas1
  case gas2 => exact imp h₁.gas2 h₂.gas2
  case enter => exact imp h₁.enter h₂.enter
  case output =>
    have h3 := h₁.output
    have h4 := h₂.output
    have h5 := h₂.enter
    by_cases he : p .enter
    · exact .inl he
    simp only [he, false_or] at *
    rcases h3 with h3 | h3
    · exact .inl h3
    rcases h4 with h4 | h4
    · exact .inl h4
    · exact .inr fun h => (h4 h).trans (h3 (h5 h))
  case integral =>
    have h3 := h₁.integral
    have h4 := h₂.integral
    have h5 := h₂.enter
    by_cases he : p .enter
    · exact .inl he
    simp only [he, false_or] at *
    rcases h3 with h3 | h3 | h3
    · exact .inl h3
    · exact .inr (.inl h3)
    rcases h4 with h4 | h4 | h4
    · exact .inl h4
    · exact .inr (.inl h4)
    · exact .inr (.inr fun h => (h4 h).trans (h3 (h5 h)))
  case marks => exact keep h₁.marks h₂.marks
  case commit => exact keep h₁.commit h₂.commit
  case startUp => exact keep h₁.startUp h₂.startUp
  case zonesLength => exact h₂.zonesLength.trans h₁.zonesLength
  case idle => exact h₂.idle ∘ h₁.idle
  case calls => exact keep h₁.calls h₂.calls
  case demand => exact keep h₁.demand h₂.demand
  case draw => exact keep h₁.draw h₂.draw
  case iAcc => exact h₂.iAcc ∘ h₁.iAcc
  case stage => simpa [or_assoc] using keep (or_assoc.2 h₁.stage) (or_assoc.2 h₂.stage)
  case sound => exact h₂.sound ∘ h₁.sound
  case locked =>
    rcases h₁.locked with h | h
    · exact .inl h
    · exact h₂.locked.imp id fun h' => h' ∘ h
  case resetsLength => exact h₂.resetsLength ∘ h₁.resetsLength
  case about =>
    intro src
    have h3 := h₁.about src
    have h4 := h₂.about src
    grind
  case past =>
    have h3 := h₁.past
    have h4 := h₂.past
    grind
  case lockout =>
    have h3 := h₁.lockout
    have h4 := h₂.lockout
    grind
  case resets => exact keep h₁.resets h₂.resets
  case press => exact keep h₁.press h₂.press
  case lead =>
    rcases h₁.lead with ⟨hi, h⟩ | ⟨hi, h⟩
    · rcases h₂.lead with ⟨-, h'⟩ | ⟨hi', -⟩
      · exact .inl ⟨hi, h'.trans h⟩
      · exact absurd (hi.symm.trans hi') nofun
    · rcases h₂.lead with ⟨hi', -⟩ | ⟨-, h'⟩
      · exact absurd (hi.symm.trans hi') nofun
      · refine .inr ⟨hi, ?_⟩
        rcases h, h', h₂.codes with ⟨h | h, h' | h', hc | hc⟩
        all_goals first | exact .inl ‹_› | exact .inr (h.trans hc h')
  case code =>
    have h3 := h₁.code
    have h4 := h₂.code
    grind
  case link => exact keep h₁.link h₂.link
  case exchange => simpa [or_assoc] using keep (or_assoc.2 h₁.exchange) (or_assoc.2 h₂.exchange)
  case round => exact keep h₁.round h₂.round
  case urgent => simpa [or_assoc] using keep (or_assoc.2 h₁.urgent) (or_assoc.2 h₂.urgent)
  case nodesLength => exact h₂.nodesLength.trans h₁.nodesLength
  case nodes => exact keep h₁.nodes h₂.nodes
  case outdoor => exact keep h₁.outdoor h₂.outdoor
  case slot => simpa [or_assoc] using keep (or_assoc.2 h₁.slot) (or_assoc.2 h₂.slot)
  case manage => exact keep h₁.manage h₂.manage
  case countersLength => exact h₂.countersLength.trans h₁.countersLength
  case counters => exact keep h₁.counters h₂.counters
  case tables => exact keep h₁.tables h₂.tables
  case settings => exact keep h₁.settings h₂.settings
  case codes => exact keep h₁.codes h₂.codes
  case store => exact keep h₁.store h₂.store
  case fits => exact h₂.fits ∘ h₁.fits
  case stands =>
    rcases h₁.stands with h | h
    · exact .inl h
    · exact h₂.stands.imp id fun h' page => h' page ∘ h page
  case write =>
    rcases h₁.write with h | h
    · exact .inl h
    · exact h₂.write.imp id fun h' w => h' w ∘ h w

end Sys2Proof.Machine

/-! SUPPORT. What each operation of MU and BS touches. -/

namespace Sys2Proof.Machine

variable {i : Bool} {p : Touch → Prop} {s₀ s : State}

/-! ### Updates of one block -/

theorem Acts.ite {c : Prop} [Decidable c] {a b : State} (ha : c → Acts i p s₀ a) (hb : ¬c → Acts i p s₀ b) :
    Acts i p s₀ (if c then a else b) := by
  split
  · exact ha ‹_›
  · exact hb ‹_›

theorem Acts.foldl {α : Type} {f : State → α → State} (hf : ∀ {s} a, Acts i p s₀ s → Acts i p s₀ (f s a)) (l : List α)
    (h : Acts i p s₀ s) : Acts i p s₀ (l.foldl f s) := by
  induction l generalizing s with
  | nil => exact h
  | cons a l ih => exact ih (hf a h)

/-- The fields of BS that `Acts` speaks of. -/
def Bs.guard (b : Bs) : Bs :=
  { state := b.state, gas1 := b.gas1, gas2 := b.gas2, limitMark := b.limitMark, overheatMark := b.overheatMark
    fanDev := b.fanDev, fanTarget := b.fanTarget, fanDuty := b.fanDuty
    inhibit := { commitHold := b.inhibit.commitHold, startUp := b.inhibit.startUp } }

/-- The fields of DM that `Acts` speaks of. -/
def Dm.guard (d : Dm) : Dm :=
  { zones := d.zones, draw := d.draw, diverter := d.diverter, frost := d.frost, circuit := d.circuit, idle := d.idle }

/-- The fields of FM that `Acts` speaks of. -/
def Fm.guard (f : Fm) : Fm := { f with cond := [], writeOut := false, reLock := false, reHist := false }

theorem Acts.onBs {f : Bs → Bs} (h : Acts i p s₀ s) (hf : ∀ b, (f b).guard = b.guard) : Acts i p s₀ (s.onBs f) := by
  have hf := hf s.bs
  simp only [Bs.guard, Bs.mk.injEq, Inhibit.mk.injEq, true_and, and_true] at hf
  obtain ⟨h1, h2, h3, ⟨h4, h5⟩, h6, h7, h8, h9, h10⟩ := hf
  exact h.trans
    { (Acts.refl : Acts i p s s) with
      fanDuty := by simp [h10]
      fanDev := by simp [h8]
      gas1 := by simp [h2]
      gas2 := by simp [h3]
      enter := by simp [h1]
      output := by simp [State.output, h9]
      integral := by simp
      marks := by simp [h6, h7]
      commit := by simp [h4]
      startUp := by simp [h5] }

theorem Acts.onDm {f : Dm → Dm} (h : Acts i p s₀ s) (hf : ∀ d, (f d).guard = d.guard) : Acts i p s₀ (s.onDm f) := by
  have hf := hf s.dm
  simp only [Dm.guard, Dm.mk.injEq, true_and] at hf
  obtain ⟨h1, h2, h3, h4, h5, h6⟩ := hf
  exact h.trans
    { (Acts.refl : Acts i p s s) with
      zonesLength := by simp [h1]
      idle := by simp [h6]
      calls := by simp [h1]
      demand := by simp [h1, h5]
      draw := by simp [h2, h3, h4] }

/-- Outside RUN MU's outputs may change freely. -/
theorem Acts.onMu {f : Mu → Mu} (h : Acts i p s₀ s) (hs : s.bs.state ≠ .run)
    (hf : ∀ m, (f m).stages = m.stages) (hi : ∀ m, m.iAcc ≤ 100000 → (f m).iAcc ≤ 100000) : Acts i p s₀ (s.onMu f) :=
  h.trans
    { (Acts.refl : Acts i p s s) with
      output := .inr (.inr fun h => absurd h hs)
      integral := .inr (.inr (.inr fun h => absurd h hs))
      iAcc := hi _
      stage := .inr (.inr (hf _)) }

theorem Acts.onCyc {f : Cycle → Cycle} (h : Acts i p s₀ s) : Acts i p s₀ (s.onCyc f) :=
  h.trans { (Acts.refl : Acts i p s s) with }

theorem Acts.onFm {f : Fm → Fm} (h : Acts i p s₀ s) (hf : ∀ m, (f m).guard = m.guard) : Acts i p s₀ (s.onFm f) := by
  have hf := hf s.fm
  simp only [Fm.guard, Fm.mk.injEq, true_and] at hf
  obtain ⟨h1, h2, h3, h4, h5, h6, h7, h8, h9, h10, h11, h12, h13, h14, h15⟩ := hf
  have hb : ∀ src, (f s.fm).blockTimer src = s.fm.blockTimer src := by
    intro src
    cases src <;> simp [Fm.blockTimer, *]
  have hl : (s.onFm f).listed = s.listed := by simp [State.listed, h1]
  exact h.trans
    { (Acts.refl : Acts i p s s) with
      sound := by simp [h1]
      locked := by simp [h7]
      resetsLength := by simp [h8]
      about := by simp [Fm.about, hb, h1]
      past := by simp [Fm.past, *]
      lockout := by simp [h7]
      resets := by simp [h8, h9]
      press := by simp [h14, h15]
      lead := by cases i <;> simp [LeadRel, hl] }

theorem Acts.reach {t : Nat} (h : Acts i p s₀ s) (hp : p .clock) : Acts i p s₀ (s.reach t) :=
  h.trans { (Acts.refl : Acts i p s s) with clock := .inl hp }

theorem Acts.onClock {f : Clock → Clock} (h : Acts i p s₀ s) (hp : p .clock) : Acts i p s₀ (s.onClock f) :=
  h.trans { (Acts.refl : Acts i p s s) with clock := .inl hp }


/-! ### MU -/

theorem muStage1_acts (hd : p .stage ∨ p .demand) (h : Acts i p s₀ s) : Acts i p s₀ (muStage1 s) := by
  have upd : ∀ f : Mu → Mu, (f s.mu).iAcc = s.mu.iAcc → (s.onMu f).output = s.output → Acts i p s₀ (s.onMu f) :=
    fun f hi ho => h.trans
      { (Acts.refl : Acts i p s s) with
        output := .inr (.inr fun _ => ho)
        integral := .inr (.inr (.inr fun _ => hi))
        iAcc := by simp [hi]
        stage := by tauto }
  simp only [muStage1]
  split
  · exact upd _ rfl rfl
  · exact upd _ rfl rfl
  · exact h
  · exact h

theorem clamp_iAcc (x : Int) : (clamp 0 100000 x).toNat ≤ 100000 := by
  simp only [clamp]
  split
  · decide
  · split <;> omega

theorem clampNat_iAcc (x : Nat) : clampNat 0 100000 x ≤ 100000 := by
  simp only [clampNat]
  split
  · decide
  · split <;> omega

theorem integrate_le (s : State) (e : Int) (c : Nat) (h : s.mu.iAcc ≤ 100000) : s.integrate e c ≤ 100000 := by
  simp only [State.integrate]
  split
  · exact h
  · exact clamp_iAcc _

theorem muCompute_acts (hp : p .stage) (h : Acts i p s₀ s) : Acts i p s₀ (muCompute s) := by
  have h1 := muStage1_acts (.inl hp) h
  refine h1.trans
    { (Acts.refl : Acts i p (muStage1 s) (muStage1 s)) with
      output := .inr (.inr fun _ => rfl)
      integral := .inr (.inr (.inl hp))
      iAcc := fun hle => ?_
      stage := .inl hp }
  show (match (if (muStage1 s).dm.circuit = .ch then (muStage1 s).errorOf else none) with
    | some x => (muStage1 s).integrate x (muStage1 s).ceilingOf.1
    | none => (muStage1 s).mu.iAcc) ≤ 100000
  split
  · exact integrate_le _ _ _ hle
  · exact hle

theorem muPreset_acts (u : Nat) (hp : p .demand ∨ p .enter) (h : Acts i p s₀ s) : Acts i p s₀ (muPreset u s) := by
  have upd : ∀ n k, n ≤ 100000 → Acts i p s₀ { s.onMu (fun m => { m with iAcc := n }) with free := k } := fun n k hn => h.trans
    { (Acts.refl : Acts i p s s) with
      output := .inr (.inr fun _ => rfl)
      integral := by tauto
      iAcc := fun _ => hn }
  simp only [muPreset]
  split
  · exact upd _ s.free (clamp_iAcc _)
  · exact upd _ _ (clampNat_iAcc _)

theorem setFanTarget_acts (n : Nat) (hs : s.bs.state ≠ .run ∨ p .output ∨ p .enter) (h : Acts i p s₀ s) :
    Acts i p s₀ (setFanTarget n s) :=
  h.trans
    { (Acts.refl : Acts i p s s) with
      fanDuty := by
        intro hd
        show (if n = 0 then 0 else s.bs.fanDuty) ≤ 1000
        split
        · exact Nat.zero_le _
        · exact hd
      output := by
        rcases hs with hs | hs | hs
        · exact .inr (.inr fun h => absurd h hs)
        · exact .inr (.inl hs)
        · exact .inl hs }

/-- MU's outputs set, in a scope that allows it. -/
theorem Acts.onMu_output {f : Mu → Mu} (h : Acts i p s₀ s) (hp : p .output ∨ p .enter)
    (hf : ∀ m, (f m).stages = m.stages) (hi : ∀ m, (f m).iAcc = m.iAcc) : Acts i p s₀ (s.onMu f) :=
  h.trans
    { (Acts.refl : Acts i p s s) with
      output := by tauto
      integral := .inr (.inr (.inr fun _ => hi _))
      iAcc := by simp [hi]
      stage := .inr (.inr (hf _)) }

theorem entryOutput_acts (u : Nat) (hp : p .output ∨ p .enter) (h : Acts i p s₀ s) : Acts i p s₀ (entryOutput u s) :=
  setFanTarget_acts _ (.inr hp) (h.onMu_output hp (fun _ => rfl) fun _ => rfl)

theorem onPhaseStart_acts (h : Acts i p s₀ s) : Acts i p s₀ (onPhaseStart s) := h.onCyc

theorem cycleInactive_acts (h : Acts i p s₀ s) : Acts i p s₀ (cycleInactive s) := h.onCyc

theorem muRunEntry_acts (hp : p .enter) (h : Acts i p s₀ s) : Acts i p s₀ (muRunEntry s) := by
  simp only [muRunEntry]
  repeat' split
  · exact entryOutput_acts _ (.inr hp) (onPhaseStart_acts h)
  · exact entryOutput_acts _ (.inr hp) (cycleInactive_acts h)
  · exact entryOutput_acts _ (.inr hp) (muPreset_acts _ (.inr hp) h)
  · exact entryOutput_acts _ (.inr hp) h
  · exact entryOutput_acts _ (.inr hp) h

theorem muStabiliseEntry_acts (hs : s.bs.state ≠ .run) (h : Acts i p s₀ s) : Acts i p s₀ (muStabiliseEntry s) :=
  h.onMu hs (fun _ => rfl) fun _ => id

theorem muRest_acts (hs : s.bs.state ≠ .run) (h : Acts i p s₀ s) :
    Acts i p s₀ (s.onMu fun m => { m with iAcc := 0, uPrev := 0, uOut := 0 }) :=
  h.onMu hs (fun _ => rfl) fun _ _ => Nat.zero_le _

theorem muReturn_acts (hs : s.bs.state ≠ .run) (h : Acts i p s₀ s) : Acts i p s₀ (muReturn s) := by
  simp only [muReturn]
  split
  · exact h.onMu hs (fun _ => rfl) fun _ => id
  · exact cycleInactive_acts (muRest_acts hs h)

theorem muLockout_acts (hs : s.bs.state ≠ .run) (h : Acts i p s₀ s) : Acts i p s₀ (muLockout s) := by
  simp only [muLockout]
  split
  · exact cycleInactive_acts (muRest_acts hs (Acts.onDm h fun _ => rfl))
  · exact cycleInactive_acts (muRest_acts hs (Acts.onDm (Acts.onDm h fun _ => rfl) fun _ => rfl))

theorem muCircuit_acts (old : Circuit) (hp : p .demand) (h : Acts i p s₀ s) : Acts i p s₀ (muCircuit old s) := by
  have off : s.bs.state ≠ .run → Acts i p s₀ (cycleInactive (s.onMu fun m => { m with iAcc := 0 })) :=
    fun hs => cycleInactive_acts (h.onMu hs (fun _ => rfl) fun _ _ => Nat.zero_le _)
  simp only [muCircuit, beq_iff_eq]
  repeat' split
  · exact h.onCyc
  · exact off ‹_›
  · exact muPreset_acts _ (.inl hp) (muStage1_acts (.inr hp) h)
  · exact h
  · exact muPreset_acts _ (.inl hp) (muStage1_acts (.inr hp) h)
  · exact h
  · exact h
  · exact off ‹_›
  · exact h

/-! ### BS -/

theorem setMismatch_acts (r : Relay) (t : Timer) (m : Bool) (h : Acts i p s₀ s) : Acts i p s₀ (setMismatch r t m s) := by
  cases r <;> exact h.onBs fun _ => rfl

theorem mismatchSync_acts (r : Relay) (h : Acts i p s₀ s) : Acts i p s₀ (mismatchSync r s) := by
  simp only [mismatchSync]
  repeat' split
  · exact setMismatch_acts _ _ _ h
  · exact h
  · exact setMismatch_acts _ _ _ h

theorem relaySync_acts (h : Acts i p s₀ s) : Acts i p s₀ (relaySync s) := mismatchSync_acts _ (mismatchSync_acts _ h)

theorem gasOff_acts (h : Acts i p s₀ s) :
    Acts i p s₀ (s.onBs fun b => { b with gas1 := false, gas2 := false, spark := false }) :=
  h.trans
    { (Acts.refl : Acts i p s s) with
      gas1 := .inr nofun
      gas2 := .inr nofun }

theorem safeOff_acts (h : Acts i p s₀ s) : Acts i p s₀ (safeOff s) := by
  simp only [safeOff]
  split
  · exact relaySync_acts (gasOff_acts (h.onBs fun _ => rfl))
  · exact relaySync_acts (gasOff_acts h)

theorem setAntiCycle_acts (v : Bool) (h : Acts i p s₀ s) : Acts i p s₀ (s.setAntiCycle v) := h.onBs fun _ => rfl

theorem antiCycleStart_acts (h : Acts i p s₀ s) : Acts i p s₀ (antiCycleStart s) := by
  simp only [antiCycleStart]
  split <;> exact setAntiCycle_acts _ (h.onDm fun _ => rfl)

theorem pumpOverrunStart_acts (h : Acts i p s₀ s) : Acts i p s₀ (pumpOverrunStart s) := by
  simp only [pumpOverrunStart]
  exact h.onDm fun _ => rfl

theorem dmDeparture_acts (c : Cause) (o : Bool) (h : Acts i p s₀ s) : Acts i p s₀ (dmDeparture c o s) := by
  simp only [dmDeparture]
  repeat' split
  · exact antiCycleStart_acts (pumpOverrunStart_acts (h.onDm fun _ => rfl))
  · exact pumpOverrunStart_acts (h.onDm fun _ => rfl)
  · exact h.onDm fun _ => rfl

theorem dmFiring_acts (h : Acts i p s₀ s) : Acts i p s₀ (dmFiring s) := by
  simp only [dmFiring]
  split
  · exact h
  · exact h.onDm fun _ => rfl

@[simp] theorem dmDeparture_state (c : Cause) (o : Bool) (s : State) : (dmDeparture c o s).bs.state = s.bs.state :=
  drive_state (dmDeparture_drive c o s)

@[simp] theorem dmFiring_bs (s : State) : (dmFiring s).bs = s.bs := by
  simp only [dmFiring]
  split <;> rfl

theorem bsReport_acts (w : Bool) (c : Cause) (o : Bool) (hr : s.bs.state ≠ .run ∨ p .enter) (h : Acts i p s₀ s) :
    Acts i p s₀ (bsReport w c o s) := by
  simp only [bsReport]
  have h1 : Acts i p s₀ (if (w && !firing s.bs) = true then dmDeparture c o s else s) :=
    .ite (fun _ => dmDeparture_acts c o h) fun _ => h
  have e1 : (if (w && !firing s.bs) = true then dmDeparture c o s else s).bs.state = s.bs.state := by split <;> simp
  generalize (if (w && !firing s.bs) = true then dmDeparture c o s else s) = s1 at h1 e1 ⊢
  have h2 : Acts i p s₀ (if firing s1.bs = true then dmFiring s1 else s1) := .ite (fun _ => dmFiring_acts h1) fun _ => h1
  have e2 : (if firing s1.bs = true then dmFiring s1 else s1).bs.state = s.bs.state := by split <;> simp [e1]
  generalize (if firing s1.bs = true then dmFiring s1 else s1) = s2 at h2 e2 ⊢
  split
  case _ hs => exact muStabiliseEntry_acts (by simp [hs]) h2
  case h_2 hs =>
    rcases hr with hr | hr
    · exact absurd (e2.symm.trans hs) hr
    · exact muRunEntry_acts hr h2
  case _ hs => exact muReturn_acts (by simp [hs]) h2
  case _ hs => exact muReturn_acts (by simp [hs]) h2
  case _ hs => exact muLockout_acts (by simp [hs]) h2
  all_goals exact h2

theorem bsMove_acts (st : BurnerState) (c : Cause) (o : Bool) (hr : st ≠ .run ∨ p .enter) (h : Acts i p s₀ s) :
    Acts i p s₀ (bsMove st c o s) := by
  simp only [bsMove]
  have h1 : Acts i p s₀ (if st = .stabilise ∨ st = .run then s else safeOff s) := .ite (fun _ => h) fun _ => safeOff_acts h
  generalize (if st = .stabilise ∨ st = .run then s else safeOff s) = s1 at h1 ⊢
  refine bsReport_acts _ _ _ hr (h1.trans
    { (Acts.refl : Acts i p s1 s1) with
      fanDev := ?_
      enter := hr.symm.imp id fun hr h => absurd h hr
      output := hr.symm.imp id fun hr => .inr fun h => absurd h hr
      integral := hr.symm.imp id fun hr => .inr (.inr fun h => absurd h hr) })
  intro hd
  show (if st = .run then s1.bs.fanDev else 0) < _
  split
  · exact hd
  · decide

@[simp] theorem bsMove_state (st : BurnerState) (c : Cause) (o : Bool) (s : State) : (bsMove st c o s).bs.state = st := by
  have h := drive_state (bsReport_drive (firing s.bs) c o
    ((if st = .stabilise ∨ st = .run then s else safeOff s).onBs fun b =>
      { stopPhase b with state := st, fanDev := if st = .run then b.fanDev else 0 }))
  exact h

theorem toStandby_acts (c : Cause) (h : Acts i p s₀ s) : Acts i p s₀ (toStandby c s) :=
  setFanTarget_acts _ (.inl (by simp)) (bsMove_acts _ _ _ (.inl nofun) h)

theorem toPostPurge_acts (c : Cause) (o r : Bool) (h : Acts i p s₀ s) : Acts i p s₀ (toPostPurge c o r s) := by
  simp only [toPostPurge]
  exact Acts.onBs (setFanTarget_acts _ (.inl (by simp)) (bsMove_acts _ _ _ (.inl nofun) h)) fun _ => rfl

theorem faultStop_acts (h : Acts i p s₀ s) : Acts i p s₀ (faultStop s) := by
  simp only [faultStop]
  repeat' split
  all_goals with_reducible first | exact toPostPurge_acts _ _ _ h | exact toStandby_acts _ h | exact h

theorem lockoutEntry_acts (src : Source) (h : Acts i p s₀ s) : Acts i p s₀ (lockoutEntry src s) := by
  have h1 : Acts i p s₀ ((bsMove .lockout .lockout false s).onBs fun b => { b with retry := false }) :=
    Acts.onBs (bsMove_acts _ _ _ (.inl nofun) h) fun _ => rfl
  have e1 : ((bsMove .lockout .lockout false s).onBs fun b => { b with retry := false }).bs.state = .lockout :=
    bsMove_state _ _ _ _
  simp only [lockoutEntry]
  generalize ((bsMove .lockout .lockout false s).onBs fun b => { b with retry := false }) = s1 at h1 e1 ⊢
  have e2 : s1.bs.state ≠ .run := by simp [e1]
  repeat' split
  · exact h
  · exact setFanTarget_acts _ (.inl e2) (h1.onBs fun _ => rfl)
  · exact setFanTarget_acts _ (.inl e2) h1

theorem withdraw_acts (o : Bool) (h : Acts i p s₀ s) : Acts i p s₀ (withdraw o s) := by
  simp only [withdraw]
  have h1 : Acts i p s₀ (if s.bs.state = .postPurge ∧ o = false ∧ s.dm.burn.heating
        ∧ (s.dm.lastDeparture = some .flameLossRecycle ∨ s.dm.lastDeparture = some .ignitionFailure)
      then antiCycleStart s else s) := .ite (fun _ => antiCycleStart_acts h) fun _ => h
  generalize (if s.bs.state = .postPurge ∧ o = false ∧ s.dm.burn.heating
        ∧ (s.dm.lastDeparture = some .flameLossRecycle ∨ s.dm.lastDeparture = some .ignitionFailure)
      then antiCycleStart s else s) = s1 at h1 ⊢
  have h2 : Acts i p s₀ (s1.onBs fun b => { b with attempts := 0, recycles := 0, retry := false }) := h1.onBs fun _ => rfl
  generalize (s1.onBs fun b => { b with attempts := 0, recycles := 0, retry := false }) = s2 at h2 ⊢
  repeat' split
  all_goals with_reducible first | exact toPostPurge_acts _ _ _ h2 | exact toStandby_acts _ h2 | exact h2

theorem deliverRecord_acts (o : Bool) (h : Acts i p s₀ s) : Acts i p s₀ (deliverRecord o s) := by
  simp only [deliverRecord]
  split
  · exact withdraw_acts _ (h.onDm fun _ => rfl)
  · exact h.onDm fun _ => rfl

theorem toPrePurge_acts (h : Acts i p s₀ s) : Acts i p s₀ (toPrePurge s) := by
  simp only [toPrePurge]
  exact Acts.onBs (setFanTarget_acts _ (.inl (by simp)) (bsMove_acts _ _ _ (.inl nofun) h)) fun _ => rfl

theorem toIgnition_acts (h : Acts i p s₀ s) : Acts i p s₀ (toIgnition s) := by
  simp only [toIgnition]
  exact Acts.onBs (setFanTarget_acts _ (.inl (by simp)) (bsMove_acts _ _ _ (.inl nofun) h)) fun _ => rfl

theorem openGas_acts (hg : p .gas) (hs : s.bs.state ≠ .run ∨ p .enter) (h : Acts i p s₀ s) :
    Acts i p s₀ (openGas s) := by
  refine bsReport_acts _ _ _ (hs.imp (fun hs => ?_) id) (relaySync_acts (h.trans
    { (Acts.refl : Acts i p s s) with
      gas1 := .inl hg
      gas2 := .inl hg }))
  rwa [drive_state (relaySync_drive _)]

theorem toRun_acts (hp : p .enter) (h : Acts i p s₀ s) : Acts i p s₀ (toRun s) := bsMove_acts _ _ _ (.inr hp) h

theorem bump_acts (n : Nat) (hp : p .counts) (h : Acts i p s₀ s) : Acts i p s₀ (s.bump n) := by
  have length_updateAt : ∀ (l : List Nat) (n : Nat) f, (updateAt l n f).length = l.length := by
    intro l n f
    induction l generalizing n with
    | nil => rfl
    | cons x r ih => cases n <;> simp [updateAt, ih]
  exact h.trans
    { (Acts.refl : Acts i p s s) with
      countersLength := length_updateAt _ _ _
      counters := .inl hp }

theorem establishFlame_acts (hp : p .enter) (hc : p .counts) (h : Acts i p s₀ s) : Acts i p s₀ (establishFlame s) := by
  have h1 : Acts i p s₀ ((bsMove .stabilise .fault false (s.onBs fun b => { b with spark := false, attempts := 0 })).bump 2) :=
    bump_acts 2 hc (bsMove_acts .stabilise .fault false (.inl nofun) (h.onBs fun _ => rfl))
  have h2 := setFanTarget_acts (((bsMove .stabilise .fault false
    (s.onBs fun b => { b with spark := false, attempts := 0 })).bump 2).ignitionSpeed) (.inr (.inr hp)) h1
  simp only [establishFlame]
  split
  · exact toRun_acts hp h2
  · exact h2.onBs fun _ => rfl

theorem purgeStep_acts (h : Acts i p s₀ s) : Acts i p s₀ (purgeStep s) := by
  simp only [purgeStep]
  refine .ite (fun _ => ?_) fun _ => h.onBs fun _ => rfl
  split
  · exact h.onBs fun _ => rfl
  · exact .ite (fun _ => toIgnition_acts h) fun _ => h.onBs fun _ => rfl

theorem fanControl_acts (h : Acts i p s₀ s) : Acts i p s₀ (fanControl s) :=
  h.trans
    { (Acts.refl : Acts i p s s) with
      fanDuty := by
        intro _
        show (if s.bs.fanTarget = 0 then 0 else (clamp 0 1000 _).toNat) ≤ 1000
        simp only [clamp]
        repeat' split
        all_goals omega }

end Sys2Proof.Machine

/-! SUPPORT. What each operation of the store queue and of FM touches, with the determination of the lead fault. -/

namespace Sys2Proof.Machine

variable {i : Bool} {p : Touch → Prop} {s₀ s t : State}

/-! ### Parts of FM and the store -/

/-- The store apart from its queue. -/
def St.offQueue (t : St) : St := { t with jobs := [], lockJob := false, countersPending := false }

/-- FM apart from the history and the escalation lists. -/
def Fm.offPast (f : Fm) : Fm := { f with esc := [], ring := [], nextSlot := 0, nextSeq := 0, rePages := [] }

/-- FM apart from the active list. -/
def Fm.offList (f : Fm) : Fm := { f with active := [] }

/-- FM apart from the blocking timers. -/
def Fm.offTimers (f : Fm) : Fm :=
  { f with blockNotStopped := none, blockNoSpeed := none, blockDeviation := none, blockCirculation := none }

/-- FM apart from what a reset request changes. -/
def Fm.offReset (f : Fm) : Fm := { f with lockout := {}, resets := [], lastReset := none, reLock := false }

/-! ### The store queue -/

/-- Jobs added to the queue, the counters-pending mark aside. -/
theorem Acts.onJobs {f : St → St} (h : Acts i p s₀ s)
    (hf : ∀ t, (f t).offQueue = t.offQueue)
    (hl : s.st.lockJob = true → (f s.st).lockJob = true) (hj : ∀ j ∈ s.st.jobs, j ∈ (f s.st).jobs)
    (hn : s.st.jobs.length ≤ Config.queuePlaces → (f s.st).jobs.length ≤ Config.queuePlaces) :
    Acts i p s₀ (s.onSt f) := by
  have hf := hf s.st
  simp only [St.offQueue, St.mk.injEq, true_and] at hf
  obtain ⟨h1, h2, h3, h4, h5, h6, h7, h8, h9, h10, h11, h12, h13, h14⟩ := hf
  refine h.trans
    { (Acts.refl : Acts i p s s) with
      countersLength := by simp [h8]
      counters := by simp [h8]
      tables := by simp [*]
      settings := by simp [h2]
      codes := by simp [h7]
      store := by simp [*]
      lead := by cases i <;> simp [LeadRel, State.listed]
      fits := hn
      stands := .inr fun page hs => ?_
      write := .inr fun w hw => h9.trans hw }
  rcases hs with hs | ⟨w, hw, hp⟩
  · refine .inl ?_
    simp only [State.jobWaiting, State.onSt_st] at hs ⊢
    split at hs
    · exact (if_pos ‹_›).trans (hl hs)
    · rw [if_neg ‹_›]
      obtain ⟨j, hjm, hje⟩ := List.any_eq_true.1 hs
      exact List.any_eq_true.2 ⟨j, hj j hjm, hje⟩
  · exact .inr ⟨w, h9.trans hw, hp⟩

theorem offer_acts (page : Nat) (h : Acts i p s₀ s) : Acts i p s₀ (s.offer page) := by
  simp only [State.offer]
  split
  · exact h.onJobs (fun _ => rfl) (fun _ => rfl) (fun _ => id) id
  · split
    · exact h
    · rename_i hp hc
      refine h.onJobs (fun _ => rfl) id (fun j hj => List.mem_append_left _ hj) fun _ => ?_
      simp only [State.canTake, Bool.or_eq_true, Bool.not_eq_true', Bool.or_eq_false_iff, decide_eq_false_iff_not,
        not_or, not_and] at hc
      have hn := hc
      show (s.st.jobs ++ _).length ≤ _
      simp only [List.length_append, List.length_singleton, Config.queuePlaces] at *
      by_cases hw : s.jobWaiting page = true <;> simp_all

theorem offerCounters_acts (h : Acts i p s₀ s) : Acts i p s₀ s.offerCounters := by
  simp only [State.offerCounters]
  split
  · exact offer_acts _ h
  · exact h.onJobs (fun _ => rfl) id (fun _ => id) id

/-! ### The lead fault (R113) -/

theorem FaultClass.code_lt_three (c : FaultClass) : c.code < 3 := by cases c <;> decide

/-- The lead fault is the record than which none has a higher class and none of its class stands earlier. -/
theorem leadOf_eq {l : List Record} {i : Nat} {r : Record} (hr : l[i]? = some r)
    (hmax : ∀ (j : Nat) (q : Record), l[j]? = some q → q.cls.code < r.cls.code ∨ (q.cls = r.cls ∧ i ≤ j)) :
    leadOf l = some r := by
  obtain ⟨hi, hr'⟩ := List.getElem?_eq_some_iff.1 hr
  have first : ∀ c : FaultClass, r.cls = c → l.find? (fun q => q.cls == c) = some r := by
    intro c hc
    rw [List.find?_eq_some_iff_getElem]
    refine ⟨by simp [hc], i, hi, hr', fun j hj => ?_⟩
    have := hmax j l[j] (List.getElem?_eq_getElem _)
    rcases this with h | ⟨-, h⟩
    · rw [hc] at h
      simp only [Bool.not_eq_true', beq_eq_false_iff_ne]
      rintro he
      rw [he] at h
      exact absurd h (lt_irrefl _)
    · omega
  have none : ∀ c : FaultClass, r.cls.code < c.code → l.find? (fun q => q.cls == c) = none := by
    intro c hc
    rw [List.find?_eq_none]
    intro q hq
    obtain ⟨j, hj⟩ := List.mem_iff_getElem?.1 hq
    rcases hmax j q hj with h | ⟨h, -⟩
    · simp only [beq_iff_eq]
      rintro rfl
      omega
    · simp only [beq_iff_eq]
      rintro rfl
      rw [h] at hc
      exact absurd hc (lt_irrefl _)
  simp only [leadOf]
  cases hc : r.cls with
  | lockout => rw [first _ hc]
  | blocking => rw [none .lockout (by rw [hc]; decide), first _ hc]
  | warning =>
    rw [none .lockout (by rw [hc]; decide), none .blocking (by rw [hc]; decide)]
    have h0 : l[0]? = some l[0] := List.getElem?_eq_getElem _
    rcases hmax 0 _ h0 with h | ⟨-, h⟩
    · rw [hc] at h
      exact absurd h (Nat.not_lt_zero _)
    · obtain rfl : i = 0 := by omega
      rw [List.head?_eq_getElem?, hr]

theorem fmLead_delivered (s : State) : LeadDelivered (fmLead s) := by
  refine ⟨fun he => ?_, fun i r hr hmax => ?_⟩
  · have he : s.fm.active = [] := he
    show s.leadCode = 0
    rw [State.leadCode, he]
    rfl
  · have hl : leadOf s.fm.active = some r := leadOf_eq hr hmax
    show s.leadCode = _
    rw [State.leadCode, hl]
    rfl

theorem fmLead_acts (hp : p .demand) (h : Acts false p s₀ s) : Acts false p s₀ (fmLead s) :=
  h.trans
    { (Acts.refl : Acts false p s s) with
      lead := .inr ⟨rfl, .inr (.inr (fmLead_delivered s))⟩
      code := .inr (.inr (.inr (.inl hp))) }

/-- A change of the active list with the lead fault determined after it. -/
theorem Acts.lead_after (hp : (∃ src, p (.raise src)) ∨ (∃ src, p (.clear src)) ∨ p .unlock ∨ p .demand)
    (h : Acts true p s t) : Acts false p s (fmLead t) :=
  { h with
    lead := .inr ⟨rfl, .inr (.inr (fmLead_delivered t))⟩
    code := by tauto }

/-- A change that leaves the sources and classes of the active list as they were needs no new lead fault. -/
theorem Acts.of_listed (h : Acts true p s t) (hl : t.listed = s.listed) : Acts false p s t :=
  { h with
    lead := by
      rcases h.lead with ⟨-, hc⟩ | ⟨hf, -⟩
      · exact .inr ⟨rfl, .inr (.inl ⟨hl, hc⟩)⟩
      · exact absurd hf nofun }

/-! ### Raisings (R111) -/

theorem setBlocking_acts (v : Bool) (h : Acts i p s₀ s) : Acts i p s₀ (s.setBlocking v) := h.onBs fun _ => rfl

theorem fmSync_acts (h : Acts i p s₀ s) : Acts i p s₀ (fmSync s) := by
  simp only [fmSync]
  refine .ite (fun _ => .ite (fun _ => h) fun _ => faultStop_acts (setBlocking_acts _ h)) fun _ => setBlocking_acts _ h

/-- The history and the escalation lists changed, in a scope that allows it. -/
theorem Acts.onPast {f : Fm → Fm} (h : Acts i p s₀ s) (hp : p .history ∨ ∃ src, p (.raise src))
    (hf : ∀ m, (f m).offPast = m.offPast) :
    Acts i p s₀ (s.onFm f) := by
  have hf := hf s.fm
  simp only [Fm.offPast, Fm.mk.injEq, true_and] at hf
  obtain ⟨ha, -, h1, h2, h3, h4, hk, -, hr, hr', -, -, h5, h6⟩ := hf
  have hb : ∀ src, (f s.fm).blockTimer src = s.fm.blockTimer src := by
    intro src
    cases src <;> simp [Fm.blockTimer, *]
  have hl : (s.onFm f).listed = s.listed := by simp [State.listed, ha]
  exact h.trans
    { (Acts.refl : Acts i p s s) with
      sound := by simp [ha]
      locked := by simp [hk]
      resetsLength := by simp [hr]
      about := by simp [Fm.about, hb, ha]
      past := by tauto
      lockout := by simp [hk]
      resets := by simp [hr, hr']
      press := by simp [h5, h6]
      lead := by cases i <;> simp [LeadRel, hl] }

theorem offerHistory_acts (page : Nat) (hp : p .history ∨ ∃ src, p (.raise src)) (h : Acts i p s₀ s) :
    Acts i p s₀ (offerHistory page s) := by
  simp only [offerHistory]
  split
  · exact offer_acts _ h
  · exact h.onPast hp fun _ => rfl

theorem histAppend_acts (r : Record) (hp : p .history ∨ ∃ src, p (.raise src)) (h : Acts i p s₀ s) :
    Acts i p s₀ (histAppend r s) := by
  simp only [histAppend]
  exact offerHistory_acts _ hp (h.onPast hp fun _ => rfl)

theorem queueLockoutPage_acts (h : Acts i p s₀ s) : Acts i p s₀ (queueLockoutPage s) :=
  offer_acts _ (h.onFm fun _ => rfl)

theorem lockActive_acts (src : Source) (hp : p (.raise src)) (h : Acts i p s₀ s) : Acts i p s₀ (lockActive src s) :=
  h.trans
    { (Acts.refl : Acts i p s s) with
      locked := .inr fun _ => nofun
      lockout := .inr (.inr (.inl ⟨src, hp⟩)) }

theorem lockoutPath_acts (src : Source) (hp : p (.raise src)) (h : Acts i p s₀ s) : Acts i p s₀ (lockoutPath src s) := by
  simp only [lockoutPath]
  split
  · exact lockoutEntry_acts _ (offerCounters_acts (queueLockoutPage_acts (lockActive_acts _ hp h)))
  · exact lockoutEntry_acts _ h
  · exact queueLockoutPage_acts (lockActive_acts _ hp h)

theorem raiseEscalation_acts (src : Source) (hp : p (.raise src)) (h : Acts i p s₀ s) :
    Acts i p s₀ (raiseEscalation src s) := by
  simp only [raiseEscalation]
  exact .ite (fun _ => h.onPast (.inr ⟨src, hp⟩) fun _ => rfl) fun _ => h

/-- The records of one source changed, within a change of the list. -/
theorem Acts.onList {f : Fm → Fm} {src : Source} (h : Acts true p s₀ s) (hp : p (.raise src))
    (hf : ∀ m, (f m).offList = m.offList) (hs : ListSound s.fm.active → ListSound (f s.fm).active)
    (ho : ∀ x ≠ src, (f s.fm).active.filter (fun r => r.source == x) = s.fm.active.filter fun r => r.source == x) :
    Acts true p s₀ (s.onFm f) := by
  have hf := hf s.fm
  simp only [Fm.offList, Fm.mk.injEq, true_and] at hf
  obtain ⟨-, h1, h2, h3, h4, he, hk, -, hr, hr', hg, hn, hq, -, -, hp', h5, h6⟩ := hf
  have hb : ∀ x, (f s.fm).blockTimer x = s.fm.blockTimer x := by
    intro x
    cases x <;> simp [Fm.blockTimer, *]
  exact h.trans
    { (Acts.refl : Acts true p s s) with
      sound := hs
      locked := by simp [hk]
      resetsLength := by simp [hr]
      about := by
        intro x
        by_cases hx : x = src
        · exact .inl (hx ▸ hp)
        · exact .inr (.inr (.inr (.inr (by simp [Fm.about, hb, ho x hx]))))
      past := by simp [Fm.past, *]
      lockout := by simp [hk]
      resets := by simp [hr, hr']
      press := by simp [h5, h6]
      lead := .inl ⟨rfl, rfl⟩ }

theorem filter_map_source {g : Record → Record} {src : Source} (hg : ∀ r, (g r).source = r.source)
    (hk : ∀ r, r.source ≠ src → g r = r) (l : List Record) {x : Source} (hx : x ≠ src) :
    (l.map g).filter (fun r => r.source == x) = l.filter fun r => r.source == x := by
  induction l with
  | nil => rfl
  | cons r l ih =>
    simp only [List.map_cons, List.filter_cons, hg, ih]
    by_cases h : r.source = x
    · simp [h, hk r (by rw [h]; exact hx)]
    · simp [h]

theorem listSound_map {g : Record → Record} (hg : ∀ r, (g r).source = r.source)
    (hc : ∀ r, r.cls = .lockout → (g r).cls = .lockout) {l : List Record} (h : ListSound l) : ListSound (l.map g) := by
  obtain ⟨hn, hs⟩ := h
  refine ⟨by simpa [Function.comp_def, hg] using hn, fun r hr => ?_⟩
  obtain ⟨q, hq, rfl⟩ := List.mem_map.1 hr
  rw [hg]
  exact fun hs' => hc q (hs q hq hs')

theorem listSound_append {l : List Record} {r : Record} (hn : l.find? (fun q => q.source == r.source) = none)
    (hc : r.source.safety = true → r.cls = .lockout) (h : ListSound l) : ListSound (l ++ [r]) := by
  obtain ⟨hl, hs⟩ := h
  refine ⟨?_, fun q hq => ?_⟩
  · rw [List.map_append, List.nodup_append]
    refine ⟨hl, by simp, fun a ha b hb => ?_⟩
    obtain ⟨q, hq, rfl⟩ := List.mem_map.1 ha
    obtain rfl : b = r.source := by simpa using hb
    simpa using List.find?_eq_none.1 hn q hq
  · rcases List.mem_append.1 hq with hq | hq
    · exact hs q hq
    · obtain rfl : q = r := by simpa using hq
      exact hc

theorem raiseRecord_acts (src : Source) (detail : Nat) (hp : p (.raise src)) (h : Acts true p s₀ s) :
    Acts true p s₀ (raiseRecord src detail s) := by
  simp only [raiseRecord]
  split
  case h_1 hn =>
    have h1 : Acts true p s₀ (s.onFm fun f =>
        { f with
          active := f.active ++ [{ source := src, detail := detail, cls := s.newClass src, count := 1, first := s.time
                                   last := s.time }] }) := by
      refine h.onList hp (fun _ => rfl) (listSound_append hn fun hs => ?_) fun x hx => ?_
      · simp [State.newClass, hs]
      · simp [Ne.symm hx]
    exact .ite (fun _ => histAppend_acts _ (.inr ⟨src, hp⟩) h1) fun _ => h1
  case h_2 =>
    refine h.onList hp (fun _ => rfl) (listSound_map (fun r => ?_) fun r hr => ?_) fun x hx =>
      filter_map_source (src := src) (fun r => ?_) (fun r hr => ?_) _ hx
    · split <;> rfl
    · split <;> exact hr
    · split <;> rfl
    · simp [hr]

theorem setBlockTimer_acts (src : Source) (v : Timer) (hp : p (.raise src) ∨ p (.clear src)) (h : Acts i p s₀ s) :
    Acts i p s₀ (s.onFm fun f => f.setBlockTimer src v) := by
  have ho : (s.fm.setBlockTimer src v).offTimers = s.fm.offTimers := by cases src <;> rfl
  have hk : ∀ x ≠ src, (s.fm.setBlockTimer src v).blockTimer x = s.fm.blockTimer x := by
    intro x hx
    cases src <;> cases x <;> first | rfl | exact absurd rfl hx
  refine h.trans ?_
  show Acts i p s (s.onFm fun _ => s.fm.setBlockTimer src v)
  generalize s.fm.setBlockTimer src v = m at ho hk
  simp only [Fm.offTimers, Fm.mk.injEq, true_and] at ho
  obtain ⟨ha, -, he, hl, -, hr, hr', hg, hn, hq, -, -, hp', h5, h6⟩ := ho
  have hl' : (s.onFm fun _ => m).listed = s.listed := by simp [State.listed, ha]
  exact
    { (Acts.refl : Acts i p s s) with
      sound := by simp [ha]
      locked := by simp [hl]
      resetsLength := by simp [hr]
      about := by
        intro x
        by_cases hx : x = src
        · subst hx
          tauto
        · exact .inr (.inr (.inr (.inr (by simp [Fm.about, ha, hk x hx]))))
      past := by simp [Fm.past, *]
      lockout := by simp [hl]
      resets := by simp [hr, hr']
      press := by simp [h5, h6]
      lead := by cases i <;> simp [LeadRel, hl'] }

theorem raiseCondition_acts (src : Source) (hp : p (.raise src)) (h : Acts i p s₀ s) :
    Acts i p s₀ (raiseCondition src s) := by
  simp only [raiseCondition]
  split
  · split
    · exact setBlockTimer_acts _ _ (.inl hp) h
    · exact h
  · exact h.onFm fun _ => rfl

theorem escalateRecord_acts (src : Source) (hp : p (.raise src)) (h : Acts true p s₀ s) :
    Acts true p s₀ (escalateRecord src s) := by
  refine h.onList hp (fun _ => rfl) (listSound_map (fun r => ?_) fun r hr => ?_) fun x hx =>
    filter_map_source (src := src) (fun r => ?_) (fun r hr => ?_) _ hx
  · split <;> rfl
  · split <;> simp [hr]
  · split <;> rfl
  · simp [hr]

theorem raiseClass_acts (src : Source) (hp : p (.raise src)) (h : Acts true p s₀ s) :
    Acts true p s₀ (raiseClass src s) := by
  simp only [raiseClass]
  split
  · exact h
  · exact .ite (fun _ => lockoutPath_acts _ hp h) fun _ => .ite
      (fun _ => lockoutPath_acts _ hp (histAppend_acts _ (.inr ⟨src, hp⟩) (escalateRecord_acts _ hp h))) fun _ => h

theorem fmRaise_acts (src : Source) (detail : Nat) (hp : p (.raise src)) (h : Acts false p s₀ s) :
    Acts false p s₀ (fmRaise src detail s) := by
  have h2 : Acts true p s (fmSync (raiseClass src (raiseCondition src (raiseRecord src detail (raiseEscalation src s))))) :=
    fmSync_acts (raiseClass_acts _ hp (raiseCondition_acts _ hp (raiseRecord_acts _ _ hp (raiseEscalation_acts _ hp .refl))))
  refine h.trans ?_
  simp only [fmRaise]
  split
  · exact h2.of_listed ‹_›
  · exact h2.lead_after (.inl ⟨_, hp⟩)

/-! ### Clear reports (R112) -/

theorem removeRecord_acts (src : Source) (hp : p (.clear src) ∨ (p .demand ∧ src = .zoneValve))
    (h : Acts false p s₀ s) : Acts false p s₀ (removeRecord src s) := by
  simp only [removeRecord]
  split
  · exact h
  · refine .ite (fun _ => h) fun _ => h.trans (Acts.lead_after (hp.elim (fun h => .inr (.inl ⟨_, h⟩)) fun h => .inr (.inr (.inr h.1))) (fmSync_acts
      { (Acts.refl : Acts true p s s) with
        sound := ?_
        about := ?_
        lead := .inl ⟨rfl, rfl⟩ }))
    · rintro ⟨hn, hs⟩
      exact ⟨hn.sublist ((List.filter_sublist).map _), fun r hr => hs r (List.mem_of_mem_filter hr)⟩
    · intro x
      by_cases hx : x = src
      · subst hx
        tauto
      · refine .inr (.inr (.inr (.inr ?_)))
        show (List.filter _ (List.filter _ s.fm.active), s.fm.blockTimer x) = _
        rw [Fm.about, List.filter_filter]
        congr 1
        refine List.filter_congr fun r _ => ?_
        by_cases hr : r.source = x
        · simp [hr, hx]
        · simp [hr]

theorem fmClear_acts (src : Source) (hp : p (.clear src) ∨ (p .demand ∧ src = .zoneValve))
    (h : Acts false p s₀ s) : Acts false p s₀ (fmClear src s) :=
  removeRecord_acts src hp (h.onFm fun _ => rfl)

/-! ### Lockout reset (R119 to R124) -/

theorem offerResets_acts (h : Acts i p s₀ s) : Acts i p s₀ (offerResets s) := by
  simp only [offerResets]
  exact .ite (fun _ => offer_acts _ h) fun _ => h.onFm fun _ => rfl

/-- The lockout record, the reset history and the last result changed by a reset request. -/
theorem Acts.onReset {f : Fm → Fm} (h : Acts i p s₀ s) (hp : p .reset)
    (hf : ∀ m, (f m).offReset = m.offReset)
    (hl : s.fm.lockout.state ≠ .none → (f s.fm).lockout.state ≠ .none)
    (hr : s.fm.resets.length ≤ 5 → (f s.fm).resets.length ≤ 5) : Acts i p s₀ (s.onFm f) := by
  have hf := hf s.fm
  simp only [Fm.offReset, Fm.mk.injEq, true_and] at hf
  obtain ⟨ha, -, h1, h2, h3, h4, he, -, hg, hn, hq, -, hp', h5, h6⟩ := hf
  have hb : ∀ x, (f s.fm).blockTimer x = s.fm.blockTimer x := by
    intro x
    cases x <;> simp [Fm.blockTimer, *]
  have hs : (s.onFm f).listed = s.listed := by simp [State.listed, ha]
  exact h.trans
    { (Acts.refl : Acts i p s s) with
      sound := by simp [ha]
      locked := .inr hl
      resetsLength := hr
      about := by simp [Fm.about, hb, ha]
      past := by simp [Fm.past, *]
      lockout := .inl hp
      resets := .inl hp
      press := by simp [h5, h6]
      lead := by cases i <;> simp [LeadRel, hs] }

theorem resetAdd_length (t : Nat) {l : List Nat} (h : l.length ≤ 5) : (resetAdd t l).length ≤ 5 := by
  simp only [resetAdd]
  split
  · simp
    omega
  · omega

theorem resetAccept_acts (r : Rights) (hp : p .reset) (h : Acts i p s₀ s) : Acts i p s₀ (resetAccept r s) := by
  have h1 : Acts i p s₀ (s.onFm fun f => { f with lockout := { f.lockout with state := .resetPending }, reLock := false }) :=
    h.onReset hp (fun _ => rfl) (fun _ => nofun) id
  simp only [resetAccept]
  generalize (s.onFm fun f => { f with lockout := { f.lockout with state := .resetPending }, reLock := false }) = s1 at h1 ⊢
  have h2 : Acts i p s₀ (queueLockoutPage (if r = .service then s1 else s1.onFm fun f =>
      { f with resets := resetAdd s1.time f.resets })) :=
    queueLockoutPage_acts (.ite (fun _ => h1) fun _ => h1.onReset hp (fun _ => rfl) id (resetAdd_length _))
  exact .ite (fun _ => h2) fun _ => offerResets_acts h2

theorem fmReset_acts (r : Rights) (o : Origin) (hp : p .reset) (h : Acts i p s₀ s) : Acts i p s₀ (fmReset r o s) := by
  simp only [fmReset]
  refine Acts.onReset (.ite (fun _ => resetAccept_acts r hp h) fun _ => .ite (fun _ => queueLockoutPage_acts h) fun _ => h)
    hp (fun _ => rfl) id id

theorem resetComplete_acts (hp : p .unlock) (hh : p .history) (h : Acts false p s₀ s) :
    Acts false p s₀ (resetComplete s) := by
  have h1 : Acts true p s (s.onFm fun f =>
      { f with lockout := {}, active := f.active.filter (fun r => r.cls != .lockout), esc := List.replicate 26 [] }) :=
    { (Acts.refl : Acts true p s s) with
      sound := fun ⟨hn, hs⟩ => ⟨hn.sublist ((List.filter_sublist).map _), fun r hr => hs r (List.mem_of_mem_filter hr)⟩
      locked := .inl hp
      about := fun _ => .inr (.inr (.inr (.inl hp)))
      past := .inl hh
      lockout := .inr (.inl hp)
      lead := .inl ⟨rfl, rfl⟩ }
  refine h.trans ?_
  simp only [resetComplete]
  exact Acts.lead_after (.inr (.inr (.inl hp))) (fmSync_acts (toStandby_acts _ (Acts.onBs h1 fun _ => rfl)))

theorem clearRing_acts (hp : p .history) (h : Acts i p s₀ s) : Acts i p s₀ (clearRing s) := by
  simp only [clearRing]
  exact Acts.foldl (fun a h => offer_acts a h) _ (h.onPast (.inl hp) fun _ => rfl)

end Sys2Proof.Machine

/-! SUPPORT. What each operation of DM touches. -/

namespace Sys2Proof.Machine

variable {i : Bool} {p : Touch → Prop} {s₀ s : State}

/-! ### Circuit selection -/

theorem changeCircuit_acts (new : Circuit) (hp : p .demand) (h : Acts i p s₀ s) : Acts i p s₀ (changeCircuit new s) := by
  simp only [changeCircuit]
  split
  · exact h
  · have hr : ∀ (old : Circuit) (d : Dm), (releaseMarks old d).guard = d.guard := by
      intro old d
      cases old <;> rfl
    have h1 : Acts i p s₀ (s.onDm fun d => { releaseMarks s.dm.circuit d with circuit := new }) := by
      have h0 := hr s.dm.circuit s.dm
      simp only [Dm.guard, Dm.mk.injEq, true_and] at h0
      obtain ⟨e1, e2, e3, e4, -, e6⟩ := h0
      exact h.trans
        { (Acts.refl : Acts i p s s) with
          zonesLength := by simp [e1]
          idle := by simp [e6]
          calls := by simp [e1]
          demand := .inl hp
          draw := by simp [e2, e3, e4] }
    exact deliverRecord_acts _ (muCircuit_acts _ hp (.ite (fun _ => dmFiring_acts h1) fun _ => h1))

theorem select_acts (hp : p .demand) (h : Acts i p s₀ s) : Acts i p s₀ (select s) := changeCircuit_acts _ hp h

/-! ### Zone records -/

@[simp] theorem updateAt_length {α : Type} (l : List α) (n : Nat) (f : α → α) : (updateAt l n f).length = l.length := by
  induction l generalizing n with
  | nil => rfl
  | cons x r ih => cases n <;> simp [updateAt, ih]

theorem updateAt_map {α β : Type} {f : α → α} {g : α → β} (h : ∀ x, g (f x) = g x) (l : List α) (n : Nat) :
    (updateAt l n f).map g = l.map g := by
  induction l generalizing n with
  | nil => rfl
  | cons x r ih => cases n <;> simp [updateAt, ih, h]

theorem Acts.onZone {z : Nat} {f : Zone → Zone} (h : Acts i p s₀ s) (hp : p .demand)
    (hf : p .calls ∨ ∀ r, (f r).calling = r.calling) : Acts i p s₀ (s.onZone z f) :=
  h.trans
    { (Acts.refl : Acts i p s s) with
      zonesLength := updateAt_length _ _ _
      calls := hf.imp id fun hf => updateAt_map hf _ _
      demand := .inl hp }

theorem placeValve_acts (z : Nat) (q : Position) (hp : p .demand) (h : Acts i p s₀ s) : Acts i p s₀ (placeValve z q s) :=
  h.trans
    { (Acts.refl : Acts i p s s) with
      urgent := .inr (.inl hp) }

theorem clearOverrun_acts (z : Nat) (hp : p .demand) (h : Acts false p s₀ s) : Acts false p s₀ (clearOverrun z s) := by
  have h1 : Acts false p s₀ (s.onZone z fun r => { r with overrun := false }) := h.onZone hp (.inr fun _ => rfl)
  simp only [clearOverrun]
  exact .ite (fun _ => .ite (fun _ => h1) fun _ => fmClear_acts _ (.inr ⟨hp, rfl⟩) h1) fun _ => h

theorem setValve_acts (z : Nat) (v : ValveState) (hp : p .demand) (h : Acts false p s₀ s) :
    Acts false p s₀ (setValve z v s) := clearOverrun_acts _ hp (h.onZone hp (.inr fun _ => rfl))

theorem commandValve_acts (z : Nat) (q : Position) (hp : p .demand) (h : Acts false p s₀ s) :
    Acts false p s₀ (commandValve z q s) := by
  simp only [commandValve]
  exact .ite (fun _ => h) fun _ => setValve_acts _ _ hp (placeValve_acts _ _ hp h)

theorem compareValve_acts (z : Nat) (hp : p .demand) (h : Acts false p s₀ s) : Acts false p s₀ (compareValve z s) := by
  simp only [compareValve]
  refine .ite (fun _ => h) fun _ => ?_
  split
  all_goals with_reducible first | exact commandValve_acts _ _ hp h | exact h

theorem evaluateZone_acts (z : Nat) (hp : p .demand) (h : Acts false p s₀ s) : Acts false p s₀ (evaluateZone s z) := by
  simp only [evaluateZone]
  exact .ite (fun _ => h) fun _ => compareValve_acts _ hp (h.onZone hp (.inr fun _ => rfl))

theorem refresh_acts (hp : p .demand) (h : Acts false p s₀ s) : Acts false p s₀ (refresh s) :=
  Acts.foldl (fun a h => evaluateZone_acts a hp h) _ (select_acts hp h)

theorem valveArrived_acts (z : Nat) (v : ValveState) (hp : p .demand) (h : Acts false p s₀ s) :
    Acts false p s₀ (valveArrived z v s) := refresh_acts hp (compareValve_acts _ hp (setValve_acts _ _ hp h))

/-! ### Results and reports -/

theorem valveResult_acts (z : Nat) (q : Position) (r : ValveResult) (hp : p .demand) (h : Acts false p s₀ s) :
    Acts false p s₀ (valveResult z q r s) := by
  simp only [valveResult]
  refine .ite (fun _ => h) fun _ => refresh_acts hp (compareValve_acts _ hp ?_)
  cases r with
  | ack => exact .ite (fun _ => h.onZone hp (.inr fun _ => rfl)) fun _ => h
  | failed => exact setValve_acts _ _ hp h
  | dropped => exact h

theorem valveReport_acts (z node pos : Nat) (hp : p .demand) (h : Acts false p s₀ s) :
    Acts false p s₀ (valveReport z node pos s) := by
  have arrived : ∀ v, Acts false p s₀ (valveArrived z v s) := fun v => valveArrived_acts z v hp h
  simp only [valveReport]
  repeat' split
  all_goals with_reducible first | exact arrived _ | exact h

theorem travelExpired_acts (z : Nat) (hp : p .demand) (hr : p (.raise .zoneValve)) (h : Acts false p s₀ s) :
    Acts false p s₀ (travelExpired z s) := by
  simp only [travelExpired]
  split
  · exact fmRaise_acts _ _ hr (h.onZone hp (.inr fun _ => rfl))
  · split
    · exact valveArrived_acts _ _ hp h
    · exact valveArrived_acts _ _ hp h
    all_goals exact h.onZone hp (.inr fun _ => rfl)

theorem reconcileZone_acts (z : Nat) (hp : p .demand) (h : Acts false p s₀ s) : Acts false p s₀ (reconcileZone s z) := by
  simp only [reconcileZone]
  exact .ite (fun _ => commandValve_acts _ _ hp h) fun _ => h

theorem reconcile_acts (hp : p .demand) (h : Acts false p s₀ s) : Acts false p s₀ (reconcile s) :=
  Acts.foldl (fun a h => reconcileZone_acts a hp h) _ h

/-! ### Call state and fallback -/

theorem enterFallback_acts (z : Nat) (hp : p .demand) (hc : p .calls) (h : Acts i p s₀ s) :
    Acts i p s₀ (enterFallback z s) := h.onZone hp (.inl hc)

theorem applyDemand_acts (z : Nat) (x : Int) (t : Value) (b : Bool) (hp : p .demand) (hc : p .calls)
    (h : Acts false p s₀ s) : Acts false p s₀ (applyDemand z x t b s) := refresh_acts hp (h.onZone hp (.inl hc))

theorem takeDemand_acts (n : Nat) (x : Int) (t : Value) (b : Bool) (hp : p .demand) (hc : p .calls)
    (h : Acts false p s₀ s) : Acts false p s₀ (takeDemand n x t b s) := by
  simp only [takeDemand]
  exact .ite (fun _ => applyDemand_acts _ _ _ _ hp hc h) fun _ => h

theorem roomUnitAbsent_acts (n : Nat) (hp : p .demand) (hc : p .calls) (h : Acts false p s₀ s) :
    Acts false p s₀ (roomUnitAbsent n s) := by
  simp only [roomUnitAbsent]
  exact .ite (fun _ => refresh_acts hp (enterFallback_acts _ hp hc h)) fun _ => h

theorem fallbackTimeout_acts (z : Nat) (hp : p .demand) (hc : p .calls) (h : Acts false p s₀ s) :
    Acts false p s₀ (fallbackTimeout z s) := by
  simp only [fallbackTimeout]
  exact .ite (fun _ => refresh_acts hp (enterFallback_acts _ hp hc h)) fun _ => h

/-! ### Writes of ZONES and NODES -/

theorem renewValve_acts (z : Nat) (hp : p .demand) (h : Acts false p s₀ s) : Acts false p s₀ (renewValve z s) :=
  setValve_acts _ _ hp h

theorem zoneWritten_acts (old : List Byte) (z : Nat) (hp : p .demand) (hc : p .calls) (h : Acts false p s₀ s) :
    Acts false p s₀ (zoneWritten old z s) := by
  have on : ∀ {s : State} (f : Zone → Zone), Acts false p s₀ s → Acts false p s₀ (s.onZone z f) :=
    fun _ h => h.onZone hp (.inl hc)
  simp only [zoneWritten]
  refine refresh_acts hp (.ite (fun _ => on _ ?_) fun _ => ?_)
  all_goals
    refine .ite (fun _ => renewValve_acts _ hp ?_) fun _ => ?_
    all_goals
      refine .ite (fun _ => renewValve_acts _ hp (.ite (fun _ => on _ h) fun _ => on _ (on _ h))) fun _ =>
        .ite (fun _ => clearOverrun_acts _ hp (on _ h)) fun _ => h

theorem nodeWrittenZone_acts (old : List Byte) (z : Nat) (hp : p .demand) (hc : p .calls) (h : Acts false p s₀ s) :
    Acts false p s₀ (nodeWrittenZone old s z) := by
  simp only [nodeWrittenZone]
  exact .ite (fun _ => h.onZone hp (.inl hc)) fun _ => .ite (fun _ => enterFallback_acts _ hp hc h) fun _ => h

theorem nodesWritten_acts (old : List Byte) (hp : p .demand) (hc : p .calls) (h : Acts false p s₀ s) :
    Acts false p s₀ (nodesWritten old s) :=
  refresh_acts hp (Acts.foldl (fun a h => nodeWrittenZone_acts old a hp hc h) _ h)

/-! ### Draw, diverter, frost, anti-cycle -/

/-- The draw, the diverter and the frost mark changed, and what `Acts` does not speak of. -/
theorem Acts.onDraw {f : Dm → Dm} (h : Acts i p s₀ s) (hp : p .draw)
    (hf : ∀ d, ((f d).zones, (f d).circuit, (f d).idle) = (d.zones, d.circuit, d.idle)) : Acts i p s₀ (s.onDm f) := by
  have hf := hf s.dm
  simp only [Prod.mk.injEq] at hf
  obtain ⟨h1, h2, h3⟩ := hf
  exact h.trans
    { (Acts.refl : Acts i p s s) with
      zonesLength := by simp [h1]
      idle := by simp [h3]
      calls := by simp [h1]
      demand := by simp [h1, h2]
      draw := .inl hp }

theorem divertSync_acts (hp : p .draw) (h : Acts i p s₀ s) : Acts i p s₀ (divertSync s) := by
  simp only [divertSync]
  exact Acts.onDraw h hp fun _ => rfl

theorem divertEnded_acts (hp : p .draw) (h : Acts i p s₀ s) : Acts i p s₀ (divertEnded s) := h.onDraw hp fun _ => rfl

theorem overrunExpired_acts (hp : p .demand) (hd : p .draw) (h : Acts false p s₀ s) :
    Acts false p s₀ (overrunExpired s) := refresh_acts hp (divertSync_acts hd (h.onDraw hd fun _ => rfl))

theorem frameFallback_acts (z : Nat) (hp : p .demand) (hc : p .calls) (h : Acts i p s₀ s) :
    Acts i p s₀ (frameFallback s z) := by
  simp only [frameFallback]
  exact .ite (fun _ => enterFallback_acts _ hp hc h) fun _ => h

theorem dmFrame_acts (hp : p .demand) (hc : p .calls) (hd : p .draw) (h : Acts false p s₀ s) :
    Acts false p s₀ (dmFrame s) := by
  simp only [dmFrame]
  exact refresh_acts hp (divertSync_acts hd
    (Acts.onDraw (Acts.foldl (fun a h => frameFallback_acts a hp hc h) _ h) hd fun _ => rfl))

theorem antiCycleEnd_acts (h : Acts i p s₀ s) : Acts i p s₀ (antiCycleEnd s) := setAntiCycle_acts _ (h.onDm fun _ => rfl)

theorem antiCycleCheck_acts (h : Acts i p s₀ s) : Acts i p s₀ (antiCycleCheck s) := by
  simp only [antiCycleCheck]
  exact .ite (fun _ => antiCycleEnd_acts h) fun _ => h

theorem dmBusReset_acts (hp : p .demand) (h : Acts false p s₀ s) : Acts false p s₀ (dmBusReset s) := by
  have one : ∀ {s : State} (z : Nat), Acts false p s₀ s → Acts false p s₀ (if s.hasValve z then
        s.onZone z fun r => { r with valve := .unknown, travel := none, ack := false, overrun := false }
      else s.onZone z fun r => { r with travel := none, ack := false, overrun := false }) :=
    fun z h => .ite (fun _ => h.onZone hp (.inr fun _ => rfl)) fun _ => h.onZone hp (.inr fun _ => rfl)
  simp only [dmBusReset]
  exact refresh_acts hp (.ite (fun _ => fmClear_acts _ (.inr ⟨hp, rfl⟩) (Acts.foldl one _ h)) fun _ => Acts.foldl one _ h)

theorem idleSync_acts (h : Acts i p s₀ s) : Acts i p s₀ (idleSync s) := by
  simp only [idleSync]
  exact .ite (fun _ => h.trans { (Acts.refl : Acts i p s s) with idle := fun _ => Nat.zero_le _ }) fun _ => h

theorem idleSecond_acts (h : Acts i p s₀ s) : Acts i p s₀ (idleSecond s) := by
  simp only [idleSecond]
  exact .ite (fun _ => h) fun _ => h.trans { (Acts.refl : Acts i p s s) with idle := fun _ => Nat.min_le_left _ _ }

theorem kickBegins_acts (h : Acts i p s₀ s) : Acts i p s₀ (kickBegins s) := by
  simp only [kickBegins]
  exact .ite (fun _ => h.onDm fun _ => rfl) fun _ => h

theorem kickEnds_acts (h : Acts i p s₀ s) : Acts i p s₀ (kickEnds s) :=
  h.trans { (Acts.refl : Acts i p s s) with idle := fun _ => Nat.zero_le _ }

end Sys2Proof.Machine

/-! SUPPORT. What the operations of MP, of a frame, of the end of an event and of BS's timers touch. -/

namespace Sys2Proof.Machine

variable {i : Bool} {p : Touch → Prop} {s₀ s : State}

/-! ### MP -/

theorem Acts.onMp {f : Mp → Mp} (h : Acts i p s₀ s) (hp : p .measure) (hf : s.mp.InRange → (f s.mp).InRange) :
    Acts i p s₀ (s.onMp f) :=
  h.trans
    { (Acts.refl : Acts i p s s) with
      mp := .inl hp
      mpRange := hf }

theorem ringStep_length {l : List Nat} (n : Nat) (h : l.length = 10) : (ringStep l n).length = 10 := by
  simp [ringStep, h]

theorem measure_acts (f : Frame) (hp : p .measure) (h : Acts i p s₀ s) : Acts i p s₀ (measure f s) := by
  simp only [measure]
  refine Acts.onMp h hp ?_
  rintro ⟨h1, h2, h3, h4⟩
  exact ⟨h1, h2, ringStep_length _ h3, ringStep_length _ h4⟩

theorem channelEvent_acts (old : Mp) (c : Chan) (hr : p (.raise c.source)) (hc : p (.clear c.source))
    (h : Acts false p s₀ s) : Acts false p s₀ (channelEvent old s c) := by
  simp only [channelEvent]
  exact .ite (fun _ => fmRaise_acts _ _ hr h) fun _ => .ite (fun _ => .ite (fun _ => h) fun _ => fmClear_acts _ (.inl hc) h)
    fun _ => h

theorem disagreeReached_acts (hp : p .measure) (hr : p (.raise .flowDisagree)) (h : Acts false p s₀ s) :
    Acts false p s₀ (disagreeReached s) :=
  fmRaise_acts _ _ hr (h.onMp hp fun ⟨_, h2, h3, h4⟩ => ⟨le_refl _, h2, h3, h4⟩)

theorem disagreeStep_acts (hp : p .measure) (hr : p (.raise .flowDisagree)) (hc : p (.clear .flowDisagree))
    (h : Acts false p s₀ s) : Acts false p s₀ (disagreeStep s) := by
  have h0 : Acts false p s₀ (s.onMp fun m => { m with disagree := 0 }) :=
    h.onMp hp fun ⟨_, h2, h3, h4⟩ => ⟨Nat.zero_le _, h2, h3, h4⟩
  simp only [disagreeStep]
  refine .ite (fun _ => .ite (fun _ => disagreeReached_acts hp hr h) fun _ => .ite (fun _ => h) fun hn => ?_)
    fun _ => .ite (fun _ => fmClear_acts _ (.inl hc) h0) fun _ => h0
  exact h.onMp hp fun ⟨_, h2, h3, h4⟩ => ⟨show s.mp.disagree + 1 ≤ _ by omega, h2, h3, h4⟩

theorem lowPressureStep_acts (hp : p .measure) (hr : p (.raise .lowPressure)) (hc : p (.clear .lowPressure))
    (h : Acts false p s₀ s) : Acts false p s₀ (lowPressureStep s) := by
  simp only [lowPressureStep]
  exact .ite (fun _ => fmRaise_acts _ _ hr (h.onMp hp id)) fun _ =>
    .ite (fun _ => fmClear_acts _ (.inl hc) (h.onMp hp id)) fun _ => h

theorem highPressureStep_acts (hp : p .measure) (hr : p (.raise .highPressure)) (hc : p (.clear .highPressure))
    (h : Acts false p s₀ s) : Acts false p s₀ (highPressureStep s) := by
  simp only [highPressureStep]
  exact .ite (fun _ => fmRaise_acts _ _ hr (h.onMp hp id)) fun _ =>
    .ite (fun _ => fmClear_acts _ (.inl hc) (h.onMp hp id)) fun _ => h

theorem flueHighStep_acts (hp : p .measure) (hr : p (.raise .flueHigh)) (hc : p (.clear .flueHigh))
    (h : Acts false p s₀ s) : Acts false p s₀ (flueHighStep s) := by
  simp only [flueHighStep]
  exact .ite (fun _ => fmRaise_acts _ _ hr (faultStop_acts (h.onMp hp id))) fun _ =>
    .ite (fun _ => fmClear_acts _ (.inl hc) (h.onMp hp id)) fun _ => h

theorem circ_zero_acts (hp : p .measure) (h : Acts i p s₀ s) : Acts i p s₀ (s.onMp fun m => { m with circ := 0 }) :=
  h.onMp hp fun ⟨h1, _, h3, h4⟩ => ⟨h1, show 0 < Config.circFrames by decide, h3, h4⟩

theorem circulationReached_acts (hp : p .measure) (hr : p (.raise .noCirculation)) (h : Acts false p s₀ s) :
    Acts false p s₀ (circulationReached s) := fmRaise_acts _ _ hr (faultStop_acts (circ_zero_acts hp h))

theorem circulationStep_acts (hp : p .measure) (hr : p (.raise .noCirculation)) (h : Acts false p s₀ s) :
    Acts false p s₀ (circulationStep s) := by
  simp only [circulationStep]
  refine .ite (fun _ => .ite (fun _ => circulationReached_acts hp hr h) fun hn => ?_) fun _ => circ_zero_acts hp h
  exact h.onMp hp fun ⟨h1, _, h3, h4⟩ => ⟨h1, show s.mp.circ + 1 < _ by omega, h3, h4⟩

theorem measureEvents_acts (old : Mp) (hp : p .measure) (hr : ∀ src, p (.raise src)) (hc : ∀ src, p (.clear src))
    (h : Acts false p s₀ s) : Acts false p s₀ (measureEvents old s) :=
  circulationStep_acts hp (hr _) (flueHighStep_acts hp (hr _) (hc _) (highPressureStep_acts hp (hr _) (hc _)
    (lowPressureStep_acts hp (hr _) (hc _) (disagreeStep_acts hp (hr _) (hc _)
      (Acts.foldl (fun c h => channelEvent_acts old c (hr _) (hc _) h) _ h)))))

/-! ### MU at a frame -/

theorem endOnPhase_acts (h : Acts i p s₀ s) : Acts i p s₀ (endOnPhase s) :=
  deliverRecord_acts _ (Acts.onDm (Acts.onCyc h) fun _ => rfl)

theorem endOffPhase_acts (h : Acts i p s₀ s) : Acts i p s₀ (endOffPhase s) :=
  deliverRecord_acts _ (Acts.onDm h fun _ => rfl)

theorem countPhase_acts (h : Acts i p s₀ s) : Acts i p s₀ (countPhase s) := h.onCyc

theorem onPhaseFrame_acts (b : Bool) (h : Acts i p s₀ s) : Acts i p s₀ (onPhaseFrame b s) := by
  have h1 : Acts i p s₀ (if b then countPhase s else s) := .ite (fun _ => countPhase_acts h) fun _ => h
  simp only [onPhaseFrame]
  exact .ite (fun _ => endOnPhase_acts h1) fun _ => h1

theorem offPhaseFrame_acts (h : Acts i p s₀ s) : Acts i p s₀ (offPhaseFrame s) := by
  simp only [offPhaseFrame]
  exact .ite (fun _ => h) fun _ => .ite (fun _ => endOffPhase_acts (countPhase_acts h)) fun _ => countPhase_acts h

theorem chStopFrame_acts (h : Acts i p s₀ s) : Acts i p s₀ (chStopFrame s) := by
  simp only [chStopFrame]
  exact .ite (fun _ => .ite (fun _ => deliverRecord_acts _ (h.onDm fun _ => rfl)) fun _ => h) fun _ =>
    .ite (fun _ => deliverRecord_acts _ (h.onDm fun _ => rfl)) fun _ => h

theorem dhwStopFrame_acts (h : Acts i p s₀ s) : Acts i p s₀ (dhwStopFrame s) := by
  simp only [dhwStopFrame]
  exact .ite (fun _ => .ite (fun _ => deliverRecord_acts _ (h.onDm fun _ => rfl)) fun _ => h) fun _ =>
    .ite (fun _ => deliverRecord_acts _ (h.onDm fun _ => rfl)) fun _ => h

theorem chCycleFrame_acts (h : Acts i p s₀ s) : Acts i p s₀ (chCycleFrame s) := by
  have h1 : Acts i p s₀ (muPending s) := by
    simp only [muPending]
    exact Acts.onCyc h
  simp only [chCycleFrame]
  split
  · exact onPhaseFrame_acts _ h1
  · exact offPhaseFrame_acts h1
  · exact .ite (fun _ => onPhaseFrame_acts _ (onPhaseStart_acts h1)) fun _ => chStopFrame_acts h1

theorem deliverOutput_acts (hp : p .output) (h : Acts i p s₀ s) : Acts i p s₀ (deliverOutput s) :=
  setFanTarget_acts _ (.inr (.inl hp)) (h.onMu_output (.inl hp) (fun _ => rfl) fun _ => rfl)

theorem muFrame_acts (hp : p .stage) (ho : p .output) (h : Acts i p s₀ s) : Acts i p s₀ (muFrame s) := by
  have h1 := muCompute_acts hp h
  have h2 : Acts i p s₀ (match (muCompute s).dm.circuit with
      | .ch => chCycleFrame (muCompute s)
      | .dhw => dhwStopFrame (muCompute s)
      | .frost => muCompute s
      | .none => muCompute s) := by
    split
    · exact chCycleFrame_acts h1
    · exact dhwStopFrame_acts h1
    · exact h1
    · exact h1
  simp only [muFrame]
  exact .ite (fun _ => h) fun _ => .ite (fun _ => deliverOutput_acts ho h2) fun _ => h2

/-! ### BS at a frame -/

theorem limitStep_acts (hp : p .marks) (hr : p (.raise .limitStat)) (hc : p (.clear .limitStat))
    (h : Acts false p s₀ s) : Acts false p s₀ (limitStep s) := by
  have mark : ∀ b, Acts false p s₀ (s.onBs fun x => { x with limitMark := b }) := fun b =>
    h.trans { (Acts.refl : Acts false p s s) with marks := .inl hp }
  simp only [limitStep]
  exact .ite (fun _ => fmRaise_acts _ _ hr (faultStop_acts (mark _))) fun _ =>
    .ite (fun _ => fmClear_acts _ (.inl hc) (mark _)) fun _ => h

theorem overheatStep_acts (hp : p .marks) (hr : p (.raise .overheat)) (hc : p (.clear .overheat))
    (h : Acts false p s₀ s) : Acts false p s₀ (overheatStep s) := by
  have mark : ∀ b, Acts false p s₀ (s.onBs fun x => { x with overheatMark := b }) := fun b =>
    h.trans { (Acts.refl : Acts false p s s) with marks := .inl hp }
  simp only [overheatStep]
  exact .ite (fun _ => fmRaise_acts _ _ hr (faultStop_acts (mark _))) fun _ =>
    .ite (fun _ => fmClear_acts _ (.inl hc) (mark _)) fun _ => h

theorem mismatchFound_acts (r : Relay) (hr : p (.raise .gasRelay)) (h : Acts false p s₀ s) :
    Acts false p s₀ (mismatchFound r s) := fmRaise_acts _ _ hr (faultStop_acts (setMismatch_acts _ _ _ h))

theorem relayCheck_acts (hr : p (.raise .gasRelay) ∨ RelaysOpen s) (h : Acts false p s₀ s) :
    Acts false p s₀ (relayCheck s) := by
  simp only [relayCheck]
  refine .ite (fun _ => ?_) fun _ => h
  rcases hr with hr | ⟨h1, h2⟩
  · refine Acts.foldl (fun r h => ?_) _ h
    simp only [preCheckRelay]
    exact .ite (fun _ => mismatchFound_acts _ hr h) fun _ => h
  · simpa [preCheckRelay, Lines.readback, h1, h2] using h

theorem preCheckStep_acts (hr : p (.raise .gasRelay)) (h : Acts false p s₀ s) : Acts false p s₀ (preCheckStep s) := by
  have h1 := relayCheck_acts (.inl hr) h
  simp only [preCheckStep]
  exact .ite (fun _ => toPrePurge_acts h1) fun _ => h1

theorem fanDeviationReached_acts (hr : p (.raise .fanDeviation)) (h : Acts false p s₀ s) :
    Acts false p s₀ (fanDeviationReached s) := by
  have h1 : Acts false p s₀ (if 100 ≤ s.mp.pub.fanSpeed then toPostPurge .fanDeviation false false s
      else toStandby .fanDeviation s) := .ite (fun _ => toPostPurge_acts _ _ _ h) fun _ => toStandby_acts _ h
  simp only [fanDeviationReached]
  refine fmRaise_acts _ _ hr ?_
  generalize (if 100 ≤ s.mp.pub.fanSpeed then toPostPurge .fanDeviation false false s
      else toStandby .fanDeviation s) = u at h1 ⊢
  exact h1.trans { (Acts.refl : Acts false p u u) with fanDev := fun _ => show 0 < Config.fanDevFrames by decide }

theorem fanDeviationStep_acts (hr : p (.raise .fanDeviation)) (h : Acts false p s₀ s) :
    Acts false p s₀ (fanDeviationStep s) := by
  have set : ∀ n, n < Config.fanDevFrames → Acts false p s₀ (s.onBs fun b => { b with fanDev := n }) := fun n hn =>
    h.trans { (Acts.refl : Acts false p s s) with fanDev := fun _ => hn }
  simp only [fanDeviationStep]
  exact .ite (fun _ => .ite (fun _ => .ite (fun _ => fanDeviationReached_acts hr h) fun hn => set _ (by omega))
    fun _ => set _ (by decide)) fun _ => set _ (by decide)

theorem bsFrame_acts (hp : p .marks) (hr : ∀ src, p (.raise src)) (hc : ∀ src, p (.clear src))
    (h : Acts false p s₀ s) : Acts false p s₀ (bsFrame s) := by
  have h1 := overheatStep_acts hp (hr _) (hc _) (limitStep_acts hp (hr _) (hc _) h)
  simp only [bsFrame]
  refine fanDeviationStep_acts (hr _) (fanControl_acts ?_)
  split
  · exact preCheckStep_acts (hr _) h1
  · exact purgeStep_acts h1
  all_goals exact h1

/-! ### The frame -/

theorem latchTables_acts (hp : p .frame) (h : Acts i p s₀ s) : Acts i p s₀ (latchTables s) :=
  h.trans { (Acts.refl : Acts i p s s) with frame := .inl hp }

theorem frameClock_acts (hp : p .clock) (h : Acts i p s₀ s) : Acts i p s₀ (frameClock s) := by
  simp only [frameClock]
  exact Acts.onClock h hp

theorem passFrames_acts (n : Nat) (hp : p .clock) (h : Acts i p s₀ s) : Acts i p s₀ (passFrames n s) := by
  simp only [passFrames]
  exact Acts.onClock h hp

theorem secondClock_acts (hp : p .clock) (h : Acts i p s₀ s) : Acts i p s₀ (secondClock s) := by
  simp only [secondClock]
  exact Acts.onClock h hp

theorem setCommitHold_acts (v : Bool) (hp : p .commit) (h : Acts i p s₀ s) : Acts i p s₀ (s.setCommitHold v) :=
  h.trans { (Acts.refl : Acts i p s s) with commit := .inl hp }

theorem startUpRemoval_acts (b : Bool) (hp : p .startUp) (h : Acts i p s₀ s) : Acts i p s₀ (startUpRemoval b s) := by
  simp only [startUpRemoval]
  exact .ite (fun _ => h.trans { (Acts.refl : Acts i p s s) with startUp := .inl hp }) fun _ => h

theorem frameMeasure_acts (f : Frame) (hk : p .clock) (hf : p .frame) (hp : p .measure) (hr : ∀ src, p (.raise src))
    (hc : ∀ src, p (.clear src)) (h : Acts false p s₀ s) : Acts false p s₀ (frameMeasure f s) := by
  have h1 := latchTables_acts hf (frameClock_acts hk h)
  simp only [frameMeasure]
  refine measureEvents_acts _ hp hr hc (Acts.onMp (measure_acts _ hp ?_) hp id)
  exact h1.trans { (Acts.refl : Acts false p _ _) with frame := .inl hf }

/-- What a frame completion touches. -/
theorem frameStep_acts (f : Frame) (hk : p .clock) (hf : p .frame) (hp : p .measure) (hm : p .marks) (hu : p .startUp)
    (hd : p .demand) (hl : p .calls) (hw : p .draw) (hs : p .stage) (ho : p .output) (hr : ∀ src, p (.raise src))
    (hc : ∀ src, p (.clear src)) (h : Acts false p s₀ s) : Acts false p s₀ (frameStep f s) :=
  startUpRemoval_acts _ hu (bsFrame_acts hm hr hc (antiCycleCheck_acts (muFrame_acts hs ho (dmFrame_acts hd hl hw
    (frameMeasure_acts f hk hf hp hr hc h)))))

/-! ### The end of an event -/

theorem toPreCheck_acts (hr : p (.raise .gasRelay) ∨ RelaysOpen s) (h : Acts false p s₀ s) :
    Acts false p s₀ (toPreCheck s) := by
  have h1 : Acts false p s (setFanTarget 0 (bsMove .preCheck .fault false s)) :=
    setFanTarget_acts _ (.inl (by simp)) (bsMove_acts _ _ _ (.inl nofun) .refl)
  have e1 := h1.plant
  have h2 := h.trans h1
  simp only [toPreCheck]
  generalize setFanTarget 0 (bsMove .preCheck .fault false s) = u at h2 e1 ⊢
  simp only [Prod.mk.injEq] at e1
  obtain ⟨e1, e2, -⟩ := e1
  refine relayCheck_acts (hr.imp id ?_) (h2.onBs fun _ => rfl)
  rintro ⟨r1, r2⟩
  exact ⟨e1.trans r1, e2.trans r2⟩

theorem leaveStandby_acts (hr : p (.raise .gasRelay) ∨ RelaysOpen s ∨ s.mayStart = false) (h : Acts false p s₀ s) :
    Acts false p s₀ (leaveStandby s) := by
  simp only [leaveStandby]
  refine .ite (fun hm => toPreCheck_acts ?_ h) fun _ => h
  rcases hr with hr | hr | hr
  · exact .inl hr
  · exact .inr hr
  · simp [hr] at hm

theorem beginWrite_stands (j : Job) (s : State) (page : Nat) (h : j.page = page ∨ s.jobWaiting page = true) :
    JobStands (beginWrite j s) page := by
  rcases h with h | h
  · exact .inr ⟨_, rfl, h⟩
  · exact .inl h

theorem startWrite_stands {page : Nat} (h : JobStands s page) : JobStands (startWrite s) page := by
  simp only [startWrite]
  split
  · exact h
  · rename_i hw
    rcases h with h | ⟨w, hw', -⟩
    · split
      · refine beginWrite_stands _ _ _ ?_
        by_cases hp : page = 8
        · exact .inl hp.symm
        · refine .inr ?_
          simpa [State.jobWaiting, hp] using h
      · rename_i hl
        have hp : page ≠ 8 := by
          rintro rfl
          simp [State.jobWaiting] at h
          exact hl h
        have h' : s.st.jobs.any (fun j => j.page == page) = true := by simpa [State.jobWaiting, hp] using h
        split
        · rename_i hj
          simp [hj] at h'
        · rename_i j r hj
          refine beginWrite_stands _ _ _ ?_
          simp only [hj, List.any_cons, Bool.or_eq_true, beq_iff_eq] at h'
          exact h'.imp id fun h' => by simpa [State.jobWaiting, hp] using h'
    · simp [hw'] at hw

theorem startWrite_acts (h : Acts i p s₀ s) : Acts i p s₀ (startWrite s) := by
  refine h.trans ?_
  have base : (startWrite s) = { s with st := { s.st with
      jobs := (startWrite s).st.jobs, lockJob := (startWrite s).st.lockJob, write := (startWrite s).st.write } } := by
    simp only [startWrite]
    repeat' split
    all_goals rfl
  have fits : s.st.jobs.length ≤ Config.queuePlaces → (startWrite s).st.jobs.length ≤ Config.queuePlaces := by
    intro hn
    simp only [startWrite]
    split
    · exact hn
    · split
      · exact hn
      · split
        · exact hn
        · rename_i hj
          rw [hj, List.length_cons] at hn
          exact (Nat.le_succ _).trans hn
  have write : ∀ w, s.st.write = some w → (startWrite s).st.write = some w := by
    intro w hw
    rw [startWrite, if_pos (by simp [hw])]
    exact hw
  have stands : ∀ page, JobStands s page → JobStands (startWrite s) page := fun _ => startWrite_stands
  rw [base] at fits write stands ⊢
  exact
    { (Acts.refl : Acts i p s s) with
      lead := by cases i <;> simp [LeadRel, State.listed]
      fits := fits
      stands := .inr stands
      write := .inr write }

/-- What the end of an event touches. -/
theorem settle_acts (hr : p (.raise .gasRelay) ∨ RelaysOpen s ∨ s.mayStart = false) (h : Acts false p s₀ s) :
    Acts false p s₀ (settle s) := startWrite_acts (idleSync_acts (leaveStandby_acts hr h))

/-! ### Frame-counted timers, flame and pulses -/

theorem disagreeTimeout_acts (hk : p .clock) (hp : p .measure) (hr : p (.raise .flowDisagree)) (h : Acts false p s₀ s) :
    Acts false p s₀ (disagreeTimeout s) := by
  simp only [disagreeTimeout]
  exact .ite (fun _ => disagreeReached_acts hp hr (passFrames_acts _ hk h)) fun _ => h

theorem circulationTimeout_acts (hk : p .clock) (hp : p .measure) (hr : p (.raise .noCirculation))
    (h : Acts false p s₀ s) : Acts false p s₀ (circulationTimeout s) := by
  simp only [circulationTimeout]
  exact .ite (fun _ => circulationReached_acts hp hr (passFrames_acts _ hk h)) fun _ => h

theorem fanDeviationTimeout_acts (hk : p .clock) (hr : p (.raise .fanDeviation)) (h : Acts false p s₀ s) :
    Acts false p s₀ (fanDeviationTimeout s) := by
  simp only [fanDeviationTimeout]
  exact .ite (fun _ => fanDeviationReached_acts hr (passFrames_acts _ hk h)) fun _ => h

theorem purgeTimeout_acts (hk : p .clock) (h : Acts i p s₀ s) : Acts i p s₀ (purgeTimeout s) := by
  simp only [purgeTimeout]
  split
  · exact .ite (fun _ => toIgnition_acts (passFrames_acts _ hk h)) fun _ => h
  · exact h

theorem onPhaseTimeout_acts (hk : p .clock) (h : Acts i p s₀ s) : Acts i p s₀ (onPhaseTimeout s) := by
  simp only [onPhaseTimeout]
  exact .ite (fun _ => endOnPhase_acts (Acts.onCyc (passFrames_acts _ hk h))) fun _ => h

theorem offPhaseTimeout_acts (hk : p .clock) (h : Acts i p s₀ s) : Acts i p s₀ (offPhaseTimeout s) := by
  simp only [offPhaseTimeout]
  exact .ite (fun _ => endOffPhase_acts (Acts.onCyc (passFrames_acts _ hk h))) fun _ => h

theorem flameOnEvent_acts (he : p .enter) (hc : p .counts) (h : Acts i p s₀ s) : Acts i p s₀ (flameOnEvent s) := by
  simp only [flameOnEvent]
  exact .ite (fun _ => .ite (fun _ => establishFlame_acts he hc h) fun _ => h) fun _ =>
    .ite (fun _ => h) fun _ => h.onBs fun _ => rfl

theorem flameLossEvent_acts (hc : p .counts) (hr : p (.raise .flameLoss)) (h : Acts false p s₀ s) :
    Acts false p s₀ (flameLossEvent s) := by
  have h1 : Acts false p s₀ (s.onBs fun b => { b with falseFlame := none, ffRaised := false }) := h.onBs fun _ => rfl
  simp only [flameLossEvent]
  exact .ite (fun _ => .ite (fun _ => toPostPurge_acts _ _ _ (bump_acts 4 hc (Acts.onBs h1 fun _ => rfl))) fun _ =>
    fmRaise_acts _ _ hr (toPostPurge_acts _ _ _ h1)) fun _ => h1

theorem flameSampled_acts (raw : Sample) (hk : p .clock) (hp : p .measure) (he : p .enter) (hc : p .counts)
    (hr : p (.raise .flameLoss)) (h : Acts false p s₀ s) : Acts false p s₀ (flameSampled raw s) := by
  simp only [flameSampled]
  split
  · exact Acts.onMp (Acts.onClock h hk) hp id
  · exact flameOnEvent_acts he hc (Acts.onMp (Acts.onClock h hk) hp id)
  · exact flameLossEvent_acts hc hr (Acts.onMp (Acts.onClock h hk) hp id)

theorem pulseCounted_acts (l : PulseLine) (hp : p .measure) (h : Acts i p s₀ s) : Acts i p s₀ (pulseCounted l s) := by
  cases l <;> exact h.onMp hp id

/-! ### Timed phases of the burner -/

theorem tpchkExpired_acts (hr : p (.raise .fanNotStopped)) (h : Acts false p s₀ s) : Acts false p s₀ (tpchkExpired s) := by
  have h1 : Acts false p s₀ (s.onBs fun b => { b with tPchk := none }) := h.onBs fun _ => rfl
  simp only [tpchkExpired]
  exact .ite (fun _ => fmRaise_acts _ _ hr (toStandby_acts _ h1)) fun _ => h1

theorem purgeLimitExpired_acts (hr : p (.raise .fanNoSpeed)) (h : Acts false p s₀ s) :
    Acts false p s₀ (purgeLimitExpired s) := fmRaise_acts _ _ hr (toStandby_acts _ h)

theorem falseFlameFound_acts (hr : p (.raise .falseFlame)) (h : Acts false p s₀ s) :
    Acts false p s₀ (falseFlameFound s) := fmRaise_acts _ _ hr (faultStop_acts (h.onBs fun _ => rfl))

theorem tprespkExpired_acts (hg : p .gas) (hs : s.bs.state ≠ .run ∨ p .enter) (hr : p (.raise .falseFlame))
    (h : Acts false p s₀ s) : Acts false p s₀ (tprespkExpired s) := by
  have h1 : Acts false p s₀ (s.onBs fun b => { b with tPrespk := none }) := h.onBs fun _ => rfl
  simp only [tprespkExpired]
  exact .ite (fun _ => falseFlameFound_acts hr h1) fun _ => openGas_acts hg hs h1

theorem tsparkExpired_acts (h : Acts i p s₀ s) : Acts i p s₀ (tsparkExpired s) := h.onBs fun _ => rfl

theorem tsafeExpired_acts (hc : p .counts) (hr : p (.raise .ignitionFailure)) (h : Acts false p s₀ s) :
    Acts false p s₀ (tsafeExpired s) := by
  simp only [tsafeExpired]
  exact .ite (fun _ => toPostPurge_acts _ _ _ (bump_acts 3 hc (Acts.onBs h fun _ => rfl))) fun _ =>
    fmRaise_acts _ _ hr (toPostPurge_acts _ _ _ (bump_acts 3 hc (Acts.onBs h fun _ => rfl)))

theorem tstabExpired_acts (hp : p .enter) (h : Acts i p s₀ s) : Acts i p s₀ (tstabExpired s) :=
  toRun_acts hp (h.onBs fun _ => rfl)

theorem tpostExpired_acts (hr : p (.raise .gasRelay) ∨ RelaysOpen s) (h : Acts false p s₀ s) :
    Acts false p s₀ (tpostExpired s) := by
  simp only [tpostExpired]
  exact .ite (fun _ => toPreCheck_acts hr h) fun _ => toStandby_acts _ h

theorem lockPurgeExpired_acts (hs : s.bs.state ≠ .run ∨ p .output ∨ p .enter) (h : Acts i p s₀ s) :
    Acts i p s₀ (lockPurgeExpired s) := setFanTarget_acts _ hs (h.onBs fun _ => rfl)

theorem tffpostExpired_acts (hr : p (.raise .falseFlame)) (h : Acts false p s₀ s) : Acts false p s₀ (tffpostExpired s) := by
  have h1 : Acts false p s₀ (s.onBs fun b => { b with postGas := none }) := h.onBs fun _ => rfl
  simp only [tffpostExpired]
  exact .ite (fun _ => falseFlameFound_acts hr h1) fun _ => h1

/-! ### FM's timers, RESET_IN, seconds -/

theorem blockingExpired_acts (src : Source) (hp : p (.clear src)) (h : Acts false p s₀ s) :
    Acts false p s₀ (blockingExpired src s) := removeRecord_acts _ (.inl hp) (setBlockTimer_acts _ _ (.inr hp) h)

theorem resetInChanged_acts (low : Bool) (hp : p .press) (h : Acts i p s₀ s) : Acts i p s₀ (resetInChanged low s) := by
  have press : ∀ (t : Timer) (a : Bool), Acts i p s₀ (s.onFm fun f => { f with press := t, armed := a }) := fun t a =>
    h.trans
      { (Acts.refl : Acts i p s s) with
        press := .inl hp
        lead := by cases i <;> simp [LeadRel, State.listed] }
  simp only [resetInChanged]
  exact .ite (fun _ => press _ s.fm.armed) fun _ => press _ _

theorem resetInPressed_acts (hp : p .press) (hr : p .reset) (h : Acts i p s₀ s) : Acts i p s₀ (resetInPressed s) :=
  fmReset_acts _ _ hr (h.trans
    { (Acts.refl : Acts i p s s) with
      press := .inl hp
      lead := by cases i <;> simp [LeadRel, State.listed] })

theorem runSecond_acts (hc : p .counts) (h : Acts i p s₀ s) : Acts i p s₀ (runSecond s) := by
  simp only [runSecond]
  refine .ite (fun _ => ?_) fun _ => h
  split
  · exact bump_acts 5 hc (bump_acts 1 hc h)
  · exact bump_acts 5 hc (bump_acts 1 hc h)
  · exact bump_acts 6 hc (bump_acts 1 hc h)
  · exact bump_acts 1 hc h

theorem secondStep_acts (hk : p .clock) (hc : p .counts) (h : Acts i p s₀ s) : Acts i p s₀ (secondStep s) := by
  have h1 := runSecond_acts hc (idleSecond_acts (bump_acts 0 hc (secondClock_acts hk h)))
  simp only [secondStep]
  exact .ite (fun _ => offerCounters_acts h1) fun _ => h1

end Sys2Proof.Machine

/-! SUPPORT. What the operations of MG touch. -/

namespace Sys2Proof.Machine

variable {i : Bool} {p : Touch → Prop} {s₀ s : State}

/-! ### Updates of MG, of the nodes' live records and of a table -/

theorem Acts.onMg {f : Mg → Mg} (h : Acts i p s₀ s) (hp : p .manage) : Acts i p s₀ (s.onMg f) :=
  h.trans
    { (Acts.refl : Acts i p s s) with
      slot := .inr (.inl hp)
      manage := .inl hp }

/-- The proxy slot changed. -/
theorem Acts.onSlot {f : Mg → Mg} (h : Acts i p s₀ s) (hp : p .slot ∨ p .manage)
    (hf : ∀ m, { f m with slot := {} } = { m with slot := {} }) : Acts i p s₀ (s.onMg f) :=
  h.trans
    { (Acts.refl : Acts i p s s) with
      slot := by tauto
      manage := .inr (hf _) }

theorem Acts.onNode {a : Nat} {f : NodeLive → NodeLive} (h : Acts i p s₀ s) (hp : p .presence) :
    Acts i p s₀ (s.onNode a f) :=
  h.trans
    { (Acts.refl : Acts i p s s) with
      nodesLength := updateAt_length _ _ _
      nodes := .inl hp }

theorem setAnswer_acts (n : Nat) (q : List Byte) (hp : p .manage) (h : Acts i p s₀ s) : Acts i p s₀ (setAnswer n q s) :=
  h.onMg hp

/-! ### Writes -/

theorem nodeRecordWritten_acts (old : NodeKind) (a : Nat) (hp : p .presence) (hc : p (.clear .nodeAbsent))
    (h : Acts false p s₀ s) : Acts false p s₀ (nodeRecordWritten old a s) := by
  simp only [nodeRecordWritten]
  exact .ite (fun _ => h) fun _ => .ite (fun _ => fmClear_acts _ (.inl hc) (h.onNode hp)) fun _ => h.onNode hp

/-- What a management request may touch, the FAULTCODES table apart. -/
structure RequestScope (p : Touch → Prop) : Prop where
  tables : p .tables
  settings : p .settings
  counts : p .counts
  demand : p .demand
  calls : p .calls
  presence : p .presence
  absent : p (.clear .nodeAbsent)
  manage : p .manage
  poll : p .poll
  commit : p .commit
  reset : p .reset
  history : p .history

theorem applyWrite_acts (table e off : Nat) (d : List Byte) (hp : RequestScope p)
    (hc : p .codes ∨ (applyWrite table e off d s).st.faultCodes = s.st.faultCodes) (h : Acts false p s₀ s) :
    Acts false p s₀ (applyWrite table e off d s) := by
  revert hc
  simp only [applyWrite]
  split <;> intro hc
  · exact h.trans { (Acts.refl : Acts false p s s) with settings := .inl hp.settings }
  · exact h.trans { (Acts.refl : Acts false p s s) with tables := .inl hp.tables }
  · exact zoneWritten_acts _ _ hp.demand hp.calls
      (h.trans { (Acts.refl : Acts false p s s) with tables := .inl hp.tables })
  · exact nodesWritten_acts _ hp.demand hp.calls (nodeRecordWritten_acts _ _ hp.presence hp.absent
      (h.trans { (Acts.refl : Acts false p s s) with tables := .inl hp.tables }))
  · exact h.trans { (Acts.refl : Acts false p s s) with tables := .inl hp.tables }
  · refine h.trans
      { (Acts.refl : Acts false p s s) with
        codes := hc
        lead := .inr ⟨rfl, hc.imp id fun _ => .inl ⟨rfl, rfl⟩⟩ }
  · exact h.trans
      { (Acts.refl : Acts false p s s) with
        countersLength := updateAt_length _ _ _
        counters := .inl hp.counts }
  · exact h

theorem offer_codes (page : Nat) (s : State) : (s.offer page).st.faultCodes = s.st.faultCodes :=
  ((offer_acts page .refl : Acts false (fun _ => False) s (s.offer page)).codes).resolve_left id

theorem mgWriteLive_acts (table e : Nat) (data : List Byte) (hp : RequestScope p)
    (hc : p .codes ∨ (mgWriteLive table e data s).1.st.faultCodes = s.st.faultCodes) (h : Acts false p s₀ s) :
    Acts false p s₀ (mgWriteLive table e data s).1 := by
  revert hc
  simp only [mgWriteLive]
  repeat' split
  all_goals intro hc
  case _ => exact h
  case _ => exact h
  case _ => exact h
  case _ => exact applyWrite_acts _ _ _ _ hp (hc.imp id fun hc => hc.trans (offer_codes _ _).symm) (offer_acts _ h)
  case _ => exact h

theorem mgWriteStage_acts (e : Nat) (data : List Byte) (hp : p .manage) (h : Acts i p s₀ s) :
    Acts i p s₀ (mgWriteStage e data s).1 := by
  simp only [mgWriteStage]
  repeat' split
  case _ => exact h
  case _ => exact h
  case _ => exact h
  case _ => exact Acts.onMg (f := fun m => _) h hp

theorem mgWriteEntry_acts (table e : Nat) (data : List Byte) (hp : RequestScope p)
    (hc : p .codes ∨ (mgWriteEntry table e data s).1.st.faultCodes = s.st.faultCodes) (h : Acts false p s₀ s) :
    Acts false p s₀ (mgWriteEntry table e data s).1 := by
  revert hc
  simp only [mgWriteEntry]
  split <;> intro hc
  · exact mgWriteStage_acts _ _ hp.manage h
  · exact mgWriteLive_acts _ _ _ hp hc h

/-! ### Commit -/

theorem commitAccept_acts (crc : Nat) (hp : p .manage) (hc : p .commit) (hn : 8 ≤ s.freePlaces) (h : Acts i p s₀ s) :
    Acts i p s₀ (commitAccept crc s) := by
  have hj : s.st.jobs.length + 8 ≤ Config.queuePlaces := by
    simp only [State.freePlaces, Config.queuePlaces] at hn ⊢
    omega
  simp only [commitAccept]
  refine Acts.onJobs (setCommitHold_acts true hc (h.onMg hp)) (fun _ => rfl) id
    (fun j hj => List.mem_append_left _ hj) fun _ => ?_
  exact (List.length_append (as := s.st.jobs) (bs := commitJobs)).trans_le hj

theorem mgCommit_acts (crc : Nat) (hp : p .manage) (hc : p .commit) (h : Acts i p s₀ s) :
    Acts i p s₀ (mgCommit crc s).1 := by
  simp only [mgCommit]
  repeat' split
  case _ => exact h
  case _ => exact h
  case _ => exact h
  case _ => exact h
  case _ => exact h
  case _ hn => exact commitAccept_acts _ hp hc (by omega) h

theorem clampTchMax_acts (hp : p .settings) (h : Acts i p s₀ s) : Acts i p s₀ (clampTchMax s) := by
  simp only [clampTchMax]
  exact .ite (fun _ => h.trans
    { (Acts.refl : Acts i p s s) with
      settings := .inl hp
      lead := by cases i <;> simp [LeadRel, State.listed] }) fun _ => h

theorem reclampTchMax_acts (hp : p .settings) (hm : p .manage) (h : Acts i p s₀ s) :
    Acts i p s₀ (reclampTchMax s) := by
  simp only [reclampTchMax]
  exact .ite (fun _ => .ite (fun _ => offer_acts _ (clampTchMax_acts hp h)) fun _ => (clampTchMax_acts hp h).onMg hm)
    fun _ => h

theorem lowerCounts_acts (h : Acts i p s₀ s) : Acts i p s₀ (lowerCounts s) := h.onBs fun _ => rfl

theorem commitComplete_acts (hs : p .store) (hp : p .settings) (hm : p .manage) (hc : p .commit)
    (hr : p (.clear .paramIntegrity)) (h : Acts false p s₀ s) : Acts false p s₀ (commitComplete s) := by
  have h1 : Acts false p s₀ (s.onSt fun t => { t with safety := s.mg.staging, paramFault := false }) :=
    h.trans { (Acts.refl : Acts false p s s) with store := .inl hs }
  have h2 := setCommitHold_acts false hc (Acts.onMg (f := fun m =>
    { m with commit := .done, inconsistent := false, modified := false }) (lowerCounts_acts (reclampTchMax_acts hp hm h1)) hm)
  simp only [commitComplete]
  exact .ite (fun _ => fmClear_acts _ (.inl hr) h2) fun _ => h2

theorem commitAbort_acts (k : Nat) (hm : p .manage) (hc : p .commit) (h : Acts i p s₀ s) :
    Acts i p s₀ (commitAbort k s) := setCommitHold_acts _ hc (h.onMg hm)

/-! ### The proxy slot -/

theorem placeProxy_acts (t n : Nat) (hp : p .poll) (h : Acts i p s₀ s) : Acts i p s₀ (placeProxy t n s) := by
  simp only [placeProxy]
  exact .ite (fun _ => h) fun _ => h.trans { (Acts.refl : Acts i p s s) with urgent := .inl hp }

theorem mgProxyRead_acts (t n : Nat) (hp : p .poll) (hm : p .slot ∨ p .manage) (h : Acts i p s₀ s) :
    Acts i p s₀ (mgProxyRead t n s).1 := by
  simp only [mgProxyRead]
  split
  · exact placeProxy_acts _ _ hp (h.onSlot hm fun _ => rfl)
  · exact h
  · split
    · show Acts i p s₀ (s.onMg fun m => { m with slot := { m.slot with delivering := true } })
      exact Acts.onSlot h hm fun _ => rfl
    · exact h

theorem slotReady_acts (r : Result) (d : List Byte) (hm : p .slot ∨ p .manage) (h : Acts i p s₀ s) :
    Acts i p s₀ (slotReady r d s) := h.onSlot hm fun _ => rfl

theorem fetchResult_acts (r : Result) (d : List Byte) (hm : p .slot ∨ p .manage) (h : Acts i p s₀ s) :
    Acts i p s₀ (fetchResult r d s) := by
  simp only [fetchResult]
  exact .ite (fun _ => slotReady_acts _ _ hm h) fun _ => h

theorem mgBusReset_acts (hm : p .slot ∨ p .manage) (h : Acts i p s₀ s) : Acts i p s₀ (mgBusReset s) :=
  fetchResult_acts _ _ hm h

theorem mgClosing_acts (b : Bool) (hm : p .slot ∨ p .manage) (h : Acts i p s₀ s) : Acts i p s₀ (mgClosing b s) := by
  simp only [mgClosing]
  refine Acts.onSlot h hm fun m => ?_
  split <;> rfl

theorem slotExpired_acts (hm : p .slot ∨ p .manage) (h : Acts i p s₀ s) : Acts i p s₀ (slotExpired s) :=
  h.onSlot hm fun _ => rfl

/-! ### A request as a whole -/

theorem mgClearHistory_acts (hp : p .history) (h : Acts i p s₀ s) : Acts i p s₀ (mgClearHistory s).1 := by
  simp only [mgClearHistory]
  split
  · dsimp only
    exact clearRing_acts hp h
  · exact h

theorem mgRestart_acts (hp : p .manage) (h : Acts i p s₀ s) : Acts i p s₀ (mgRestart s).1 := by
  simp only [mgRestart]
  split
  · dsimp only
    exact Acts.onMg h hp
  · exact h

theorem mgCarryOut_acts (node kind : Nat) (ps : List Byte) (hp : RequestScope p)
    (hc : p .codes ∨ (mgCarryOut node kind ps s).1.st.faultCodes = s.st.faultCodes) (h : Acts false p s₀ s) :
    Acts false p s₀ (mgCarryOut node kind ps s).1 := by
  revert hc
  simp only [mgCarryOut]
  split <;> intro hc
  · exact h
  · exact mgWriteEntry_acts _ _ _ hp hc h
  · exact mgCommit_acts _ hp.manage hp.commit h
  · exact h
  · exact h
  · exact fmReset_acts _ _ hp.reset h
  · exact mgProxyRead_acts _ _ hp.poll (.inr hp.manage) h
  · exact mgClearHistory_acts hp.history h
  · exact mgRestart_acts hp.manage h

theorem mgDecide_acts (node kind : Nat) (ps : List Byte) (hp : RequestScope p)
    (hc : p .codes ∨ (mgDecide node kind ps s).1.st.faultCodes = s.st.faultCodes) (h : Acts false p s₀ s) :
    Acts false p s₀ (mgDecide node kind ps s).1 := by
  revert hc
  simp only [mgDecide]
  repeat' split
  all_goals intro hc
  case _ => exact h
  case _ => exact h
  case _ => exact h
  case _ => exact h
  case _ => exact mgCarryOut_acts _ _ _ hp hc h

/-- What a management request touches. -/
theorem mgHandle_acts (node : Nat) (kind tag : Byte) (ps : List Byte) (hp : RequestScope p)
    (hc : p .codes ∨ (mgHandle node kind tag ps s).st.faultCodes = s.st.faultCodes) (h : Acts false p s₀ s) :
    Acts false p s₀ (mgHandle node kind tag ps s) :=
  setAnswer_acts _ _ hp.manage (mgDecide_acts _ _ _ hp hc h)

end Sys2Proof.Machine

/-! SUPPORT. What the operations of ZP and PE, and the ends of an exchange, touch. -/

namespace Sys2Proof.Machine

variable {i : Bool} {p : Touch → Prop} {s₀ s : State}

/-! ### ZP -/

theorem Acts.onZp {f : Zp → Zp} (h : Acts i p s₀ s) (hp : p .link) : Acts i p s₀ (s.onZp f) :=
  h.trans
    { (Acts.refl : Acts i p s s) with
      link := .inl hp
      exchange := .inl hp }

theorem Acts.onExch {f : Exchange → Exchange} (h : Acts i p s₀ s) (hp : p .link) : Acts i p s₀ (s.onExch f) := h.onZp hp

theorem lineIdleFor_acts (n : Nat) (hp : p .line) (h : Acts i p s₀ s) : Acts i p s₀ (lineIdleFor n s) :=
  h.trans { (Acts.refl : Acts i p s s) with line := .inl hp }

theorem lineDominant_acts (hp : p .line) (h : Acts i p s₀ s) : Acts i p s₀ (lineDominant s) :=
  h.trans { (Acts.refl : Acts i p s s) with line := .inl hp }

theorem startSending_acts (hp : p .link) (h : Acts i p s₀ s) : Acts i p s₀ (startSending s) := h.onExch hp

theorem zpRequest_acts (n k : Nat) (q : List Byte) (l : List Nat) (hp : p .link) (h : Acts i p s₀ s) :
    Acts i p s₀ (zpRequest n k q l s) := by
  simp only [zpRequest]
  exact .ite (fun _ => startSending_acts hp (h.onZp hp)) fun _ => h.onZp hp

theorem requestSent_acts (hp : p .link) (hl : p .line) (h : Acts i p s₀ s) : Acts i p s₀ (requestSent s) := by
  simp only [requestSent]
  split
  · exact (lineIdleFor_acts _ hl h).onExch hp
  · exact h

theorem zpClosing_acts (q : List Byte) (hp : p .link) (h : Acts i p s₀ s) : Acts i p s₀ (zpClosing q s) := h.onExch hp

theorem startReceiving_acts (e : Nat) (hp : p .link) (h : Acts i p s₀ s) : Acts i p s₀ (startReceiving e s) :=
  (h.onZp hp).onExch hp

theorem rxByte_acts (b : Byte) (hp : p .link) (h : Acts i p s₀ s) : Acts i p s₀ (rxByte b s) := (h.onZp hp).onExch hp

theorem exchangeOver_acts (hp : p .link) (h : Acts i p s₀ s) : Acts i p s₀ (exchangeOver s) := h.onZp hp

theorem recordFailure_acts (r : Reason) (hp : p .link) (h : Acts i p s₀ s) : Acts i p s₀ (recordFailure r s) := by
  simp only [recordFailure]
  split
  · exact exchangeOver_acts hp (h.onZp hp)
  · exact h

theorem toSettling_acts (hp : p .link) (h : Acts i p s₀ s) : Acts i p s₀ (toSettling s) := h.onZp hp

theorem toClearing_acts (l : List Nat) (hp : p .link) (h : Acts i p s₀ s) : Acts i p s₀ (toClearing l s) := h.onZp hp

theorem toFault_acts (hp : p .link) (hr : p (.raise .busFault)) (h : Acts false p s₀ s) :
    Acts false p s₀ (toFault s) := fmRaise_acts _ _ hr (h.onZp hp)

theorem busFaultClear_acts (hp : p .link) (hc : p (.clear .busFault)) (h : Acts false p s₀ s) :
    Acts false p s₀ (busFaultClear s) := by
  simp only [busFaultClear]
  exact .ite (fun _ => fmClear_acts _ (.inl hc) (h.onZp hp)) fun _ => h

/-! ### Presence -/

theorem presenceGood_acts (a : Nat) (hp : p .presence) (hc : p (.clear .nodeAbsent)) (h : Acts false p s₀ s) :
    Acts false p s₀ (presenceGood a s) := by
  simp only [presenceGood]
  exact .ite (fun _ => fmClear_acts _ (.inl hc) (h.onNode hp)) fun _ => h.onNode hp

theorem nodeBecomesAbsent_acts (a : Nat) (hd : p .demand) (hc : p .calls) (hr : p (.raise .nodeAbsent))
    (h : Acts false p s₀ s) : Acts false p s₀ (nodeBecomesAbsent a s) :=
  roomUnitAbsent_acts _ hd hc (.ite (fun _ => h) fun _ => fmRaise_acts _ _ hr h)

theorem presenceMiss_acts (a : Nat) (hp : p .presence) (hd : p .demand) (hc : p .calls) (hr : p (.raise .nodeAbsent))
    (h : Acts false p s₀ s) : Acts false p s₀ (presenceMiss a s) := by
  simp only [presenceMiss]
  exact .ite (fun _ => h) fun _ => .ite (fun _ => nodeBecomesAbsent_acts _ hd hc hr (h.onNode hp)) fun _ => h.onNode hp

/-! ### PE -/

/-- The round, the port-ready mark and the urgent queue changed. -/
theorem Acts.onPe {f : Pe → Pe} (h : Acts i p s₀ s) (hp : p .poll)
    (hf : ∀ q, ((f q).nodes, (f q).outdoor, (f q).outdoorAt, (f q).leadCode) = (q.nodes, q.outdoor, q.outdoorAt, q.leadCode)) :
    Acts i p s₀ (s.onPe f) := by
  have hf := hf s.pe
  simp only [Prod.mk.injEq] at hf
  obtain ⟨h1, h2, h3, h4⟩ := hf
  exact h.trans
    { (Acts.refl : Acts i p s s) with
      lead := by cases i <;> simp [LeadRel, State.listed, h4]
      code := by simp [h4]
      round := .inl hp
      urgent := .inl hp
      nodesLength := by simp [h1]
      nodes := by simp [h1]
      outdoor := by simp [h2, h3] }

theorem Acts.onRound {f : Round → Round} (h : Acts i p s₀ s) (hp : p .poll) : Acts i p s₀ (s.onRound f) :=
  Acts.onPe (f := fun q => { q with round := f q.round }) h hp fun _ => rfl

theorem hand_acts (f : InFlight) (n k : Nat) (q : List Byte) (l : List Nat) (hp : p .poll) (hl : p .link)
    (h : Acts i p s₀ s) : Acts i p s₀ (hand f n k q l s) := zpRequest_acts _ _ _ _ hl (h.onPe hp fun _ => rfl)

theorem noteOverflow_acts (t : Taken) (hp : p .poll) (h : Acts i p s₀ s) : Acts i p s₀ (noteOverflow t s) := by
  simp only [noteOverflow]
  exact .ite (fun _ => h) fun _ => h.onRound hp

theorem handEntry_acts (t : Taken) (hp : p .poll) (hl : p .link) (h : Acts i p s₀ s) : Acts i p s₀ (handEntry t s) := by
  simp only [handEntry]
  exact hand_acts _ _ _ _ _ hp hl (Acts.onRound (noteOverflow_acts t hp h) hp)

theorem handServicePoll_acts (hp : p .poll) (hl : p .link) (h : Acts i p s₀ s) : Acts i p s₀ (handServicePoll s) :=
  hand_acts _ _ _ _ _ hp hl h

theorem removeInFlight_acts (hp : p .poll) (h : Acts i p s₀ s) : Acts i p s₀ (removeInFlight s) := h.onPe hp fun _ => rfl

theorem afterService_acts (hp : p .poll) (hl : p .link) (h : Acts i p s₀ s) : Acts i p s₀ (afterService s) := by
  have h1 : Acts i p s₀ (s.onRound fun r => { r with service := none }) := h.onRound hp
  simp only [afterService]
  generalize (s.onRound fun r => { r with service := none }) = u at h1 ⊢
  split
  · exact handServicePoll_acts hp hl h1
  · split
    · exact handEntry_acts _ hp hl h1
    · exact h1

theorem serveLow_acts (low : Bool) (hp : p .poll) (hl : p .link) (h : Acts i p s₀ s) : Acts i p s₀ (serveLow low s) := by
  simp only [serveLow]
  split
  · split
    · exact hand_acts _ _ _ _ _ hp hl (Acts.onPe h hp fun _ => rfl)
    · exact afterService_acts hp hl h
  · exact afterService_acts hp hl h
  · exact afterService_acts hp hl h

theorem serveZones_acts (low : Bool) (l : List Nat) (hp : p .poll) (hl : p .link) (hd : p .demand)
    (h : Acts false p s₀ s) : Acts false p s₀ (serveZones low l s) := by
  induction l generalizing s with
  | nil => exact serveLow_acts low hp hl h
  | cons z r ih =>
    simp only [serveZones]
    split
    · exact ih h
    · split
      · exact ih (valveResult_acts _ _ _ hd (Acts.onPe h hp fun _ => rfl))
      · exact hand_acts _ _ _ _ _ hp hl (Acts.onPe h hp fun _ => rfl)

theorem servicePoint_acts (hp : p .poll) (hl : p .link) (hd : p .demand) (h : Acts false p s₀ s) :
    Acts false p s₀ (servicePoint s) := serveZones_acts _ _ hp hl hd h

theorem passEnd_acts (hp : p .poll) (hl : p .link) (hd : p .demand) (h : Acts false p s₀ s) :
    Acts false p s₀ (passEnd s) := servicePoint_acts hp hl hd (reconcile_acts hd (h.onRound hp))

theorem takeUp_acts (n : Nat) (t : Taken) (hp : p .poll) (hl : p .link) (hd : p .demand) (h : Acts false p s₀ s) :
    Acts false p s₀ (takeUp n t s) := by
  induction n generalizing t s with
  | zero => exact h
  | succ n ih =>
    have h1 : Acts false p s₀ (s.onRound fun r => { r with cur := some t, pre := none }) := h.onRound hp
    simp only [takeUp]
    generalize (s.onRound fun r => { r with cur := some t, pre := none }) = u at h1 ⊢
    split
    · exact servicePoint_acts hp hl hd h1
    · split
      · exact ih _ h1
      · exact passEnd_acts hp hl hd h1

theorem startRound_acts (hp : p .poll) (hl : p .link) (hd : p .demand) (h : Acts false p s₀ s) :
    Acts false p s₀ (startRound s) := by
  simp only [startRound]
  exact .ite (fun _ => h) fun _ => takeUp_acts _ _ hp hl hd (Acts.onRound h hp)

theorem maybeStart_acts (hp : p .poll) (hl : p .link) (hd : p .demand) (h : Acts false p s₀ s) :
    Acts false p s₀ (maybeStart s) := by
  simp only [maybeStart]
  exact .ite (fun _ => startRound_acts hp hl hd h) fun _ => h

theorem roundEnd_acts (hp : p .poll) (hl : p .link) (hd : p .demand) (h : Acts false p s₀ s) :
    Acts false p s₀ (roundEnd s) := maybeStart_acts hp hl hd (h.onRound hp)

theorem afterEntry_acts (hp : p .poll) (hl : p .link) (hd : p .demand) (h : Acts false p s₀ s) :
    Acts false p s₀ (afterEntry s) := by
  simp only [afterEntry]
  repeat' split
  case _ => exact h
  case _ => exact passEnd_acts hp hl hd h
  case _ => exact takeUp_acts _ _ hp hl hd h
  case _ => exact passEnd_acts hp hl hd h

theorem peContinue_acts (f : InFlight) (hp : p .poll) (hl : p .link) (hd : p .demand) (h : Acts false p s₀ s) :
    Acts false p s₀ (peContinue f s) := by
  have h1 : Acts false p s₀ (s.onPe fun q => { q with portReady := true, round := { q.round with inFlight := none } }) :=
    h.onPe hp fun _ => rfl
  simp only [peContinue]
  generalize (s.onPe fun q => { q with portReady := true, round := { q.round with inFlight := none } }) = u at h1 ⊢
  refine .ite (fun _ => h1) fun _ => ?_
  have serve : Acts false p s₀ (match u.pe.round.service with
      | some v => serveZones v.low v.zones u
      | none => u) := by
    split
    · exact serveZones_acts _ _ hp hl hd h1
    · exact h1
  cases f with
  | entry => exact afterEntry_acts hp hl hd h1
  | servicePoll => exact roundEnd_acts hp hl hd h1
  | valve => exact serve
  | proxy => exact serve

theorem readyReport_acts (hp : p .poll) (hl : p .link) (hd : p .demand) (h : Acts false p s₀ s) :
    Acts false p s₀ (readyReport s) := by
  have h1 : Acts false p s₀ (s.onPe fun q => { q with portReady := true }) := h.onPe hp fun _ => rfl
  simp only [readyReport]
  exact .ite (fun _ => startRound_acts hp hl hd h1) fun _ => maybeStart_acts hp hl hd h1

/-! ### Replies -/

theorem modifierSkip_acts (hp : p .poll) (h : Acts i p s₀ s) : Acts i p s₀ (modifierSkip s) := by
  simp only [modifierSkip]
  repeat' split
  all_goals with_reducible first | exact h | exact Acts.onRound h hp

theorem takeOutdoor_acts (n : Nat) (q : List Byte) (hp : p .outdoor) (h : Acts i p s₀ s) :
    Acts i p s₀ (takeOutdoor n q s) := by
  simp only [takeOutdoor]
  exact .ite (fun _ => h.trans { (Acts.refl : Acts i p s s) with outdoor := .inl hp }) fun _ => h

/-- What an exchange on the bus may touch, the FAULTCODES table apart. -/
structure BusScope (p : Touch → Prop) : Prop extends RequestScope p where
  link : p .link
  outdoor : p .outdoor
  busFault : p (.clear .busFault)

theorem handToMg_acts (n : Nat) (q : List Byte) (hp : RequestScope p)
    (hc : p .codes ∨ (handToMg n q s).st.faultCodes = s.st.faultCodes) (h : Acts false p s₀ s) :
    Acts false p s₀ (handToMg n q s) := mgHandle_acts _ _ _ _ hp hc h

theorem takeEntryReply_acts (t : Taken) (n k : Nat) (q : List Byte) (hp : BusScope p)
    (hc : p .codes ∨ (takeEntryReply t n k q s).st.faultCodes = s.st.faultCodes) (h : Acts false p s₀ s) :
    Acts false p s₀ (takeEntryReply t n k q s) := by
  revert hc
  simp only [takeEntryReply]
  split
  · exact fun _ => h
  · split
    · exact fun _ => takeDemand_acts _ _ _ _ hp.demand hp.calls h
    · exact fun _ => valveReport_acts _ _ _ hp.demand h
    · exact fun _ => takeOutdoor_acts _ _ hp.outdoor h
    · split
      · exact fun hc => handToMg_acts _ _ hp.toRequestScope hc h
      · exact fun _ => h
    · exact fun _ => h
    · exact fun _ => h

/-- Everything but FAULTCODES. -/
def notCodes (x : Touch) : Prop := x ≠ .codes

theorem Acts.codes_kept {t u : State} (h : Acts false notCodes t u) : u.st.faultCodes = t.st.faultCodes :=
  h.codes.resolve_left fun h => h rfl

theorem takeReply_acts (f : InFlight) (n k : Nat) (q : List Byte) (hp : BusScope p)
    (hc : p .codes ∨ (takeReply f n k q s).st.faultCodes = s.st.faultCodes) (h : Acts false p s₀ s) :
    Acts false p s₀ (takeReply f n k q s) := by
  have h1 := presenceGood_acts n hp.presence hp.absent h
  have c1 : (presenceGood n s).st.faultCodes = s.st.faultCodes :=
    (presenceGood_acts n nofun nofun .refl : Acts false notCodes s _).codes_kept
  revert hc
  simp only [takeReply]
  generalize presenceGood n s = u at h1 c1 ⊢
  rw [← c1]
  cases f with
  | entry =>
    dsimp only
    split
    · have h2 : Acts false p s₀ (if replyModifier q then modifierSkip u else u) :=
        .ite (fun _ => modifierSkip_acts hp.poll h1) fun _ => h1
      have c2 : (if replyModifier q then modifierSkip u else u).st.faultCodes = u.st.faultCodes :=
        (Acts.ite (fun _ => modifierSkip_acts nofun .refl) fun _ => .refl : Acts false notCodes u _).codes_kept
      rw [← c2]
      exact fun hc => takeEntryReply_acts _ _ _ _ hp hc h2
    · exact fun _ => h1
  | servicePoll =>
    dsimp only
    split
    · exact fun hc => handToMg_acts _ _ hp.toRequestScope hc h1
    · exact fun _ => h1
  | valve => exact fun _ => valveResult_acts _ _ _ hp.demand (removeInFlight_acts hp.poll h1)
  | proxy =>
    dsimp only
    split
    · exact fun _ => fetchResult_acts _ _ (.inr hp.manage) (removeInFlight_acts hp.poll h1)
    · exact fun _ => fetchResult_acts _ _ (.inr hp.manage) (removeInFlight_acts hp.poll h1)

theorem takeFailure_acts (f : InFlight) (n : Nat) (hp : p .poll) (hd : p .demand) (hl : p .calls) (hn : p .presence)
    (hm : p .slot ∨ p .manage) (hr : p (.raise .nodeAbsent)) (h : Acts false p s₀ s) :
    Acts false p s₀ (takeFailure f n s) := by
  have h1 := presenceMiss_acts n hn hd hl hr h
  simp only [takeFailure]
  cases f with
  | entry => exact h1
  | servicePoll => exact h1
  | valve => exact valveResult_acts _ _ _ hd (removeInFlight_acts hp h1)
  | proxy => exact fetchResult_acts _ _ hm (removeInFlight_acts hp h1)

theorem peBusReset_acts (hp : p .poll) (hn : p .presence) (hc : p (.clear .nodeAbsent)) (h : Acts false p s₀ s) :
    Acts false p s₀ (peBusReset s) := by
  have h1 : Acts false p s₀ (s.onPe fun p =>
      { p with
        nodes := p.nodes.map (fun n => { n with presence := .unknown, miss := 0 })
        urgent := [], portReady := false
        round := { p.round with
          state := .waitingPort, cur := none, pre := none, passDone := false, service := none, inFlight := none } }) :=
    h.trans
      { (Acts.refl : Acts false p s s) with
        round := .inl hp
        urgent := .inl hp
        nodesLength := List.length_map _
        nodes := .inl hn }
  simp only [peBusReset]
  exact .ite (fun _ => fmClear_acts _ (.inl hc) h1) fun _ => h1

/-! ### Ends of an exchange -/

/-- What the end of an exchange or a bus port reset may touch, a good reply apart. -/
structure FailScope (p : Touch → Prop) : Prop where
  link : p .link
  poll : p .poll
  demand : p .demand
  calls : p .calls
  presence : p .presence
  slot : p .slot ∨ p .manage
  absent : p (.raise .nodeAbsent)

theorem failExchange_acts (r : Reason) (hp : FailScope p) (h : Acts false p s₀ s) : Acts false p s₀ (failExchange r s) := by
  simp only [failExchange]
  split
  · exact peContinue_acts _ hp.poll hp.link hp.demand (takeFailure_acts _ _ hp.poll hp.demand hp.calls hp.presence hp.slot
      hp.absent (recordFailure_acts _ hp.link h))
  · exact recordFailure_acts _ hp.link h
  · exact h

theorem closingOutcome_acts (b : Bool) (hp : p .poll) (hl : p .link) (hd : p .demand) (hm : p .slot ∨ p .manage)
    (h : Acts false p s₀ s) : Acts false p s₀ (closingOutcome b s) := by
  have h1 : Acts false p s₀ (mgClosing b (if b then exchangeOver s else recordFailure .stretch s)) :=
    mgClosing_acts b hm (.ite (fun _ => exchangeOver_acts hl h) fun _ => recordFailure_acts .stretch hl h)
  simp only [closingOutcome]
  split
  · exact peContinue_acts _ hp hl hd h1
  · exact h1

theorem finishReply_acts (c : Bool) (f : InFlight) (hp : p .poll) (hl : p .link) (hd : p .demand)
    (h : Acts false p s₀ s) : Acts false p s₀ (finishReply c f s) := by
  simp only [finishReply]
  exact .ite (fun _ => zpClosing_acts _ hl h) fun _ => peContinue_acts _ hp hl hd (exchangeOver_acts hl h)

theorem goodReply_acts (f : InFlight) (n k : Nat) (q : List Byte) (hp : BusScope p)
    (hc : p .codes ∨ (goodReply f n k q s).st.faultCodes = s.st.faultCodes) (h : Acts false p s₀ s) :
    Acts false p s₀ (goodReply f n k q s) := by
  have after : ∀ {p : Touch → Prop} {s₀ u : State}, p .poll → p .link → p .demand → p (.clear .busFault) →
      Acts false p s₀ u → Acts false p s₀ (finishReply (s.wantsClosing f k q) f ((busFaultClear u).onZp rxEmpty)) :=
    fun hp hl hd hb h => finishReply_acts _ _ hp hl hd ((busFaultClear_acts hl hb h).onZp hl)
  have c1 : (goodReply f n k q s).st.faultCodes = (takeReply f n k q s).st.faultCodes :=
    (after (p := notCodes) nofun nofun nofun nofun .refl).codes_kept
  rw [c1] at hc
  exact after hp.poll hp.link hp.demand hp.busFault (takeReply_acts _ _ _ _ hp hc h)

theorem replyComplete_acts (b : Byte) (hp : BusScope p) (hf : FailScope p)
    (hc : p .codes ∨ (replyComplete b s).st.faultCodes = s.st.faultCodes) (h : Acts false p s₀ s) :
    Acts false p s₀ (replyComplete b s) := by
  revert hc
  simp only [replyComplete]
  split
  · split
    · exact fun _ => failExchange_acts _ hf h
    · exact fun hc => goodReply_acts _ _ _ _ hp hc h
  · exact fun _ => h

/-! ### Bus port reset -/

theorem resetExchange_acts (hp : FailScope p) (h : Acts false p s₀ s) : Acts false p s₀ (resetExchange s) := by
  have h1 := recordFailure_acts .noReply hp.link h
  simp only [resetExchange]
  split
  · exact .ite (fun _ => mgClosing_acts _ hp.slot h1) fun _ => takeFailure_acts _ _ hp.poll hp.demand hp.calls hp.presence
      hp.slot hp.absent h1
  · exact h1
  · exact h

theorem busPortReset_acts (hp : FailScope p) (hc : p (.clear .nodeAbsent)) (h : Acts false p s₀ s) :
    Acts false p s₀ (busPortReset s) :=
  mgBusReset_acts hp.slot (dmBusReset_acts hp.demand (peBusReset_acts hp.poll hp.presence hc
    ((resetExchange_acts hp h).onZp hp.link)))

theorem busClear_acts (hp : FailScope p) (hc : p (.clear .nodeAbsent)) (hr : p (.raise .busFault))
    (h : Acts false p s₀ s) : Acts false p s₀ (busClear s) := by
  have h1 := busPortReset_acts hp hc h
  simp only [busClear]
  exact .ite (fun _ => toClearing_acts _ hp.link h1) fun _ => toFault_acts hp.link hr h1

theorem overcurrent_acts (hp : FailScope p) (hc : p (.clear .nodeAbsent)) (hr : p (.raise .busFault))
    (h : Acts false p s₀ s) : Acts false p s₀ (overcurrent s) := by
  simp only [overcurrent]
  exact .ite (fun _ => toFault_acts hp.link hr (busPortReset_acts hp hc h)) fun _ => h

/-- What a management request touches, carried by a poll or taken as a command of its own. -/
theorem mgmtRequest_acts (n : Nat) (k tag : Byte) (q : List Byte) (hp : BusScope p)
    (hc : p .codes ∨ (mgmtRequest n k tag q s).st.faultCodes = s.st.faultCodes) (h : Acts false p s₀ s) :
    Acts false p s₀ (mgmtRequest n k tag q s) := by
  have own : (p .codes ∨ (mgClosing false (mgHandle n k tag q s)).st.faultCodes = s.st.faultCodes) →
      Acts false p s₀ (mgClosing false (mgHandle n k tag q s)) := fun hc =>
    mgClosing_acts _ (.inr hp.manage) (mgHandle_acts _ _ _ _ hp.toRequestScope hc h)
  revert hc
  simp only [mgmtRequest]
  split
  · split
    · exact fun hc => goodReply_acts _ _ _ _ hp hc h
    · exact own
  · exact own

/-! ### The bus's own commands -/

theorem settleExpired_acts (hp : p .poll) (hl : p .link) (hd : p .demand) (h : Acts false p s₀ s) :
    Acts false p s₀ (settleExpired s) := readyReport_acts hp hl hd (h.onZp hl)

theorem periodExpired_acts (hp : p .poll) (hl : p .link) (hd : p .demand) (h : Acts false p s₀ s) :
    Acts false p s₀ (periodExpired s) := maybeStart_acts hp hl hd (h.onRound hp)

theorem lineCheckIdle_acts (hk : p .clock) (hl : p .link) (h : Acts i p s₀ s) : Acts i p s₀ (lineCheckIdle s) := by
  simp only [lineCheckIdle]
  exact .ite (fun _ => startSending_acts hl (h.reach hk)) fun _ => h

theorem lineDominance_acts (hk : p .clock) (hp : FailScope p) (hc : p (.clear .nodeAbsent)) (hr : p (.raise .busFault))
    (h : Acts false p s₀ s) : Acts false p s₀ (lineDominance s) := by
  simp only [lineDominance]
  split
  · exact .ite (fun _ => busClear_acts hp hc hr (h.reach hk)) fun _ => h
  · exact h

theorem lineCheckLong_acts (hk : p .clock) (hp : FailScope p) (hc : p (.clear .nodeAbsent)) (hr : p (.raise .busFault))
    (h : Acts false p s₀ s) : Acts false p s₀ (lineCheckLong s) := by
  simp only [lineCheckLong]
  split
  · exact .ite (fun _ => busClear_acts hp hc hr (h.reach hk)) fun _ => h
  · exact h

theorem requestEnd_acts (hk : p .clock) (hl : p .link) (hn : p .line) (h : Acts i p s₀ s) : Acts i p s₀ (requestEnd s) := by
  simp only [requestEnd]
  repeat' split
  case _ => exact requestSent_acts hl hn (h.reach hk)
  all_goals exact h

theorem holdReached_acts (hk : p .clock) (hp : FailScope p) (h : Acts false p s₀ s) : Acts false p s₀ (holdReached s) := by
  simp only [holdReached]
  repeat' split
  case _ => exact failExchange_acts _ hp (h.reach hk)
  case _ => exact closingOutcome_acts _ hp.poll hp.link hp.demand hp.slot (h.reach hk)
  all_goals exact h

theorem markSeen_acts (run : Nat) (hl : p .link) (hn : p .line) (h : Acts i p s₀ s) : Acts i p s₀ (markSeen run s) := by
  simp only [markSeen]
  split
  · exact .ite (fun _ => startReceiving_acts _ hl (lineIdleFor_acts _ hn h)) fun _ => h
  · exact h

theorem replyWindowEnds_acts (hp : FailScope p) (h : Acts false p s₀ s) : Acts false p s₀ (replyWindowEnds s) := by
  simp only [replyWindowEnds]
  exact .ite (fun _ => h.onExch hp.link) fun _ => failExchange_acts _ hp h

theorem framingBroken_acts (c : FramingCause) (hp : FailScope p) (hn : p .line) (h : Acts false p s₀ s) :
    Acts false p s₀ (framingBroken c s) := by
  simp only [framingBroken]
  split
  · refine .ite (fun _ => failExchange_acts _ hp (lineDominant_acts hn h)) fun _ =>
      .ite (fun _ => failExchange_acts _ hp ?_) fun _ => h
    cases c with
    | stopBitDominant => exact lineDominant_acts hn h
    | overlongRun => exact lineDominant_acts hn h
    | idleBreak => exact lineIdleFor_acts _ hn h
    | lengthAbove16 => exact lineIdleFor_acts _ hn h
  · exact h

theorem replyByte_acts (b : Byte) (hp : FailScope p) (hn : p .line) (h : Acts false p s₀ s) :
    Acts false p s₀ (replyByte b s) := by
  have h1 := rxByte_acts b hp.link (lineIdleFor_acts (idleTail b) hn h)
  simp only [replyByte]
  exact .ite (fun _ => .ite (fun _ => failExchange_acts _ hp h1) fun _ => h1) fun _ => h

theorem replyCheck_acts (b : Byte) (hp : BusScope p) (hf : FailScope p) (hn : p .line)
    (hc : p .codes ∨ (replyCheck b s).st.faultCodes = s.st.faultCodes) (h : Acts false p s₀ s) :
    Acts false p s₀ (replyCheck b s) := by
  revert hc
  simp only [replyCheck]
  split
  · exact fun hc => replyComplete_acts _ hp hf hc (lineIdleFor_acts _ hn h)
  · exact fun _ => h

theorem closingEnd_acts (hk : p .clock) (hp : p .poll) (hl : p .link) (hd : p .demand) (hm : p .slot ∨ p .manage)
    (hn : p .line) (h : Acts false p s₀ s) : Acts false p s₀ (closingEnd s) := by
  simp only [closingEnd]
  repeat' split
  case _ => exact closingOutcome_acts _ hp hl hd hm (lineIdleFor_acts _ hn (h.reach hk))
  all_goals exact h

theorem lineFalls_acts (hl : p .link) (h : Acts i p s₀ s) : Acts i p s₀ (lineFalls s) := h.onExch hl

theorem lineRises_acts (n : Nat) (hp : FailScope p) (h : Acts false p s₀ s) : Acts false p s₀ (lineRises n s) := by
  simp only [lineRises]
  split
  · exact .ite (fun _ => Acts.onExch h hp.link) fun _ => .ite (fun _ => failExchange_acts _ hp h) fun _ => h
  · exact h

theorem lineChanged_acts (d : Bool) (n : Nat) (hp : FailScope p) (h : Acts false p s₀ s) :
    Acts false p s₀ (lineChanged d n s) := by
  simp only [lineChanged]
  exact .ite (fun _ => .ite (fun _ => lineFalls_acts hp.link h) fun _ => lineRises_acts _ hp h) fun _ => h

end Sys2Proof.Machine

/-! SUPPORT. What the end of a page write touches, and what each command touches. -/

namespace Sys2Proof.Machine

variable {i : Bool} {p : Touch → Prop} {s₀ s t : State}

/-! ### The end of a page write -/

theorem reofferPage_acts (page : Nat) (hp : p .history) (h : Acts i p s₀ s) : Acts i p s₀ (reofferPage s page) := by
  simp only [reofferPage]
  exact .ite (fun _ => Acts.onPast (offer_acts page h) (.inl hp) fun _ => rfl) fun _ => h

theorem fmReoffer_acts (hp : p .history) (h : Acts i p s₀ s) : Acts i p s₀ (fmReoffer s) := by
  simp only [fmReoffer]
  exact Acts.foldl (fun a h => reofferPage_acts a hp h) _
    (.ite (fun _ => Acts.onFm (offer_acts 9 h) fun _ => rfl) fun _ => h)

theorem reofferLockout_acts (page : Nat) (good : Bool) (h : Acts i p s₀ s) : Acts i p s₀ (reofferLockout page good s) := by
  simp only [reofferLockout]
  exact .ite (fun _ => queueLockoutPage_acts (h.onFm fun _ => rfl)) fun _ => h

theorem fmPage8_acts (good : Bool) (c : LockState) (hh : p .history)
    (hp : p .unlock ∨ ¬(good = true ∧ c = .none ∧ s.fm.lockout.state = .resetPending)) (h : Acts false p s₀ s) :
    Acts false p s₀ (fmPage8 good c s) := by
  have h1 : Acts false p s₀ (if s.st.lockJob then s else s.onFm fun f => { f with writeOut := false }) :=
    .ite (fun _ => h) fun _ => h.onFm fun _ => rfl
  have e1 : (if s.st.lockJob then s else s.onFm fun f => { f with writeOut := false }).fm.lockout = s.fm.lockout := by
    split <;> rfl
  simp only [fmPage8]
  generalize (if s.st.lockJob then s else s.onFm fun f => { f with writeOut := false }) = u at h1 e1 ⊢
  refine .ite (fun hg => .ite (fun hc => ?_) fun _ => h1) fun _ => .ite (fun _ => h1.onFm fun _ => rfl) fun _ => h1
  rw [e1] at hc
  exact resetComplete_acts (hp.resolve_right fun hn => hn ⟨hg, hc⟩) hh h1

theorem fmReport_acts (w : Write) (good : Bool) (hh : p .history)
    (hp : p .unlock ∨ ¬(good = true ∧ w.page = 8 ∧ w.carried = .none ∧ s.fm.lockout.state = .resetPending))
    (h : Acts false p s₀ s) : Acts false p s₀ (fmReport w good s) := by
  simp only [fmReport]
  refine reofferLockout_acts _ _ (fmReoffer_acts hh (.ite (fun hw => fmPage8_acts _ _ hh (hp.imp id ?_) h) fun _ => h))
  exact fun hn hc => hn ⟨hc.1, hw, hc.2⟩

theorem mgReport_acts (w : Write) (good : Bool) (hs : p .store) (hp : p .settings) (hm : p .manage) (hc : p .commit)
    (hr : p (.clear .paramIntegrity)) (h : Acts false p s₀ s) : Acts false p s₀ (mgReport w good s) := by
  have h1 : Acts false p s₀ (if w.commit then (if good then (if w.page = 7 then commitComplete s else s)
      else commitAbort w.page s) else s) :=
    .ite (fun _ => .ite (fun _ => .ite (fun _ => commitComplete_acts hs hp hm hc hr h) fun _ => h)
      fun _ => commitAbort_acts _ hm hc h) fun _ => h
  simp only [mgReport]
  exact .ite (fun _ => Acts.onMg (offer_acts 11 h1) hm) fun _ => h1

theorem reofferCounters_acts (h : Acts i p s₀ s) : Acts i p s₀ (reofferCounters s) := by
  simp only [reofferCounters]
  exact .ite (fun _ => Acts.onJobs (offer_acts 10 h) (fun _ => rfl) id (fun _ => id) id) fun _ => h

theorem writeReports_acts (w : Write) (good : Bool) (hs : p .store) (hp : p .settings) (hm : p .manage) (hc : p .commit)
    (hr : p (.clear .paramIntegrity)) (hh : p .history)
    (hu : p .unlock ∨ ¬(good = true ∧ w.page = 8 ∧ w.carried = .none ∧ s.fm.lockout.state = .resetPending))
    (h : Acts false p s₀ s) : Acts false p s₀ (writeReports w good s) :=
  reofferCounters_acts (mgReport_acts _ _ hs hp hm hc hr (fmReport_acts _ _ hh hu h))

theorem writeGood_acts (w : Write) (hs : p .store) (hc : p (.clear .storeFault)) (h : Acts false p s₀ s) :
    Acts false p s₀ (writeGood w s) := by
  have h1 : Acts false p s₀ (State.onSt { s with nv := noteSlot w (s.nv.program (physPage w.page w.slotB) w.copy) }
      fun t => { t with write := none, storeFault := false }) :=
    h.trans
      { (Acts.refl : Acts false p s s) with
        store := .inl hs
        stands := .inl hs
        write := .inl hs }
  simp only [writeGood]
  exact .ite (fun _ => fmClear_acts _ (.inl hc) h1) fun _ => h1

theorem writeDropped_acts (w : Write) (hs : p .store) (hr : p (.raise .storeFault)) (h : Acts false p s₀ s) :
    Acts false p s₀ (writeDropped w s) := by
  simp only [writeDropped]
  refine fmRaise_acts _ _ hr (h.trans
    { (Acts.refl : Acts false p s s) with
      store := .inl hs
      fits := ?_
      stands := .inl hs
      write := .inl hs })
  intro hn
  show (if w.commit then s.st.jobs.filter (fun j => !j.commit) else s.st.jobs).length ≤ _
  split
  · exact (List.length_filter_le _ _).trans hn
  · exact hn

/-- What the end of a write attempt touches; a lockout is left only where a copy that carried NONE is written with the record RESET_PENDING. -/
theorem writeEnd_acts (v : Bool) (hk : p .clock) (hs : p .store) (hp : p .settings) (hm : p .manage) (hc : p .commit)
    (hh : p .history) (hpi : p (.clear .paramIntegrity)) (hsc : p (.clear .storeFault)) (hsr : p (.raise .storeFault))
    (hu : p .unlock ∨ (v = true → ∀ w, s.st.write = some w →
      ¬(w.page = 8 ∧ w.carried = .none ∧ s.fm.lockout.state = .resetPending)))
    (h : Acts false p s₀ s) : Acts false p s₀ (writeEnd v s) := by
  simp only [writeEnd]
  split
  · exact h
  · rename_i w hw
    have h1 := h.reach (t := w.due) hk
    split
    · rename_i hv
      refine writeReports_acts w _ hs hp hm hc hpi hh (hu.imp id fun hu => ?_) (writeGood_acts w hs hsc h1)
      have e1 : (writeGood w (s.reach w.due)).fm.lockout = s.fm.lockout :=
        ((writeGood_acts (p := fun x => x = .store ∨ x = .clear .storeFault) w (.inl rfl) (.inr rfl) .refl).lockout).resolve_left
          (by simp) |>.resolve_left (by simp) |>.resolve_left (by simp)
      rw [e1]
      exact fun hn => hu hv w hw hn.2
    · split
      · exact h1.trans
          { (Acts.refl : Acts false p _ _) with
            stands := .inl hs
            write := .inl hs }
      · exact writeReports_acts w _ hs hp hm hc hpi hh (.inr nofun) (writeDropped_acts w hs hsr h1)

/-! ### What each command touches -/

/-- The bus and the requests: the families that reach the port, PE, MG and the tables. -/
def carries (c : Instr) : Bool := familyOf c == .bus || familyOf c == .request

/-- What a command may touch, by its family. -/
def reaches (c : Instr) : Touch → Bool
  | .line => familyOf c == .bus
  | .frame => match c with
    | .frameCompletion _ => true
    | _ => false
  | .measure => familyOf c == .measure
  | .link | .poll | .presence | .outdoor | .tables | .codes => carries c
  | .slot | .manage | .settings => carries c || familyOf c == .store
  | .counts => carries c || (match c with
    | .flameSample _ | .tsafeExpiry | .powerOnSecond => true
    | _ => false)
  | .store | .unlock => familyOf c == .store
  | _ => true

/-- The scope of a command; `cc` allows a change of FAULTCODES and `uu` the completion of a lockout reset. -/
def scope (c : Instr) (cc uu : Prop) (x : Touch) : Prop := reaches c x = true ∧ (x = .codes → cc) ∧ (x = .unlock → uu)

theorem scope_of {c : Instr} {cc uu : Prop} {x : Touch} (h : reaches c x = true) (hc : x ≠ .codes) (hu : x ≠ .unlock) :
    scope c cc uu x := ⟨h, fun h => absurd h hc, fun h => absurd h hu⟩

theorem expire_acts {T : Timer} {f : State → State} (hk : p .clock) (hf : ∀ {s}, Acts i p s₀ s → Acts i p s₀ (f s))
    (h : Acts i p s₀ s) : Acts i p s₀ (s.expire T f) := by
  simp only [State.expire]
  split
  · exact hf (h.reach hk)
  · exact h

theorem scope_fail {c : Instr} {cc uu : Prop} (h : carries c = true) : FailScope (scope c cc uu) := by
  have reach : ∀ {x}, reaches c x = carries c → x ≠ .codes → x ≠ .unlock → scope c cc uu x :=
    fun e => scope_of (e.trans h)
  exact
    { link := reach rfl nofun nofun
      poll := reach rfl nofun nofun
      demand := scope_of rfl nofun nofun
      calls := scope_of rfl nofun nofun
      presence := reach rfl nofun nofun
      slot := .inl (scope_of (by simp [reaches, h]) nofun nofun)
      absent := scope_of rfl nofun nofun }

theorem scope_bus {c : Instr} {cc uu : Prop} (h : carries c = true) : BusScope (scope c cc uu) := by
  have reach : ∀ {x}, reaches c x = carries c → x ≠ .codes → x ≠ .unlock → scope c cc uu x :=
    fun e => scope_of (e.trans h)
  exact
    { tables := reach rfl nofun nofun
      settings := scope_of (by simp [reaches, h]) nofun nofun
      counts := scope_of (by simp [reaches, h]) nofun nofun
      demand := scope_of rfl nofun nofun
      calls := scope_of rfl nofun nofun
      presence := reach rfl nofun nofun
      absent := scope_of rfl nofun nofun
      manage := scope_of (by simp [reaches, h]) nofun nofun
      poll := reach rfl nofun nofun
      commit := scope_of rfl nofun nofun
      reset := scope_of rfl nofun nofun
      history := scope_of rfl nofun nofun
      link := reach rfl nofun nofun
      outdoor := reach rfl nofun nofun
      busFault := scope_of rfl nofun nofun }

/-- What the commands of the plant and the frames may touch beside the tables, the lines, MP and the counters. -/
structure PlantScope (p : Touch → Prop) : Prop where
  clock : p .clock
  gas : p .gas
  enter : p .enter
  output : p .output
  marks : p .marks
  startUp : p .startUp
  demand : p .demand
  calls : p .calls
  draw : p .draw
  stage : p .stage
  press : p .press
  reset : p .reset
  raises : ∀ src, p (.raise src)
  clears : ∀ src, p (.clear src)

theorem scope_plant {c : Instr} {cc uu : Prop} : PlantScope (scope c cc uu) := by
  constructor
  case raises => exact fun _ => scope_of rfl nofun nofun
  case clears => exact fun _ => scope_of rfl nofun nofun
  all_goals exact scope_of rfl nofun nofun

/-- A measurement command. -/
theorem measure_effect_acts {c : Instr} (hc : familyOf c = .measure) (hp : PlantScope p) (hm : p .measure)
    (hf : (∃ f, c = .frameCompletion f) → p .frame) (hn : (∃ r, c = .flameSample r) → p .counts) :
    Acts false p s (effect c s₀ s) := by
  cases c <;> cases hc
  case frameCompletion f =>
    exact frameStep_acts f hp.clock (hf ⟨_, rfl⟩) hm hp.marks hp.startUp hp.demand hp.calls hp.draw hp.stage hp.output
      hp.raises hp.clears .refl
  case flowDisagreeTimeout => exact disagreeTimeout_acts hp.clock hm (hp.raises _) .refl
  case circulationTimeout => exact circulationTimeout_acts hp.clock hm (hp.raises _) .refl
  case flameSample => exact flameSampled_acts _ hp.clock hm hp.enter (hn ⟨_, rfl⟩) (hp.raises _) .refl
  case inputPulse => exact pulseCounted_acts _ hm .refl

/-- A command of the plant, its timers and the faults. -/
theorem plant_effect_acts {c : Instr} (hc : familyOf c = .plant) (hp : PlantScope p)
    (hn : c = .tsafeExpiry ∨ c = .powerOnSecond → p .counts) : Acts false p s (effect c s₀ s) := by
  have kept : Acts false p s s := .refl
  have expire : ∀ {T : Timer} {f : State → State}, (∀ {u}, Acts false p s u → Acts false p s (f u)) →
      Acts false p s (s.expire T f) := fun hf => expire_acts hp.clock hf .refl
  cases c <;> cases hc
  case fanDeviationTimeout => exact fanDeviationTimeout_acts hp.clock (hp.raises _) .refl
  case purgeComplete => exact purgeTimeout_acts hp.clock .refl
  case zoneFallbackTimeout => exact fallbackTimeout_acts _ hp.demand hp.calls .refl
  case relayReadbackChange => exact mismatchSync_acts _ .refl
  case mismatchTimerExpiry => exact expire (mismatchFound_acts _ (hp.raises _))
  case tpchkExpiry => exact expire (tpchkExpired_acts (hp.raises _))
  case prePurgeLimitExpiry => exact expire (purgeLimitExpired_acts (hp.raises _))
  case tprespkExpiry => exact expire (tprespkExpired_acts hp.gas (.inr hp.enter) (hp.raises _))
  case tsparkExpiry => exact expire tsparkExpired_acts
  case tsafeExpiry => exact expire (tsafeExpired_acts (hn (.inl rfl)) (hp.raises _))
  case tstabExpiry => exact expire (tstabExpired_acts hp.enter)
  case tpostExpiry => exact expire (tpostExpired_acts (.inl (hp.raises _)))
  case lockoutPurgeExpiry => exact expire (lockPurgeExpired_acts (.inr (.inl hp.output)))
  case tffExpiry => exact expire (falseFlameFound_acts (hp.raises _))
  case tffpostExpiry => exact expire (tffpostExpired_acts (hp.raises _))
  case valveTravelExpiry => exact expire (travelExpired_acts _ hp.demand (hp.raises _))
  case dhwOverrunExpiry => exact expire (overrunExpired_acts hp.demand hp.draw)
  case diverterEndReached => exact expire (divertEnded_acts hp.draw)
  case antiCycleExpiry => exact expire antiCycleEnd_acts
  case pumpOverrunExpiry => exact expire (f := fun s => s.onDm fun d => { d with pumpOverrun := none }) fun h => h.onDm fun _ => rfl
  case pumpKickStart => exact kickBegins_acts .refl
  case pumpKickEnd => exact expire kickEnds_acts
  case onPhaseExpiry => exact onPhaseTimeout_acts hp.clock .refl
  case offPhaseExpiry => exact offPhaseTimeout_acts hp.clock .refl
  case blockingTimerExpiry n =>
    simp only [effect]
    split
    · simp only [State.due]
      split
      · exact .ite (fun _ => blockingExpired_acts _ (hp.clears _) .refl) fun _ => kept
      · exact kept
    · exact kept
  case resetInLevelChange =>
    simp only [effect]
    split
    · exact kept
    · exact resetInChanged_acts _ hp.press .refl
  case resetInPress => exact expire (resetInPressed_acts hp.press hp.reset)
  case powerOnSecond => exact secondStep_acts hp.clock (hn (.inr rfl)) .refl

/-- A command of the zone bus. -/
theorem bus_effect_acts {c : Instr} (hc : familyOf c = .bus) (hp : PlantScope p) (hb : BusScope p) (hl : p .line)
    (hcodes : p .codes ∨ (effect c s₀ s).st.faultCodes = s.st.faultCodes) : Acts false p s (effect c s₀ s) := by
  have kept : Acts false p s s := .refl
  have hf : FailScope p :=
    { link := hb.link, poll := hb.poll, demand := hb.demand, calls := hb.calls, presence := hb.presence
      slot := .inr hb.manage, absent := hp.raises _ }
  have expire : ∀ {T : Timer} {f : State → State}, (∀ {u}, Acts false p s u → Acts false p s (f u)) →
      Acts false p s (s.expire T f) := fun hf => expire_acts hp.clock hf .refl
  cases c <;> cases hc
  case tsettleExpiry => exact expire (settleExpired_acts hb.poll hb.link hb.demand)
  case periodTimerExpiry => exact expire (periodExpired_acts hb.poll hb.link hb.demand)
  case lineCheckIdle => exact lineCheckIdle_acts hp.clock hb.link .refl
  case lineDominanceTimeout => exact lineDominance_acts hp.clock hf hb.absent (hp.raises _) .refl
  case lineCheckTimeout => exact lineCheckLong_acts hp.clock hf hb.absent (hp.raises _) .refl
  case requestSent => exact requestEnd_acts hp.clock hb.link hl .refl
  case holdTimeout => exact holdReached_acts hp.clock hf .refl
  case replyStartMark => exact markSeen_acts _ hb.link hl .refl
  case treplyExpiry => exact expire (replyWindowEnds_acts hf)
  case trxmaxExpiry => exact expire (failExchange_acts _ hf)
  case replyFraming => exact framingBroken_acts _ hf hl .refl
  case replyReceived => exact replyCheck_acts _ hb hf hl hcodes .refl
  case closingSent => exact closingEnd_acts hp.clock hb.poll hb.link hb.demand (.inr hb.manage) hl .refl
  case tclearExpiry => exact expire (toSettling_acts hb.link)
  case overcurrent => exact overcurrent_acts hf hb.absent (hp.raises _) .refl
  case faultTimerExpiry => exact expire (toSettling_acts hb.link)
  case busLineLevelChange =>
    simp only [effect]
    split
    · exact kept
    · exact lineChanged_acts _ _ hf .refl
  case replyByteReceived => exact replyByte_acts _ hf hl .refl

/-- A management request. -/
theorem request_effect_acts {c : Instr} (hc : familyOf c = .request) (hk : p .clock) (hb : BusScope p)
    (hcodes : p .codes ∨ (effect c s₀ s).st.faultCodes = s.st.faultCodes) : Acts false p s (effect c s₀ s) := by
  cases c <;> cases hc
  case proxyHoldExpiry => exact expire_acts hk (slotExpired_acts (.inr hb.manage)) .refl
  all_goals exact mgmtRequest_acts _ _ _ _ hb hcodes .refl

/-- What the effect of a command touches: `cc` allows a change of FAULTCODES and `uu` the completion of a lockout reset. -/
theorem effect_acts (c : Instr) {cc uu : Prop} (hcodes : cc ∨ (effect c s₀ s).st.faultCodes = s.st.faultCodes)
    (hunlock : uu ∨ (c = .pageWriteEnd true → ∀ w, s.st.write = some w →
      ¬(w.page = 8 ∧ w.carried = .none ∧ s.fm.lockout.state = .resetPending))) :
    Acts false (scope c cc uu) s (effect c s₀ s) := by
  have codes : carries c = true →
      scope c cc uu .codes ∨ (effect c s₀ s).st.faultCodes = s.st.faultCodes := fun h =>
    hcodes.imp (fun h' => ⟨h, fun _ => h', nofun⟩) id
  rcases hfam : familyOf c with _ | _ | _ | _ | _ | _
  · cases c <;> cases hfam <;> exact .refl
  · refine measure_effect_acts hfam scope_plant (scope_of (by simp [reaches, hfam]) nofun nofun) ?_ ?_
    · rintro ⟨f, rfl⟩
      exact scope_of rfl nofun nofun
    · rintro ⟨f, rfl⟩
      exact scope_of rfl nofun nofun
  · refine plant_effect_acts hfam scope_plant ?_
    rintro (rfl | rfl) <;> exact scope_of rfl nofun nofun
  · have h : carries c = true := by simp [carries, hfam]
    exact bus_effect_acts hfam scope_plant (scope_bus h) (scope_of (by simp [reaches, hfam]) nofun nofun) (codes h)
  · have h : carries c = true := by simp [carries, hfam]
    exact request_effect_acts hfam (scope_of rfl nofun nofun) (scope_bus h) (codes h)
  · cases c <;> cases hfam
    case store.pageWriteEnd.refl v =>
      have k : ∀ {x}, reaches (.pageWriteEnd v) x = true → x ≠ .codes → x ≠ .unlock →
          scope (.pageWriteEnd v) cc uu x := scope_of
      refine writeEnd_acts v (k rfl nofun nofun) (k rfl nofun nofun) (k rfl nofun nofun) (k rfl nofun nofun)
        (k rfl nofun nofun) (k rfl nofun nofun) (k rfl nofun nofun) (k rfl nofun nofun) (k rfl nofun nofun) ?_ .refl
      exact hunlock.imp (fun h => ⟨rfl, nofun, fun _ => h⟩) fun h hv => h (hv ▸ rfl)

/-! ### Whole commands -/

theorem arrive_eq (c : Instr) (s : State) : arrive c s = { s with clock := (arrive c s).clock, lines := (arrive c s).lines } := by
  cases c
  case busLineLevelChange dominant dt =>
    simp only [arrive]
    split <;> rfl
  all_goals rfl

theorem settle_codes (s : State) : (settle s).st.faultCodes = s.st.faultCodes :=
  (settle_acts (.inl nofun) .refl : Acts false notCodes s _).codes_kept

/-- What a command touches from the state it has been noted in: its effect and the end of the event. -/
theorem exec_acts {c : Instr} {cc uu : Prop} (h : exec c s = .next t) (hf : familyOf c ≠ .power)
    (hcodes : cc ∨ t.st.faultCodes = s.st.faultCodes)
    (hunlock : uu ∨ (c = .pageWriteEnd true → ∀ w, s.st.write = some w →
      ¬(w.page = 8 ∧ w.carried = .none ∧ s.fm.lockout.state = .resetPending))) :
    Acts false (scope c cc uu) (arrive c s) t := by
  have e := arrive_eq c s
  cases (exec_eq c s hf).symm.trans h
  simp only [State.event]
  split
  · refine settle_acts (.inl (scope_plant.raises _)) (effect_acts c (hcodes.imp id fun hc => ?_) (hunlock.imp id ?_))
    · simp only [State.event, if_pos ‹(arrive c s).power = .on›, settle_codes] at hc
      rw [hc, e]
    · rw [e]
      exact id
  · exact .refl

end Sys2Proof.Machine

/-! SUPPORT. The invariants of the active list and of the ranges, and the rules over all commands: O5, O6, O8, O10. -/

namespace Sys2Proof.Machine

variable {i : Bool} {p : Touch → Prop} {s t : State}

/-! ### The load (R198) -/

/-- Counts and the store queue within their ranges. -/
def InRange (s : State) : Prop := CountsInRange s ∧ QueueFits s

theorem Acts.inRange (h : Acts i p s t) : InRange s → InRange t := by
  rintro ⟨⟨h1, h2, h3, h4, h5, h6, h7, h8, h9, h10, h11, h12⟩, h13⟩
  obtain ⟨g3, g4, g11, g12⟩ := h.mpRange ⟨h3, h4, h11, h12⟩
  exact ⟨⟨h.iAcc h1, h.fanDuty h2, g3, g4, h.fanDev h5, h.idle h6, h.resetsLength h7, h.zonesLength.trans h8,
    h.nodesLength.trans h9, h.countersLength.trans h10, g11, g12⟩, h.fits h13⟩

/-- Everything may be touched. -/
def anything (_ : Touch) : Prop := True

theorem restoreLockout_cases (s : State) :
    restoreLockout s = s ∨ ∃ l src, (l = [] ∨ ∃ r : Record, l = [r] ∧ r.cls = .lockout)
      ∧ restoreLockout s = fmLead (lockoutEntry src (s.onFm fun f => { f with active := l })) := by
  simp only [restoreLockout]
  split
  · exact .inl rfl
  · refine .inr ⟨_, _, ?_, rfl⟩
    split
    · exact .inr ⟨_, rfl, rfl⟩
    · exact .inl rfl

theorem restoreLockout_inRange (h : InRange s) : InRange (restoreLockout s) := by
  rcases restoreLockout_cases s with e | ⟨l, src, -, e⟩
  · rwa [e]
  · rw [e]
    exact (fmLead_acts (p := anything) trivial (lockoutEntry_acts src .refl)).inRange h

theorem listSound_nil : ListSound [] := ⟨List.nodup_nil, nofun⟩

theorem listSound_singleton {r : Record} (h : r.cls = .lockout) : ListSound [r] := by
  refine ⟨by simp, fun q hq _ => ?_⟩
  obtain rfl : q = r := by simpa using hq
  exact h

theorem restoreLockout_sound (h : ListSound s.fm.active) : ListSound (restoreLockout s).fm.active := by
  rcases restoreLockout_cases s with e | ⟨l, src, hl, e⟩
  · rwa [e]
  · rw [e]
    refine (fmLead_acts (p := anything) trivial (lockoutEntry_acts src .refl)).sound ?_
    show ListSound l
    rcases hl with rfl | ⟨r, rfl, hr⟩
    · exact listSound_nil
    · exact listSound_singleton hr

theorem raiseTorn_acts {s₀ : State} (page : Nat) (h : Acts false anything s₀ s) :
    Acts false anything s₀ (raiseTorn s page) := by
  simp only [raiseTorn]
  exact .ite (fun _ => fmRaise_acts _ _ trivial
    (h.trans { (Acts.refl : Acts false anything s s) with store := .inl trivial })) fun _ => h

theorem raiseFound_acts (s : State) : Acts false anything s (raiseFound s) := by
  have h1 : Acts false anything s ((List.range 35).foldl raiseTorn s) := Acts.foldl (fun a h => raiseTorn_acts a h) _ .refl
  simp only [raiseFound]
  exact .ite (fun _ => fmRaise_acts _ _ trivial h1) fun _ => h1

theorem locateHistory_acts (s : State) : Acts false anything s (locateHistory s) := by
  simp only [locateHistory]
  split <;> exact Acts.onPast .refl (.inl trivial) fun _ => rfl

theorem scanStart_acts (s : State) : Acts false anything s (scanStart s) := by
  simp only [scanStart]
  exact (Acts.onMp .refl trivial id).onClock trivial

theorem loadCounters_length (m : Memory) : m.loadCounters.length = 7 := by
  simp only [Memory.loadCounters]
  split <;> simp [countersOfPage]

theorem loadResets_length (m : Memory) : m.loadResets.length ≤ 5 := by
  simp only [Memory.loadResets]
  split <;> simp [resetsOfPage]

/-- The parts of the load after FM has taken the stored record (R198). -/
def loadRest (s : State) : State :=
  let s := raiseFound s
  relaySync (scanStart (toSettling (dmLoaded (s.onMg fun m => { m with staging := s.st.safety, modified := false }))))

theorem loadComplete_eq (s : State) :
    loadComplete s = loadRest (fmLoaded (latchTables (loadImages { s with power := .on }))) := by
  simp only [loadComplete, loadRest]

theorem loadImages_inRange (h : InRange s) : InRange (latchTables (loadImages { s with power := .on })) := by
  obtain ⟨⟨h1, h2, h3, h4, h5, h6, h7, h8, h9, h10, h11, h12⟩, h13⟩ := h
  exact ⟨⟨h1, h2, h3, h4, h5, h6, h7, h8, h9, loadCounters_length _, h11, h12⟩, h13⟩

theorem fmLoaded_inRange (h : InRange s) : InRange (fmLoaded s) := by
  obtain ⟨⟨h1, h2, h3, h4, h5, h6, h7, h8, h9, h10, h11, h12⟩, h13⟩ := h
  exact (locateHistory_acts _).inRange (restoreLockout_inRange
    ⟨⟨h1, h2, h3, h4, h5, h6, loadResets_length _, h8, h9, h10, h11, h12⟩, h13⟩)

theorem fmLoaded_sound (h : ListSound s.fm.active) : ListSound (fmLoaded s).fm.active :=
  (locateHistory_acts _).sound (restoreLockout_sound h)

theorem loadRest_inRange (h : InRange s) : InRange (loadRest s) := by
  have h1 : InRange ((raiseFound s).onMg fun m => { m with staging := (raiseFound s).st.safety, modified := false }) :=
    ((raiseFound_acts s).onMg trivial).inRange h
  simp only [loadRest]
  generalize ((raiseFound s).onMg fun m => { m with staging := (raiseFound s).st.safety, modified := false }) = u at h1 ⊢
  refine (relaySync_acts ((toSettling_acts trivial .refl).trans (scanStart_acts _)) : Acts false anything (dmLoaded u) _).inRange ?_
  simp only [dmLoaded]
  refine (refresh_acts (p := anything) trivial .refl).inRange ?_
  obtain ⟨⟨h1, h2, h3, h4, h5, h6, h7, h8, h9, h10, h11, h12⟩, h13⟩ := h1
  exact ⟨⟨h1, h2, h3, h4, h5, h6, h7, rfl, h9, h10, h11, h12⟩, h13⟩

theorem loadRest_sound (h : ListSound s.fm.active) : ListSound (loadRest s).fm.active := by
  have h1 : ListSound ((raiseFound s).onMg fun m =>
      { m with staging := (raiseFound s).st.safety, modified := false }).fm.active :=
    ((raiseFound_acts s).onMg trivial).sound h
  simp only [loadRest]
  generalize ((raiseFound s).onMg fun m => { m with staging := (raiseFound s).st.safety, modified := false }) = u at h1 ⊢
  refine (relaySync_acts ((toSettling_acts trivial .refl).trans (scanStart_acts _)) : Acts false anything (dmLoaded u) _).sound ?_
  simp only [dmLoaded]
  exact (refresh_acts (p := anything) trivial .refl).sound h1

theorem loadComplete_inRange (h : InRange s) : InRange (loadComplete s) := by
  rw [loadComplete_eq]
  exact loadRest_inRange (fmLoaded_inRange (loadImages_inRange h))

theorem loadComplete_sound (h : ListSound s.fm.active) : ListSound (loadComplete s).fm.active := by
  rw [loadComplete_eq]
  exact loadRest_sound (fmLoaded_sound h)

/-! ### Invariants of every step -/

theorem volatileReset_inRange (s : State) (p : Power) : InRange (s.volatileReset p) := by
  refine ⟨?_, Nat.zero_le _⟩
  simp [CountsInRange, State.volatileReset, Config.circFrames, Config.fanDevFrames]

/-- What holds of the power-on values and through the load, and is kept by all that commands touch, is kept by every command. -/
theorem exec_rec {P : State → Prop} (hv : ∀ (s : State) p, P (s.volatileReset p)) (hl : ∀ s, P s → P (loadComplete s))
    (harr : ∀ c s, P s → P (arrive c s)) (ha : ∀ s t, Acts false anything s t → P s → P t)
    (c : Instr) (s t : State) (hs : P s) (h : exec c s = .next t) : P t := by
  by_cases hfam : familyOf c = .power
  · have hloss : P (powerLoss s) := by
      simp only [powerLoss]
      split <;> exact hv _ _
    rcases power_cases hfam with rfl | rfl | rfl | rfl <;> cases h
    · split
      · exact hv _ _
      · exact hs
    · exact hloss
    · split
      · exact ha _ _ (settle_acts (.inl trivial) .refl) (hl s hs)
      · exact hs
    · split
      · exact hv _ _
      · exact hs
  · have h1 := exec_acts (cc := True) (uu := True) h hfam (.inl trivial) (.inl trivial)
    exact ha _ _ (h1.mono fun _ _ => trivial) (harr _ _ hs)

/-- Settles O5. -/
theorem stepKeepsTheFaultListSound : Obligations.StepKeepsTheFaultListSound := by
  unfold Obligations.StepKeepsTheFaultListSound
  intro s t hs h
  refine step_rec (P := FaultListSound) (fun _ _ h => h) (exec_rec (fun _ _ => listSound_nil) (fun _ => loadComplete_sound)
    (fun c s h => ?_) fun _ _ h => h.sound) hs h
  rw [FaultListSound, arrive_fm]
  exact h

/-- Settles O6. -/
theorem stepKeepsCountsInRange : Obligations.StepKeepsCountsInRange := by
  unfold Obligations.StepKeepsCountsInRange
  intro s t hs hq h
  refine step_rec (P := InRange) (fun _ _ h => h) (exec_rec volatileReset_inRange (fun _ => loadComplete_inRange)
    (fun c s h => ?_) fun _ _ h => h.inRange) ⟨hs, hq⟩ h
  rw [arrive_eq]
  exact h

/-! ### Rules over all commands -/

/-- Settles O8. -/
theorem lockoutIsLeftOnlyByResetOrPower : Obligations.LockoutIsLeftOnlyByResetOrPower := by
  unfold Obligations.LockoutIsLeftOnlyByResetOrPower
  intro c s t hs hlock ht hloss hproceed hreset
  have hsafe := exec_safe c s t hs ht
  have hrec : s.fm.lockout.state ≠ .none := (safeBurner_iff.1 hs).1.2.2 hlock
  have hon : s.power = .on := by
    by_contra hp
    exact hrec ((safeBurner_iff.1 hs).2 hp).2
  have hrec' : t.fm.lockout.state ≠ .none := by
    by_cases hfam : familyOf c = .power
    · rcases power_cases hfam with rfl | rfl | rfl | rfl
      · cases ht
        rwa [if_neg (by simp [hon])]
      · exact absurd rfl hloss
      · cases ht
        rwa [if_neg (by simp [hon])]
      · exact absurd rfl hproceed
    · have h := (exec_acts (cc := True) (uu := False) ht hfam (.inl trivial) (.inr hreset)).locked
      rw [arrive_fm] at h
      exact (h.resolve_left fun h => h.2.2 rfl) hrec
  have hst : t.bs.state = .lockout := (safeBurner_iff.1 hsafe).1.2.1 hrec'
  obtain ⟨⟨hg, hopen, -⟩, -⟩ := hsafe
  have hg1 : t.bs.gas1 = false := by
    rw [← Bool.not_eq_true, hopen, hst]
    simp
  exact ⟨hst, hg1, hg ▸ hg1, hrec'⟩

end Sys2Proof.Machine

/-! SUPPORT. The rules over all commands that say what a command leaves alone: O10 and O11. -/

namespace Sys2Proof.Machine

variable {s t : State}

/-- What a command leaves alone is outside its scope. -/
theorem not_scope {c : Instr} {cc uu : Prop} {x : Touch} (h : reaches c x = false) : ¬ scope c cc uu x := fun hs =>
  Bool.noConfusion (h.symm.trans hs.1)

/-- What a command notes on arrival: the time, its line, and nothing else. -/
theorem arrive_lines (c : Instr) (s : State) :
    (arrive c s).lines.limitOpen = s.lines.limitOpen
      ∧ ((∀ r l dt, c ≠ .relayReadbackChange r l dt) →
          (arrive c s).lines.relay1Fb = s.lines.relay1Fb ∧ (arrive c s).lines.relay2Fb = s.lines.relay2Fb)
      ∧ ((∀ l dt, c ≠ .resetInLevelChange l dt) → (arrive c s).lines.resetLow = s.lines.resetLow)
      ∧ (familyOf c ≠ .bus → (arrive c s).lines.busDominant = s.lines.busDominant
          ∧ (arrive c s).lines.busSince = s.lines.busSince) := by
  cases c
  case relayReadbackChange r e dt =>
    refine ⟨by cases r <;> rfl, fun h => absurd rfl (h r e dt), fun _ => by cases r <;> rfl, fun _ => by cases r <;> exact ⟨rfl, rfl⟩⟩
  case resetInLevelChange l dt => exact ⟨rfl, fun _ => ⟨rfl, rfl⟩, fun h => absurd rfl (h l dt), fun _ => ⟨rfl, rfl⟩⟩
  case busLineLevelChange d dt =>
    simp only [arrive]
    split
    · exact ⟨rfl, fun _ => ⟨rfl, rfl⟩, fun _ => rfl, fun h => absurd rfl h⟩
    · exact ⟨rfl, fun _ => ⟨rfl, rfl⟩, fun _ => rfl, fun h => absurd rfl h⟩
  all_goals exact ⟨rfl, fun _ => ⟨rfl, rfl⟩, fun _ => rfl, fun _ => ⟨rfl, rfl⟩⟩

/-- Settles O10. -/
theorem commandsKeepWhatTheyDoNotReach : Obligations.CommandsKeepWhatTheyDoNotReach := by
  unfold Obligations.CommandsKeepWhatTheyDoNotReach
  intro c s t ht hfam
  have h := exec_acts (cc := True) (uu := True) ht hfam (.inl trivial) (.inl trivial)
  obtain ⟨l1, l2, l3, l4⟩ := arrive_lines c s
  rw [arrive_eq] at h
  have hcar : familyOf c ≠ .bus → familyOf c ≠ .request → carries c = false := by
    intro h1 h2
    simp [carries, h1, h2]
  have hplant := h.plant
  simp only [Prod.mk.injEq] at hplant
  obtain ⟨p1, p2, p3⟩ := hplant
  refine ⟨h.power, fun hm => ?_, fun hf => ?_, fun h1 h2 => ?_, fun h1 h2 h3 => ?_, fun h1 h2 => ?_, fun hr => ?_,
    fun hr => ?_, fun hb => ?_⟩
  · exact h.mp.resolve_left (not_scope (by simp [reaches, hm]))
  · have hr : reaches c .frame = false := by
      cases c
      case frameCompletion f => exact absurd rfl (hf f)
      all_goals rfl
    have := h.frame.resolve_left (not_scope hr)
    simp only [Prod.mk.injEq] at this
    exact ⟨this.1, this.2.trans l1⟩
  · have out : ∀ {x}, reaches c x = carries c → ¬ scope c True True x := fun e => not_scope (e.trans (hcar h1 h2))
    have e1 := h.link.resolve_left (out rfl)
    have e2 := (h.exchange.resolve_left (out rfl)).resolve_left (out rfl)
    have e3 := h.round.resolve_left (out rfl)
    have e4 := h.nodes.resolve_left (out rfl)
    have e5 := h.outdoor.resolve_left (out rfl)
    simp only [Zp.mk.injEq, Prod.mk.injEq, true_and] at e1 e2 e3 e5
    refine ⟨?_, ?_⟩
    · cases hz : t.zp
      cases hz' : s.zp
      simp_all
    · cases hz : t.pe
      cases hz' : s.pe
      simp_all
  · have out : ∀ {x}, reaches c x = (carries c || familyOf c == .store) → ¬ scope c True True x := fun e =>
      not_scope (e.trans (by simp [hcar h1 h2, h3]))
    have e1 := (h.slot.resolve_left (out rfl)).resolve_left (out rfl)
    have e2 := h.manage.resolve_left (out rfl)
    simp only [Mg.mk.injEq, true_and] at e2
    cases hz : t.mg
    cases hz' : s.mg
    simp_all
  · have out : ∀ {x}, reaches c x = carries c → ¬ scope c True True x := fun e => not_scope (e.trans (hcar h1 h2))
    have e1 := h.tables.resolve_left (out rfl)
    simp only [Prod.mk.injEq] at e1
    obtain ⟨e1, e2, e3, e4⟩ := e1
    refine ⟨e1, e2, e3, e4, h.codes.resolve_left (out rfl), fun h3 => ?_, fun n1 n2 n3 => ?_⟩
    · exact h.settings.resolve_left (not_scope (by simp [reaches, hcar h1 h2, h3]))
    · refine h.counters.resolve_left (not_scope ?_)
      have hc := hcar h1 h2
      cases c
      case flameSample r => exact absurd rfl (n1 r)
      case tsafeExpiry => exact absurd rfl n2
      case powerOnSecond => exact absurd rfl n3
      all_goals exact (Bool.or_false _).trans hc
  · exact ⟨p1.trans (l2 hr).1, p2.trans (l2 hr).2⟩
  · exact p3.trans (l3 hr)
  · have e1 := h.line.resolve_left (not_scope (by simp [reaches, hb]))
    simp only [Prod.mk.injEq] at e1
    exact ⟨e1.1.trans (l4 hb).1, e1.2.trans (l4 hb).2⟩

end Sys2Proof.Machine

/-! SUPPORT. What the operations of BS and MU leave alone exactly: every block but BS, DM and MU. -/

namespace Sys2Proof.Machine

/-- The state apart from BS, DM, MU and the free values. -/
def State.still (s : State) : State := { s with bs := {}, dm := {}, mu := {}, free := 0 }

/-- The blocks that the rest of the state is made of. -/
theorem still_fields {s t : State} (h : t.still = s.still) :
    t.clock = s.clock ∧ t.lines = s.lines ∧ t.latch = s.latch ∧ t.mp = s.mp ∧ t.fm = s.fm ∧ t.zp = s.zp ∧ t.pe = s.pe
      ∧ t.mg = s.mg ∧ t.st = s.st ∧ t.nv = s.nv ∧ t.power = s.power := by
  simp only [State.still, State.mk.injEq] at h
  simp [h]

section
variable (s : State)
@[simp] theorem State.onBs_still (f : Bs → Bs) : (s.onBs f).still = s.still := rfl
@[simp] theorem State.onDm_still (f : Dm → Dm) : (s.onDm f).still = s.still := rfl
@[simp] theorem State.onMu_still (f : Mu → Mu) : (s.onMu f).still = s.still := rfl
@[simp] theorem State.onCyc_still (f : Cycle → Cycle) : (s.onCyc f).still = s.still := rfl
@[simp] theorem State.setBlocking_still (v : Bool) : (s.setBlocking v).still = s.still := rfl
@[simp] theorem State.setAntiCycle_still (v : Bool) : (s.setAntiCycle v).still = s.still := rfl
@[simp] theorem setFanTarget_still (n : Nat) : (setFanTarget n s).still = s.still := rfl
@[simp] theorem cycleInactive_still : (cycleInactive s).still = s.still := rfl
@[simp] theorem onPhaseStart_still : (onPhaseStart s).still = s.still := rfl
@[simp] theorem entryOutput_still (u : Nat) : (entryOutput u s).still = s.still := rfl
@[simp] theorem muStabiliseEntry_still : (muStabiliseEntry s).still = s.still := rfl
@[simp] theorem pumpOverrunStart_still : (pumpOverrunStart s).still = s.still := rfl
end

@[simp] theorem muPreset_still (u : Nat) (s : State) : (muPreset u s).still = s.still := by
  simp only [muPreset]
  split <;> rfl

@[simp] theorem muStage1_still (s : State) : (muStage1 s).still = s.still := by
  simp only [muStage1]
  split <;> rfl

@[simp] theorem muRunEntry_still (s : State) : (muRunEntry s).still = s.still := by
  simp only [muRunEntry]
  repeat' split
  all_goals simp

@[simp] theorem muReturn_still (s : State) : (muReturn s).still = s.still := by
  simp only [muReturn]
  split <;> simp

@[simp] theorem muLockout_still (s : State) : (muLockout s).still = s.still := by
  simp only [muLockout]
  split <;> simp

@[simp] theorem muCircuit_still (old : Circuit) (s : State) : (muCircuit old s).still = s.still := by
  simp only [muCircuit]
  repeat' split
  all_goals simp

@[simp] theorem setMismatch_still (r : Relay) (t : Timer) (m : Bool) (s : State) :
    (setMismatch r t m s).still = s.still := by
  cases r <;> rfl

@[simp] theorem mismatchSync_still (r : Relay) (s : State) : (mismatchSync r s).still = s.still := by
  simp only [mismatchSync]
  repeat' split
  all_goals simp

@[simp] theorem relaySync_still (s : State) : (relaySync s).still = s.still := by simp [relaySync]

@[simp] theorem safeOff_still (s : State) : (safeOff s).still = s.still := by
  simp only [safeOff]
  split <;> simp

@[simp] theorem antiCycleStart_still (s : State) : (antiCycleStart s).still = s.still := by
  simp only [antiCycleStart]
  split <;> simp

@[simp] theorem dmDeparture_still (c : Cause) (o : Bool) (s : State) : (dmDeparture c o s).still = s.still := by
  simp only [dmDeparture]
  repeat' split
  all_goals simp

@[simp] theorem dmFiring_still (s : State) : (dmFiring s).still = s.still := by
  simp only [dmFiring]
  split <;> simp

@[simp] theorem bsReport_still (w : Bool) (c : Cause) (o : Bool) (s : State) : (bsReport w c o s).still = s.still := by
  simp only [bsReport]
  repeat' split
  all_goals simp

@[simp] theorem bsMove_still (st : BurnerState) (c : Cause) (o : Bool) (s : State) :
    (bsMove st c o s).still = s.still := by
  simp only [bsMove, bsReport_still, State.onBs_still]
  split <;> simp

@[simp] theorem toStandby_still (c : Cause) (s : State) : (toStandby c s).still = s.still := by simp [toStandby]

@[simp] theorem toPostPurge_still (c : Cause) (o r : Bool) (s : State) : (toPostPurge c o r s).still = s.still := by
  simp [toPostPurge]

@[simp] theorem faultStop_still (s : State) : (faultStop s).still = s.still := by
  simp only [faultStop]
  repeat' split
  all_goals simp

@[simp] theorem lockoutEntry_still (src : Source) (s : State) : (lockoutEntry src s).still = s.still := by
  simp only [lockoutEntry]
  repeat' split
  all_goals simp

@[simp] theorem withdraw_still (o : Bool) (s : State) : (withdraw o s).still = s.still := by
  simp only [withdraw]
  repeat' split
  all_goals simp

@[simp] theorem deliverRecord_still (o : Bool) (s : State) : (deliverRecord o s).still = s.still := by
  simp only [deliverRecord]
  split <;> simp

@[simp] theorem changeCircuit_still (new : Circuit) (s : State) : (changeCircuit new s).still = s.still := by
  simp only [changeCircuit]
  repeat' split
  all_goals simp

@[simp] theorem select_still (s : State) : (select s).still = s.still := changeCircuit_still _ _

@[simp] theorem toPrePurge_still (s : State) : (toPrePurge s).still = s.still := by simp [toPrePurge]

@[simp] theorem toIgnition_still (s : State) : (toIgnition s).still = s.still := by simp [toIgnition]

@[simp] theorem openGas_still (s : State) : (openGas s).still = s.still := by simp [openGas]

@[simp] theorem toRun_still (s : State) : (toRun s).still = s.still := bsMove_still _ _ _ _

@[simp] theorem fanControl_still (s : State) : (fanControl s).still = s.still := rfl

@[simp] theorem purgeStep_still (s : State) : (purgeStep s).still = s.still := by
  simp only [purgeStep]
  repeat' split
  all_goals simp

@[simp] theorem endOnPhase_still (s : State) : (endOnPhase s).still = s.still := by simp [endOnPhase, offPhaseStart]

@[simp] theorem endOffPhase_still (s : State) : (endOffPhase s).still = s.still := by simp [endOffPhase]

@[simp] theorem countPhase_still (s : State) : (countPhase s).still = s.still := by
  simp only [countPhase, State.onCyc_still]

@[simp] theorem muPending_still (s : State) : (muPending s).still = s.still := rfl

@[simp] theorem deliverOutput_still (s : State) : (deliverOutput s).still = s.still := rfl

@[simp] theorem muCompute_still (s : State) : (muCompute s).still = s.still := by simp [muCompute]

@[simp] theorem onPhaseFrame_still (b : Bool) (s : State) : (onPhaseFrame b s).still = s.still := by
  simp only [onPhaseFrame]
  repeat' split
  all_goals simp

@[simp] theorem offPhaseFrame_still (s : State) : (offPhaseFrame s).still = s.still := by
  simp only [offPhaseFrame]
  repeat' split
  all_goals simp

@[simp] theorem chStopFrame_still (s : State) : (chStopFrame s).still = s.still := by
  simp only [chStopFrame]
  repeat' split
  all_goals simp

@[simp] theorem dhwStopFrame_still (s : State) : (dhwStopFrame s).still = s.still := by
  simp only [dhwStopFrame]
  repeat' split
  all_goals simp

@[simp] theorem chCycleFrame_still (s : State) : (chCycleFrame s).still = s.still := by
  simp only [chCycleFrame]
  repeat' split
  all_goals simp

@[simp] theorem muFrame_still (s : State) : (muFrame s).still = s.still := by
  simp only [muFrame]
  repeat' split
  all_goals simp

/-! ### FM -/

@[simp] theorem fmSync_still (s : State) : (fmSync s).still = s.still := by
  simp only [fmSync]
  repeat' split
  all_goals simp

/-- A record removed: beside what a fault stop moves, the active list and the lead code at most. -/
theorem removeRecord_still (src : Source) (s : State) :
    (removeRecord src s).still = { s.still with
      fm := { s.fm with active := (removeRecord src s).fm.active }
      pe := { s.pe with leadCode := (removeRecord src s).pe.leadCode } } := by
  simp only [removeRecord]
  split
  · rfl
  · split
    · rfl
    · have hv := fmSync_still (s.onFm fun f => { f with active := f.active.filter fun r => r.source != src })
      generalize fmSync (s.onFm fun f => { f with active := f.active.filter fun r => r.source != src }) = v at hv ⊢
      obtain ⟨-, -, -, -, hf, -, hp, -⟩ := still_fields hv
      show { v.still with pe := { v.pe with leadCode := v.leadCode } }
        = { s.still with fm := { s.fm with active := v.fm.active }, pe := { s.pe with leadCode := v.leadCode } }
      rw [hv, hf, hp]
      rfl

theorem fmClear_still (src : Source) (s : State) :
    (fmClear src s).still = { s.still with
      fm := { (s.clearCond src).fm with active := (fmClear src s).fm.active }
      pe := { s.pe with leadCode := (fmClear src s).pe.leadCode } } := removeRecord_still src (s.clearCond src)

/-- A clear report leaves the store, MG and ZP alone. -/
theorem fmClear_st (src : Source) (s : State) :
    (fmClear src s).st = s.st ∧ (fmClear src s).mg = s.mg ∧ (fmClear src s).zp = s.zp := by
  have h := fmClear_still src s
  simp only [State.still, State.mk.injEq] at h
  simp [h]

end Sys2Proof.Machine

/-! SUPPORT. A management request as a whole: the state in which MG takes it, MG's answer, and how it is sent or lost (R165, R171, R172). -/

namespace Sys2Proof.Machine

variable {s u : State}

/-! ### The end of an event -/

theorem startWrite_eq (s : State) :
    startWrite s = { s with st := { s.st with
      jobs := (startWrite s).st.jobs, lockJob := (startWrite s).st.lockJob, write := (startWrite s).st.write } } := by
  simp only [startWrite]
  repeat' split
  all_goals rfl

/-- The end of an event leaves all alone that `outer` keeps, the write in progress apart. -/
theorem settle_outer (s : State) :
    (settle s).outer = { s.outer with st := { s.outer.st with write := (settle s).st.write } } := by
  have h : (idleSync (leaveStandby s)).outer = s.outer := by simp
  simp only [settle]
  rw [startWrite_eq]
  generalize idleSync (leaveStandby s) = v at h ⊢
  rw [← h]
  rfl

theorem settle_blocks (s : State) :
    (settle s).mg = s.mg ∧ (settle s).zp = s.zp ∧ (settle s).mp = s.mp ∧ (settle s).clock = s.clock
      ∧ (settle s).lines = s.lines ∧ (settle s).latch = s.latch ∧ (settle s).nv = s.nv := by
  have h := settle_outer s
  simp only [State.outer, State.mk.injEq] at h
  simp [h]

theorem settle_tables (s : State) : (settle s).st = { s.st with
    jobs := (settle s).st.jobs, lockJob := (settle s).st.lockJob, write := (settle s).st.write
    counters := (settle s).st.counters, countersPending := (settle s).st.countersPending } := by
  have h := settle_outer s
  simp only [State.outer, State.mk.injEq, St.mk.injEq] at h
  cases hs : (settle s).st
  simp_all

theorem settle_counters (s : State) : (settle s).st.counters = s.st.counters :=
  ((settle_acts (.inl nofun) .refl : Acts false (fun x => x ≠ .counts) s _).counters).resolve_left fun h => h rfl

theorem settle_tableImage (s : State) (k : Nat) : (settle s).tableImage k = s.tableImage k := by
  obtain ⟨hm, -⟩ := settle_blocks s
  have hs := settle_tables s
  have hc := settle_counters s
  simp only [State.tableImage, hm, hc]
  rw [hs]

/-! ### The state in which MG takes the request -/

theorem presenceGood_still (a : Nat) (s : State) :
    (presenceGood a s).st = s.st ∧ (presenceGood a s).mg = s.mg ∧ (presenceGood a s).zp = s.zp
      ∧ (presenceGood a s).pe.round = s.pe.round ∧ (presenceGood a s).pe.urgent = s.pe.urgent
      ∧ (presenceGood a s).clock = s.clock ∧ (presenceGood a s).power = s.power ∧ (presenceGood a s).lines = s.lines
      ∧ (presenceGood a s).fm = { s.fm with
          active := (presenceGood a s).fm.active, cond := (presenceGood a s).fm.cond } := by
  simp only [presenceGood]
  split
  · have h := fmClear_still .nodeAbsent (s.onNode a fun n => { n with presence := .present, miss := 0, lastGood := some s.time })
    generalize fmClear .nodeAbsent
      (s.onNode a fun n => { n with presence := .present, miss := 0, lastGood := some s.time }) = v at h ⊢
    simp only [State.still, State.mk.injEq] at h
    obtain ⟨-, h1, h2, h3, -, -, -, -, -, h4, h5, h6, h7, h8, -⟩ := h
    refine ⟨h8, h7, h5, ?_, ?_, h2, h1, h3, ?_⟩
    · rw [h6]
      rfl
    · rw [h6]
      rfl
    · rw [h4]
      rfl
  · exact ⟨rfl, rfl, rfl, rfl, rfl, rfl, rfl, rfl, rfl⟩

theorem requestState_still (a : Nat) (s : State) :
    (requestState a s).st = s.st ∧ (requestState a s).mg = s.mg ∧ (requestState a s).zp = s.zp
      ∧ (requestState a s).pe.round = s.pe.round ∧ (requestState a s).pe.urgent = s.pe.urgent
      ∧ (requestState a s).clock = s.clock ∧ (requestState a s).power = s.power ∧ (requestState a s).lines = s.lines
      ∧ (requestState a s).fm = { s.fm with
          active := (requestState a s).fm.active, cond := (requestState a s).fm.cond } := by
  simp only [requestState]
  split
  · exact ⟨rfl, rfl, rfl, rfl, rfl, rfl, rfl, rfl, rfl⟩
  · exact presenceGood_still a s

theorem requestState_rights (a b : Nat) (s : State) : (requestState a s).rightsOf b = s.rightsOf b := by
  obtain ⟨h, -⟩ := requestState_still a s
  simp only [State.rightsOf, State.kindOf, h]

theorem tableImage_of_st {s t : State} (h : t.st = s.st) (hm : t.mg.staging = s.mg.staging) (k : Nat) :
    t.tableImage k = s.tableImage k := by
  simp only [State.tableImage, h, hm]

theorem requestState_tableImage (a : Nat) (s : State) (k : Nat) : (requestState a s).tableImage k = s.tableImage k := by
  obtain ⟨h, hm, -⟩ := requestState_still a s
  exact tableImage_of_st h (congrArg Mg.staging hm) k

/-! ### The answer sent or lost -/

theorem busFaultClear_still (s : State) :
    (busFaultClear s).st = s.st ∧ (busFaultClear s).mg = s.mg ∧ (busFaultClear s).zp = { s.zp with busFault := false }
      ∧ (busFaultClear s).fm = { s.fm with
          active := (busFaultClear s).fm.active, cond := (busFaultClear s).fm.cond } := by
  simp only [busFaultClear]
  split
  · obtain ⟨h1, h2, h3⟩ := fmClear_st .busFault (s.onZp fun z => { z with busFault := false })
    refine ⟨h1, h2, h3, ?_⟩
    have h := fmClear_still .busFault (s.onZp fun z => { z with busFault := false })
    simp only [State.still, State.mk.injEq] at h
    obtain ⟨-, -, -, -, -, -, -, -, -, h4, -⟩ := h
    rw [h4]
    rfl
  · rename_i h
    refine ⟨rfl, rfl, ?_, rfl⟩
    cases hz : s.zp
    simp_all

/-- What follows MG's taking of a request (R165, R172): the closing telegram with the ANSWER in a poll, and otherwise the ANSWER lost. -/
def answerSent (s u : State) : State :=
  if s.pe.round.inFlight = none then mgClosing false u
  else
    zpClosing (match (busFaultClear u).mg.answer with
      | some a => a.payload
      | none => []) ((busFaultClear u).onZp rxEmpty)

/-- A request in a management poll of its node: a good reply with the request (R165). -/
theorem goodReply_request {f : InFlight} {node : Nat} {kind tag : Byte} {ps : List Byte}
    (hf : f = .servicePoll ∨ (f = .entry ∧ (s.pe.round.cur.map fun t => t.entry.kind) = some .mgmtPoll)) :
    goodReply f node kindMgmtRequest ([0, kind, tag] ++ ps) s =
      let v := busFaultClear (mgHandle node kind tag ps (presenceGood node s))
      zpClosing (match v.mg.answer with
        | some a => a.payload
        | none => []) (v.onZp rxEmpty) := by
  have h0 : u8 ([0, kind, tag] ++ ps) 0 = 0 := rfl
  have hlen : ¬ ([0, kind, tag] ++ ps).length < replyLength kindMgmtRequest := by
    simp [replyLength, kindDemand, kindValveState, kindOutdoor, kindMgmtRequest]
  have hbusy : replyBusy kindMgmtRequest ([0, kind, tag] ++ ps) = false := by
    simp only [replyBusy, hlen, h0]
    decide
  have hcar : carriesRequest kindMgmtRequest ([0, kind, tag] ++ ps) = true := by
    simp only [carriesRequest, hbusy]
    rfl
  have hmod : replyModifier ([0, kind, tag] ++ ps) = false := by
    simp only [replyModifier, h0, Bool.and_eq_false_iff]
    exact .inr (by decide)
  obtain ⟨-, -, -, hround, -⟩ := presenceGood_still node s
  rcases hf with rfl | ⟨rfl, hk⟩
  · have hw : s.wantsClosing .servicePoll kindMgmtRequest ([0, kind, tag] ++ ps) = true := hcar
    simp only [goodReply, takeReply, hcar, hw, if_true, finishReply]
    rfl
  · obtain ⟨t, ht, hkind⟩ := Option.map_eq_some_iff.1 hk
    have hw : s.wantsClosing .entry kindMgmtRequest ([0, kind, tag] ++ ps) = true := by
      simp only [State.wantsClosing, ht, hkind, hcar]
      rfl
    simp only [goodReply, takeReply, hround, ht, hmod, hw, if_true, finishReply, takeEntryReply, hbusy, hkind, hcar]
    rfl

theorem mgmtRequest_eq {node : Nat} {kind tag : Byte} {ps : List Byte} (h : Requests s node) :
    mgmtRequest node kind tag ps s = answerSent s (mgHandle node kind tag ps (requestState node s)) := by
  obtain ⟨-, h | ⟨hp, h⟩⟩ := h
  · simp [mgmtRequest, answerSent, requestState, h]
  · have hf : ∃ f, s.pe.round.inFlight = some f
        ∧ (f = .servicePoll ∨ (f = .entry ∧ (s.pe.round.cur.map fun t => t.entry.kind) = some .mgmtPoll)) := by
      rcases h with h | ⟨h, hk⟩
      · exact ⟨_, h, .inl rfl⟩
      · exact ⟨_, h, .inr ⟨rfl, hk⟩⟩
    obtain ⟨f, hf, hfk⟩ := hf
    simp only [mgmtRequest, answerSent, requestState, hf, hp, if_true, reduceCtorEq, if_false]
    exact goodReply_request hfk

/-- A request with its answer: MG has decided it, and the ANSWER has been formed. -/
theorem exec_request {c : Instr} {node : Nat} {kind tag : Byte} {ps : List Byte} (hf : familyOf c = .request)
    (he : effect c s (arrive c s) = mgmtRequest node kind tag ps s) (h : Requests s node) :
    exec c s = .next (settle (answerSent s (mgHandle node kind tag ps (requestState node s)))) := by
  rw [exec_on (by simp [hf]) (by simp [h.1]), he, mgmtRequest_eq h]

theorem answerSent_still (s u : State) :
    (answerSent s u).st = u.st ∧ (answerSent s u).mg = { u.mg with slot := (answerSent s u).mg.slot }
      ∧ (answerSent s u).fm = { u.fm with active := (answerSent s u).fm.active, cond := (answerSent s u).fm.cond } := by
  obtain ⟨h1, h2, -, h3⟩ := busFaultClear_still u
  simp only [answerSent]
  split
  · refine ⟨rfl, ?_, rfl⟩
    simp only [mgClosing, State.onMg_mg]
    split <;> rfl
  · refine ⟨h1, ?_, h3⟩
    show (busFaultClear u).mg = { u.mg with slot := (busFaultClear u).mg.slot }
    rw [h2]

/-- The ANSWER, the tables and the staging image after a request are those that MG has left (R172). -/
theorem settle_answerSent (s u : State) :
    (settle (answerSent s u)).mg.answer = u.mg.answer ∧ (∀ k, (settle (answerSent s u)).tableImage k = u.tableImage k)
      ∧ (settle (answerSent s u)).mg = { u.mg with slot := (answerSent s u).mg.slot }
      ∧ (settle (answerSent s u)).st.safety = u.st.safety := by
  obtain ⟨hst, hmg, -⟩ := answerSent_still s u
  obtain ⟨hm, -⟩ := settle_blocks (answerSent s u)
  have e : (settle (answerSent s u)).mg = { u.mg with slot := (answerSent s u).mg.slot } := hm.trans hmg
  refine ⟨by rw [e], fun k => ?_, e, ?_⟩
  · rw [settle_tableImage]
    exact tableImage_of_st hst (by rw [hmg]) k
  · rw [settle_tables, hst]

end Sys2Proof.Machine

/-! SUPPORT. The checks of R171 by kind and rights, the reads (O51), and the lead fault at every change of the list (O11). -/

namespace Sys2Proof.Machine

variable {s u : State}

/-! ### The lead fault -/

/-- With no exchange in flight, or in a poll that ends neither the node's absence nor BUS_FAULT, the state in which MG takes a request has the lead code as it was. -/
theorem requestState_code {node : Nat} {s : State}
    (h : s.pe.round.inFlight = none ∨ (s.nodeLive node).presence ≠ .absent) :
    (requestState node s).pe.leadCode = s.pe.leadCode ∧ (requestState node s).lines = s.lines
      ∧ (requestState node s).mayStart = s.mayStart := by
  simp only [requestState]
  split
  · exact ⟨rfl, rfl, rfl⟩
  · have ha := h.resolve_left ‹_›
    simp only [presenceGood]
    rw [if_neg (by simp [ha])]
    exact ⟨rfl, rfl, rfl⟩

theorem offer_still (page : Nat) (s : State) : (s.offer page) = { s with st := { s.st with
    jobs := (s.offer page).st.jobs, lockJob := (s.offer page).st.lockJob } } := by
  simp only [State.offer]
  repeat' split
  all_goals rfl

/-- A write to FAULTCODES changes nothing but the store and the ANSWER. -/
theorem mgHandle_codes (node : Nat) (tag : Byte) (ps : List Byte) (s : State) :
    ∃ st mg, mgHandle node 2 tag (5 :: ps) s = { s with st := st, mg := mg } := by
  have hset : ∀ (p : List Byte) (s' : State), (∃ st, s' = { s with st := st }) →
      ∃ st mg, setAnswer node p s' = { s with st := st, mg := mg } := by
    rintro p _ ⟨st, rfl⟩
    exact ⟨st, _, rfl⟩
  refine hset _ _ ?_
  have hlive : ∀ e d, ∃ st, (mgWriteLive 5 e d s).1 = { s with st := st } := by
    intro e d
    simp only [mgWriteLive]
    repeat' split
    case _ => exact ⟨_, rfl⟩
    case _ => exact ⟨_, rfl⟩
    case _ => exact ⟨_, rfl⟩
    case _ =>
      dsimp only [applyWrite]
      rw [offer_still]
      exact ⟨_, rfl⟩
    case _ => exact ⟨_, rfl⟩
  simp only [mgDecide]
  repeat' split
  case _ => exact ⟨_, rfl⟩
  case _ => exact ⟨_, rfl⟩
  case _ => exact ⟨_, rfl⟩
  case _ => exact ⟨_, rfl⟩
  case _ => exact hlive _ _

theorem busFaultClear_none {s : State} (h : s.zp.busFault = false) : busFaultClear s = s := by
  simp [busFaultClear, h]

/-- The end of an event in which no start finds a relay energised keeps the lead code. -/
theorem settle_code {s : State} (h : s.mayStart = false ∨ RelaysOpen s) : (settle s).pe.leadCode = s.pe.leadCode := by
  have hs := (settle_acts (p := fun _ => False) (.inr h.symm) (.refl (s := s))).code
  simpa using hs

/-- Settles O11: a change of the list delivers the lead code anew, and the write of FAULTCODES reaches neither the list nor the code delivered. -/
theorem leadFaultIsDeterminedAtEveryChange : Obligations.LeadFaultIsDeterminedAtEveryChange := by
  unfold Obligations.LeadFaultIsDeterminedAtEveryChange
  intro c s t ht hfam
  refine ⟨fun hcodes => ?_, ?_⟩
  · have h := (exec_acts (cc := False) (uu := True) ht hfam (.inr hcodes) (.inl trivial)).lead
    rw [arrive_eq] at h
    rcases h with ⟨h, -⟩ | ⟨-, h | ⟨hl, hc⟩ | h⟩
    · exact absurd h nofun
    · exact absurd (h.2.1 rfl) id
    · exact ⟨fun hne => absurd hl hne, .inl hc⟩
    · exact ⟨fun _ => h, .inr h⟩
  · rintro node tag entry data rfl hreq hquiet hstart
    rw [exec_request (kind := 2) (tag := tag) (ps := 5 :: entry :: data) rfl rfl hreq] at ht
    cases ht
    obtain ⟨hcode, hlines, hmay⟩ := requestState_code (node := node) (hquiet.imp id fun h => h.1)
    obtain ⟨-, -, hzp, -⟩ := requestState_still node s
    obtain ⟨st, mg, hu⟩ := mgHandle_codes node tag (entry :: data) (requestState node s)
    rw [hu]
    generalize hv : ({ requestState node s with st := st, mg := mg } : State) = v
    have hvm : v.mayStart = s.mayStart := by rw [← hv]; exact hmay
    have hvl : v.lines = s.lines := by rw [← hv]; exact hlines
    have hvc : v.pe.leadCode = s.pe.leadCode := by rw [← hv]; exact hcode
    have hvz : v.zp = s.zp := by rw [← hv]; exact hzp
    have hkeep : (answerSent s v).pe.leadCode = v.pe.leadCode ∧ (answerSent s v).mayStart = v.mayStart
        ∧ (answerSent s v).lines = v.lines := by
      simp only [answerSent]
      split
      · exact ⟨rfl, rfl, rfl⟩
      · rw [busFaultClear_none (by rw [hvz]; exact (hquiet.resolve_left ‹_›).2)]
        exact ⟨rfl, rfl, rfl⟩
    obtain ⟨k1, k2, k3⟩ := hkeep
    rw [settle_code, k1, hvc]
    rw [k2, hvm, RelaysOpen, k3, hvl]
    exact hstart

/-! ### The checks of R171 -/

@[simp] theorem put8_toNat (b : Byte) : put8 b.toNat = [b] := by simp [put8, byte]

/-- Every request but a malformed one, or one of too low rights, is carried out (R171). -/
theorem mgDecide_carry {node kind : Nat} {ps : List Byte} (hk : ¬ (kind = 0 ∨ 9 < kind)) (hm : malformed kind ps = false)
    (hr : neededRank kind ps ≤ (s.rightsOf node).rank) (hn : s.rightsOf node ≠ .none) :
    mgDecide node kind ps s = mgCarryOut node kind ps s := by
  simp [mgDecide, hn, hk, hm, Nat.not_lt.2 hr]

theorem mgDecide_none {node kind : Nat} {ps : List Byte} (hn : s.rightsOf node = .none) :
    mgDecide node kind ps s = (s, { result := .denied }) := by simp [mgDecide, hn]

theorem mgDecide_malformed {node kind : Nat} {ps : List Byte} (hn : s.rightsOf node ≠ .none)
    (hm : malformed kind ps = true) : mgDecide node kind ps s = (s, { result := .invalid }) := by
  simp only [mgDecide, hn, hm, if_false, if_true]
  split <;> rfl

theorem mgDecide_low {node kind : Nat} {ps : List Byte} (hk : ¬ (kind = 0 ∨ 9 < kind)) (hm : malformed kind ps = false)
    (hr : (s.rightsOf node).rank < neededRank kind ps) : mgDecide node kind ps s = (s, { result := .denied }) := by
  by_cases hn : s.rightsOf node = .none
  · exact mgDecide_none hn
  · simp [mgDecide, hn, hk, hm, hr]

theorem Rights.rank_pos {r : Rights} (h : r ≠ .none) : 1 ≤ r.rank := by cases r <;> first | exact absurd rfl h | decide

theorem Rights.rank_lt_service {r : Rights} (h : r ≠ .service) : r.rank < 3 := by cases r <;> first | exact absurd rfl h | decide

/-- A request that MG decides with a reply `r` from the state `u` has its ANSWER, MG and tables as `u` then has them. -/
theorem exec_request_reply {c : Instr} {node kind : Nat} {tag : Byte} {ps : List Byte} (hf : familyOf c = .request)
    (hk : kind < 256) (he : effect c s (arrive c s) = mgmtRequest node (byte kind) tag ps s) (h : Requests s node) :
    let d := mgDecide node kind ps (requestState node s)
    ∃ t, exec c s = .next t ∧ t = settle (answerSent s (setAnswer node (answerPayload (byte kind) tag d.2) d.1))
      ∧ answered t node tag kind d.2.result d.2.data ∧ (∀ k, t.tableImage k = d.1.tableImage k)
      ∧ t.mg = { d.1.mg with slot := t.mg.slot, answer := t.mg.answer } ∧ t.st.safety = d.1.st.safety := by
  intro d
  have hd : mgHandle node (byte kind) tag ps (requestState node s)
      = setAnswer node (answerPayload (byte kind) tag d.2) d.1 := by
    simp only [mgHandle, byte, BitVec.toNat_ofNat, Nat.mod_eq_of_lt (show kind < 2 ^ 8 from hk)]
    rfl
  refine ⟨_, exec_request hf he h, by rw [hd], ?_⟩
  rw [hd]
  obtain ⟨h1, h2, h3, h4⟩ := settle_answerSent s (setAnswer node (answerPayload (byte kind) tag d.2) d.1)
  refine ⟨h1, h2, ?_, h4⟩
  rw [h3]
  rfl

/-! ### Reads -/

/-- A request that leaves MG's state alone leaves everything alone but the ANSWER (R172). -/
theorem answerAlone_of_read {node : Nat} {p : List Byte} :
    AnswerAlone s (settle (answerSent s (setAnswer node p (requestState node s)))) := by
  intro hin hm
  have hu : answerSent s (setAnswer node p (requestState node s))
      = { s with mg := { s.mg with answer := some { node := node, payload := p }, slot := { s.mg.slot with delivering := false } } } := by
    simp [answerSent, requestState, hin, mgClosing, setAnswer, State.onMg]
  obtain ⟨ha, -⟩ := settle_answerSent s (setAnswer node p (requestState node s))
  rw [ha]
  rw [hu]
  exact settle_atEnd _ hm

/-- The closing telegram handed to ZP (R140). -/
theorem zpClosing_exch (q : List Byte) (s : State) {x : Exchange} (hx : s.zp.exch = some x) :
    ∃ y, (zpClosing q s).zp.exch = some y ∧ y.phase = .closing ∧ y.out = telegram x.node kindAnswer q := by
  refine ⟨{ x with
      phase := .closing, out := telegram x.node kindAnswer q, sent := 0, sentAt := s.clock.now
      hold := if s.lines.busDominant then some s.clock.now else none, reply := none, rxMax := none, gap := none },
    ?_, rfl, rfl⟩
  simp only [zpClosing, State.onExch, State.onZp, hx, Option.map_some]

/-- The answer to a read in a poll is being sent (R140, R165). -/
theorem closing_of_read {node : Nat} {p : List Byte} (h : Requests s node) {x : Exchange} (hx : s.zp.exch = some x)
    (hin : s.pe.round.inFlight ≠ none) :
    let t := settle (answerSent s (setAnswer node p (requestState node s)))
    ∃ a y, t.mg.answer = some a ∧ t.zp.exch = some y ∧ y.phase = .closing ∧ y.out = telegram node kindAnswer a.payload := by
  have hn : x.node = node := by
    have hp := (h.2.resolve_left hin).1
    simp only [State.polls, hx, Bool.and_eq_true, beq_iff_eq] at hp
    exact hp.1.1
  intro t
  obtain ⟨-, -, hz, -⟩ := requestState_still node s
  obtain ⟨-, hm, hb, -⟩ := busFaultClear_still (setAnswer node p (requestState node s))
  obtain ⟨ha, -⟩ := settle_answerSent s (setAnswer node p (requestState node s))
  obtain ⟨-, hzt, -⟩ := settle_blocks (answerSent s (setAnswer node p (requestState node s)))
  have hz' : (busFaultClear (setAnswer node p (requestState node s))).zp.exch = some x := by
    rw [hb]
    exact (congrArg Zp.exch hz).trans hx
  obtain ⟨y, hy, hphase, hout⟩ := zpClosing_exch p ((busFaultClear (setAnswer node p (requestState node s))).onZp rxEmpty) hz'
  refine ⟨_, y, ha, ?_, hphase, by rw [hout, hn]⟩
  rw [hzt, ← hy]
  simp only [answerSent, hin, if_false, hm]
  rfl

end Sys2Proof.Machine

/-! SUPPORT. The requests that read: O51. -/

namespace Sys2Proof.Machine

variable {s : State}

theorem entryAt_beyond {table e : Nat} (h : 9 < table) : entryAt table e = none := by
  rw [entryAt] <;> omega

theorem mgDecide_read {node kind : Nat} {ps : List Byte} (hk : kind = 1 ∨ kind = 4 ∨ kind = 5) (u : State) :
    (mgDecide node kind ps u).1 = u := by
  simp only [mgDecide]
  repeat' split
  case _ => rfl
  case _ => rfl
  case _ => rfl
  case _ => rfl
  case _ => rcases hk with rfl | rfl | rfl <;> rfl

/-- A read leaves every table and the store as they are, and with no exchange in flight changes the ANSWER alone. -/
theorem exec_read {c : Instr} {node kind : Nat} {tag : Byte} {ps : List Byte} (hf : familyOf c = .request)
    (hk : kind = 1 ∨ kind = 4 ∨ kind = 5) (he : effect c s (arrive c s) = mgmtRequest node (byte kind) tag ps s)
    (h : Requests s node) :
    let d := (mgDecide node kind ps (requestState node s)).2
    ∃ t, exec c s = .next t ∧ (∀ k, t.tableImage k = s.tableImage k) ∧ t.nv = s.nv ∧ AnswerAlone s t
      ∧ answered t node tag kind d.result d.data
      ∧ ∀ x, s.zp.exch = some x → s.pe.round.inFlight ≠ none →
          ∃ a y, t.mg.answer = some a ∧ t.zp.exch = some y ∧ y.phase = .closing ∧ y.out = telegram node kindAnswer a.payload := by
  intro d
  obtain ⟨t, ht, hts, ha, htab, -⟩ := exec_request_reply hf (by omega) he h
  rw [mgDecide_read hk] at hts
  refine ⟨t, ht, fun k => ?_, ?_, hts ▸ answerAlone_of_read, ha, fun x hx hin => hts ▸ closing_of_read h hx hin⟩
  · rw [htab, mgDecide_read hk, requestState_tableImage]
  · exact (safetyBlockAndStoreChangeByPageWritesOnly c s t ht).2 (by rintro v rfl; cases hf) (by rintro rfl; cases hf)

/-- Settles O51. -/
theorem readsAnswerAndChangeNoTable : Obligations.ReadsAnswerAndChangeNoTable := by
  unfold Obligations.ReadsAnswerAndChangeNoTable
  intro s node tag hreq
  have hrights : (requestState node s).rightsOf node = s.rightsOf node := requestState_rights node node s
  have hnone : ∀ {kind ps}, s.rightsOf node = .none →
      (mgDecide node kind ps (requestState node s)).2 = { result := .denied } := fun h => by
    rw [mgDecide_none (hrights.trans h)]
  have hbad : ∀ {kind ps}, s.rightsOf node ≠ .none → malformed kind ps = true →
      (mgDecide node kind ps (requestState node s)).2 = { result := .invalid } := fun h hm => by
    rw [mgDecide_malformed (fun h' => h (hrights.symm.trans h')) hm]
  have hread : ∀ {kind ps}, s.rightsOf node ≠ .none → ¬ (kind = 0 ∨ 9 < kind) → neededRank kind ps = 1 →
      malformed kind ps = false →
      (mgDecide node kind ps (requestState node s)).2 = (mgCarryOut node kind ps (requestState node s)).2 :=
    fun h hk hr hm => by
      rw [mgDecide_carry hk hm (by rw [hr, hrights]; exact Rights.rank_pos h) (by rwa [hrights])]
  refine ⟨fun table entry => ?_, fun group index part => ?_, fun list direction index => ?_⟩
  · obtain ⟨t, ht, htab, hnv, halone, hans, hclose⟩ :=
      exec_read (c := .readEntry node tag table entry) (tag := tag) (kind := 1) rfl (.inl rfl) rfl hreq
    refine ⟨t, ht, htab, hnv, halone, fun hn => ?_, fun hn w hw => ?_, fun hn hw => ?_, hclose⟩
    · rwa [hnone hn] at hans
    · have h9 : ¬ 9 < table.toNat := fun h9 => by simp [entryAt_beyond h9] at hw
      rw [hread hn (by decide) rfl (by simp [malformed, paramLength, u8, Nat.not_lt.1 h9])] at hans
      have hr : mgReadEntry table.toNat entry.toNat (requestState node s)
          = { result := .done, data := [table, entry] ++ s.entryBytes table.toNat w } := by
        simp only [mgReadEntry, hw, State.entryBytes, requestState_tableImage, put8_toNat]
        rfl
      change answered t node tag 1 (mgReadEntry table.toNat entry.toNat _).result
        (mgReadEntry table.toNat entry.toNat _).data at hans
      rwa [hr] at hans
    · by_cases h9 : 9 < table.toNat
      · rwa [hbad hn (by simp [malformed, u8, h9])] at hans
      · rw [hread hn (by decide) rfl (by simp [malformed, paramLength, u8, Nat.not_lt.1 h9])] at hans
        change answered t node tag 1 (mgReadEntry table.toNat entry.toNat _).result
          (mgReadEntry table.toNat entry.toNat _).data at hans
        rwa [mgReadEntry, hw] at hans
  · obtain ⟨t, ht, htab, hnv, halone, hans, -⟩ :=
      exec_read (c := .readState node tag group index part) (tag := tag) (kind := 4) rfl (.inr (.inl rfl)) rfl hreq
    refine ⟨t, ht, htab, hnv, halone, fun hn => ?_, fun hn hg hi => ?_, fun hn hg => ?_⟩
    · rwa [hnone hn] at hans
    · rw [hread hn (by decide) rfl (by simp [malformed, paramLength, u8, hg])] at hans
      change answered t node tag 4 (mgReadState group.toNat index.toNat part.toNat _).result
        (mgReadState group.toNat index.toNat part.toNat _).data at hans
      rw [mgReadState, if_pos hi] at hans
      simpa only [put8_toNat, List.append_assoc, List.cons_append, List.nil_append] using hans
    · by_cases h12 : 12 < group.toNat
      · rwa [hbad hn (by simp [malformed, u8, h12])] at hans
      · rw [hread hn (by decide) rfl (by simp [malformed, paramLength, u8, Nat.not_lt.1 h12])] at hans
        change answered t node tag 4 (mgReadState group.toNat index.toNat part.toNat _).result
          (mgReadState group.toNat index.toNat part.toNat _).data at hans
        rwa [mgReadState, if_neg (by simp [hg.resolve_left h12])] at hans
  · obtain ⟨t, ht, htab, hnv, halone, hans, -⟩ :=
      exec_read (c := .readFaults node tag list direction index) (tag := tag) (kind := 5) rfl (.inr (.inr rfl)) rfl hreq
    have hok : s.rightsOf node ≠ .none → list.toNat ≤ 1 → direction.toNat ≤ 1 →
        answered t node tag 5 (readFaultsAnswer list.toNat direction.toNat index.toNat (requestState node s)).1
          (readFaultsAnswer list.toNat direction.toNat index.toNat (requestState node s)).2 := by
      intro hn hl hd
      rwa [hread hn (by decide) rfl (by simp [malformed, paramLength, u8, hl, hd])] at hans
    have hdir : (direction.toNat = 0) = (direction = 0) := by
      rw [eq_iff_iff, ← BitVec.toNat_inj]
      rfl
    refine ⟨t, ht, htab, hnv, halone, fun hn => ?_, fun hn hb => ?_, fun hn hl hd => ?_, fun hn hl hd => ?_⟩
    · rwa [hnone hn] at hans
    · rwa [hbad hn (by rcases hb with hb | hb <;> simp [malformed, u8, hb])] at hans
    · subst hl
      have h := hok hn (by decide) hd
      simp only [readFaultsAnswer, show (0 : Byte).toNat = 0 from rfl, if_true, hdir] at h
      refine ⟨fun r hr => ?_, fun hr => ?_⟩ <;> rwa [hr] at h
    · subst hl
      have h := hok hn (by decide) hd
      simp only [readFaultsAnswer, show (1 : Byte).toNat = 1 from rfl, Nat.one_ne_zero, if_false, hdir] at h
      refine ⟨fun r hr => ?_, fun hr => ?_⟩ <;> rwa [hr] at h

end Sys2Proof.Machine

/-! SUPPORT. Writes of tables and of the staging image, and COMMIT_SAFETY: O52, O53, O54. -/

namespace Sys2Proof.Machine

variable {s u : State}

/-! ### What a write reads from the store -/

theorem checkWrite_of_st (h : u.st = s.st) (table e : Nat) (d : List Byte) : u.checkWrite table e d = s.checkWrite table e d := by
  simp only [State.checkWrite, State.checkSettings, State.checkCurve, State.checkNode, State.settingsRange16,
    State.liveMmin, State.tchMaxBound, State.tLimit, State.liveValid, h]
  rfl

theorem canTake_of_st (h : u.st = s.st) (page : Nat) : u.canTake page = s.canTake page := by
  simp only [State.canTake, State.jobWaiting, h]

theorem offer_tableImage (page k : Nat) (s : State) : (s.offer page).tableImage k = s.tableImage k := by
  rw [offer_still]
  rfl

/-- A job offered that the queue can take stands. -/
theorem offer_stands {page : Nat} (h : s.canTake page = true) : JobStands (s.offer page) page := by
  refine .inl ?_
  simp only [State.offer]
  split
  · simp [State.jobWaiting, *]
  · rename_i hp
    split
    · rename_i hn
      simp only [Bool.or_eq_true, Bool.not_eq_true', h, Bool.true_eq_false, or_false] at hn
      exact hn
    · simp [State.jobWaiting, hp]

theorem Acts.tableImage {i : Bool} {p : Touch → Prop} {s t : State} (h : Acts i p s t) (ht : ¬ p .tables)
    (hs : ¬ p .settings) (hc : ¬ p .codes) (hn : ¬ p .counts) (hst : ¬ p .store) (hm : ¬ p .manage) (k : Nat) :
    t.tableImage k = s.tableImage k := by
  have e1 := h.tables.resolve_left ht
  have e2 := h.settings.resolve_left hs
  have e3 := h.codes.resolve_left hc
  have e4 := h.counters.resolve_left hn
  have e5 := h.store.resolve_left hst
  have e6 := h.manage.resolve_left hm
  simp only [Prod.mk.injEq, Mg.mk.injEq] at e1 e5 e6
  simp only [State.tableImage, e1, e2, e3, e4, e5, e6]

/-- The parts that a write of ZONES or NODES moves beside its image. -/
def byWrite (x : Touch) : Prop := x = .demand ∨ x = .calls ∨ x = .presence ∨ x = .clear .nodeAbsent

/-- A write into a live image: the image takes the entry, and every other one stands (R175). -/
theorem applyWrite_image {table : Nat} (ht : table ≤ 5) (e off : Nat) (d : List Byte) (s : State) :
    (applyWrite table e off d s).tableImage table = splice (s.tableImage table) off d
      ∧ (∀ k, k ≠ table → (applyWrite table e off d s).tableImage k = s.tableImage k)
      ∧ ∀ page, JobStands s page → JobStands (applyWrite table e off d s) page := by
  have moved : ∀ {v w : State}, Acts false byWrite v w →
      (∀ k, w.tableImage k = v.tableImage k) ∧ ∀ page, JobStands v page → JobStands w page := fun h =>
    ⟨h.tableImage (by simp [byWrite]) (by simp [byWrite]) (by simp [byWrite]) (by simp [byWrite]) (by simp [byWrite])
      (by simp [byWrite]), h.stands.resolve_left (by simp [byWrite])⟩
  have other : ∀ (f : St → St) (n : Nat), (∀ k, k ≠ n → (s.onSt f).tableImage k = s.tableImage k) →
      ∀ {w}, Acts false byWrite (s.onSt f) w → ∀ k, k ≠ n → w.tableImage k = s.tableImage k :=
    fun f n hf w hw k hk => ((moved hw).1 k).trans (hf k hk)
  match table, ht with
  | 0, _ =>
    refine ⟨rfl, fun k hk => ?_, fun _ => id⟩
    simp only [State.tableImage]
    split <;> first | exact absurd rfl hk | rfl
  | 1, _ =>
    refine ⟨rfl, fun k hk => ?_, fun _ => id⟩
    simp only [State.tableImage]
    split <;> first | exact absurd rfl hk | rfl
  | 2, _ =>
    have hm := zoneWritten_acts (p := byWrite) s.st.zones e (.inl rfl) (.inr (.inl rfl))
      (.refl (s := s.onSt fun t => { t with zones := splice t.zones off d }))
    refine ⟨(moved hm).1 2, other _ 2 (fun k hk => ?_) hm, fun page h => (moved hm).2 page h⟩
    simp only [State.tableImage]
    split <;> first | exact absurd rfl hk | rfl
  | 3, _ =>
    have hm := nodesWritten_acts (p := byWrite) s.st.nodes (.inl rfl) (.inr (.inl rfl))
      (nodeRecordWritten_acts (s.kindOf (e + 1)) (e + 1) (.inr (.inr (.inl rfl))) (.inr (.inr (.inr rfl)))
        (.refl (s := s.onSt fun t => { t with nodes := splice t.nodes off d })))
    refine ⟨(moved hm).1 3, other _ 3 (fun k hk => ?_) hm, fun page h => (moved hm).2 page h⟩
    simp only [State.tableImage]
    split <;> first | exact absurd rfl hk | rfl
  | 4, _ =>
    refine ⟨rfl, fun k hk => ?_, fun _ => id⟩
    simp only [State.tableImage]
    split <;> first | exact absurd rfl hk | rfl
  | 5, _ =>
    refine ⟨rfl, fun k hk => ?_, fun _ => id⟩
    simp only [State.tableImage]
    split <;> first | exact absurd rfl hk | rfl

/-! ### The checks of a write -/

theorem malformed_write {table entry : Byte} {data : List Byte} (h9 : table.toNat ≤ 9) :
    malformed 2 (table :: entry :: data) = true ↔ ∃ w, entryAt table.toNat entry.toNat = some w ∧ data.length < w.2 := by
  simp only [malformed, paramLength, u8, List.getD_cons_zero, List.getD_cons_succ, List.length_cons]
  cases entryAt table.toNat entry.toNat <;> simp [h9]
  omega

/-- A write of at least its entry's length, with the rights of its table, is carried out (R171, R174). -/
theorem mgDecide_write {node : Nat} {table entry : Byte} {data : List Byte} (h9 : table.toNat ≤ 9)
    (hlen : ∀ w, entryAt table.toNat entry.toNat = some w → w.2 ≤ data.length)
    (hr : writeRank table.toNat ≤ (u.rightsOf node).rank) (hn : u.rightsOf node ≠ .none) :
    mgDecide node 2 (table :: entry :: data) u = mgWriteEntry table.toNat entry.toNat data u := by
  refine mgDecide_carry (ps := table :: entry :: data) (by decide) ?_ hr hn
  rw [Bool.eq_false_iff, ne_eq, malformed_write h9]
  rintro ⟨w, hw, hl⟩
  exact absurd (hlen w hw) (Nat.not_le.2 hl)

theorem mgDecide_write_low {node : Nat} {table entry : Byte} {data : List Byte} (h9 : table.toNat ≤ 9)
    (hr : (u.rightsOf node).rank < writeRank table.toNat)
    (hlen : u.rightsOf node = .none ∨ ∀ w, entryAt table.toNat entry.toNat = some w → w.2 ≤ data.length) :
    mgDecide node 2 (table :: entry :: data) u = (u, { result := .denied }) := by
  rcases hlen with hn | hlen
  · exact mgDecide_none hn
  · refine mgDecide_low (ps := table :: entry :: data) (by decide) ?_ hr
    rw [Bool.eq_false_iff, ne_eq, malformed_write h9]
    rintro ⟨w, hw, hl⟩
    exact absurd (hlen w hw) (Nat.not_le.2 hl)

theorem writeRank_pos (table : Nat) : 1 ≤ writeRank table := by
  simp only [writeRank]
  split <;> decide

theorem Rights.ne_none {r : Rights} {n : Nat} (h : n ≤ r.rank) (hn : 1 ≤ n) : r ≠ .none := by
  rintro rfl
  simp [Rights.rank] at h
  omega

/-- A job that stands at the closing of a request stands at the end of the event. -/
theorem jobStands_answerSent {page : Nat} (h : JobStands u page) : JobStands (settle (answerSent s u)) page := by
  have hst := (answerSent_still s u).1
  have hs := (settle_acts (.inl nofun) .refl :
    Acts false (fun x => x ≠ .store) (answerSent s u) (settle (answerSent s u))).stands.resolve_left (fun h => h rfl)
  refine hs page ?_
  simpa only [JobStands, State.jobWaiting, hst] using h

/-- Settles O52: the checks in the order of R171 and R175, each with its answer. -/
theorem writesReachTheLiveImage : Obligations.WritesReachTheLiveImage := by
  unfold Obligations.WritesReachTheLiveImage
  intro s node tag table entry data hreq h5
  have h9 : table.toNat ≤ 9 := by omega
  obtain ⟨t, ht, hts, hans, htab, -, -⟩ := exec_request_reply (c := .writeEntry node tag table entry data) (kind := 2)
    (tag := tag) (ps := table :: entry :: data) rfl (by decide) rfl hreq
  have hrights := requestState_rights node node s
  have hrt := requestState_tableImage node s
  obtain ⟨hst, -⟩ := requestState_still node s
  generalize hu : requestState node s = u at *
  have done : ∀ r, mgDecide node 2 (table :: entry :: data) u = (u, r) →
      answered t node tag 2 r.result r.data ∧ ∀ k, t.tableImage k = s.tableImage k := by
    intro r hr
    rw [hr] at hans htab
    exact ⟨hans, fun k => (htab k).trans (hrt k)⟩
  have hlive : ∀ d e, mgWriteEntry table.toNat e d u = mgWriteLive table.toNat e d u := fun d e => by
    rw [mgWriteEntry, if_neg (by omega)]
  refine ⟨t, ht, fun hr hlen => ?_, fun hn hlen he => ?_, fun hr => ⟨fun he => ?_, fun w hw hlen => ?_⟩⟩
  · exact done _ (mgDecide_write_low h9 (by rwa [hrights]) (by rwa [hrights]))
  · obtain ⟨w, hw⟩ := Option.ne_none_iff_exists'.1 he
    exact done _ (mgDecide_malformed (by rwa [hrights]) ((malformed_write h9).2 ⟨w, hw, hlen w hw⟩))
  · have hn := Rights.ne_none hr (writeRank_pos _)
    refine done { result := .invalid } ?_
    rw [mgDecide_write h9 (by simp [he]) (by rwa [hrights]) (by rwa [hrights]), hlive, mgWriteLive, he]
  · have hn := Rights.ne_none hr (writeRank_pos _)
    have hd : mgDecide node 2 (table :: entry :: data) u = mgWriteLive table.toNat entry.toNat data u := by
      rw [mgDecide_write h9 (fun w' hw' => by rw [hw] at hw'; cases hw'; exact hlen) (by rwa [hrights]) (by rwa [hrights]),
        hlive]
    have hb : u.entryBytes table.toNat w = s.entryBytes table.toNat w := by simp only [State.entryBytes, hrt]
    rw [mgWriteLive, hw] at hd
    simp only [checkWrite_of_st hst, hb, canTake_of_st hst] at hd
    refine ⟨fun hc => done { result := .invalid } ?_, fun d c hc => ⟨fun he => ?_, fun he hq => ?_, fun he hq => ?_⟩⟩
    · rw [hd, hc]
    · have := done (writeReply d c) (by rw [hd, hc]; exact if_pos he)
      cases c <;> exact this
    · exact done { result := .busy } (by rw [hd, hc]; simp [he, hq])
    · have hd' : mgDecide node 2 (table :: entry :: data) u = (applyWrite table.toNat entry.toNat w.1 d
          (u.offer (entryPage table.toNat entry.toNat)), writeReply d c) := by
        rw [hd, hc]
        simp [he, hq]
      rw [hd'] at hans htab hts
      obtain ⟨hown, hother, hjob⟩ := applyWrite_image h5 entry.toNat w.1 d (u.offer (entryPage table.toNat entry.toNat))
      simp only [offer_tableImage, hrt] at hown hother
      refine ⟨?_, (htab _).trans hown, fun k hk => (htab k).trans (hother k hk), ?_⟩
      · cases c <;> exact hans
      · rw [hts]
        exact jobStands_answerSent (u := setAnswer _ _ _) (hjob _ (offer_stands (by rwa [canTake_of_st hst])))

end Sys2Proof.Machine

/-! SUPPORT. Writes to COUNTERS and to the staging image, and COMMIT_SAFETY: O53, O54. -/

namespace Sys2Proof.Machine

variable {s u : State}

/-! ### COUNTERS and SAFETY_STAGE -/

theorem applyWrite_nine (e off : Nat) (d : List Byte) (s : State) {k : Nat} (hk : k ≠ 9) :
    (applyWrite 9 e off d s).tableImage k = s.tableImage k := by
  simp only [applyWrite, State.tableImage]
  split <;> first | exact absurd rfl hk | rfl

/-- A write moves the image of its own table only. -/
theorem mgWriteEntry_other (table e : Nat) (d : List Byte) (u : State) {k : Nat} (hk : k ≠ table) :
    (mgWriteEntry table e d u).1.tableImage k = u.tableImage k := by
  simp only [mgWriteEntry]
  split
  · subst table
    simp only [mgWriteStage]
    repeat' split
    case _ => rfl
    case _ => rfl
    case _ => rfl
    case _ =>
      simp only [State.tableImage]
      split <;> first | exact absurd rfl hk | rfl
  · rename_i h7
    simp only [mgWriteLive]
    repeat' split
    case _ => rfl
    case _ => rfl
    case _ => rfl
    case _ w _ _ d _ _ _ _ =>
      rw [← offer_tableImage (entryPage table e) k u]
      by_cases h5 : table ≤ 5
      · exact (applyWrite_image h5 e w.1 d _).2.1 k hk
      · by_cases h9 : table = 9
        · subst h9
          exact applyWrite_nine e w.1 d _ hk
        · rw [applyWrite] <;> omega
    case _ => rfl

theorem mgDecide_write_other (node : Nat) (table entry : Byte) (data : List Byte) (u : State) {k : Nat}
    (hk : k ≠ table.toNat) : (mgDecide node 2 (table :: entry :: data) u).1.tableImage k = u.tableImage k := by
  simp only [mgDecide]
  repeat' split
  case _ => rfl
  case _ => rfl
  case _ => rfl
  case _ => rfl
  case _ => exact mgWriteEntry_other table.toNat entry.toNat data u hk

theorem splice_slice {l : List Byte} {off n : Nat} (h : off + n ≤ l.length) : splice l off (slice l off n) = l := by
  have hs : slice l off n = (l.drop off).take n := by
    apply List.ext_getElem
    · simp [slice]
      omega
    · intro i h1 h2
      simp only [slice, List.length_map, List.length_range] at h1
      simp [slice, List.getD_eq_getElem?_getD, List.getElem?_eq_getElem (show off + i < l.length by omega)]
  have hl : (slice l off n).length = n := by simp [slice]
  rw [splice, hl, hs, List.append_assoc, ← List.drop_drop, List.take_append_drop, List.take_append_drop]

theorem countersPage_length (l : List Nat) : (countersPage l).length = 32 := by simp [countersPage, pad32]

/-- A counter zeroed in the list is its four bytes zeroed on the page (R200). -/
theorem countersPage_zero {l : List Nat} (hl : l.length = 7) {e : Nat} (he : e < 7) :
    countersPage (updateAt l e fun _ => 0) = splice (countersPage l) (4 * e) [0, 0, 0, 0] := by
  match l, hl with
  | [a, b, c, d, f, g, h], _ =>
    interval_cases e <;> simp [countersPage, pad32, splice, put32, byte, updateAt]

theorem u32_take {l : List Byte} (h : 4 ≤ l.length) : u32 (l.take 4) 0 = u32 l 0 := by
  match l, h with
  | a :: b :: c :: d :: r, _ => rfl

/-- A write to COUNTERS: a zeroing of a counter other than the power-on seconds, or a refusal (R174, R178). -/
theorem mgWriteEntry_counters {e : Nat} {data : List Byte} (hlen : 4 ≤ data.length) (u : State) :
    ((e = 0 ∨ 7 ≤ e ∨ u32 data 0 ≠ 0) → mgWriteEntry 9 e data u = (u, { result := .invalid }))
      ∧ (u.st.counters.length = 7 → 1 ≤ e → e ≤ 6 → u32 data 0 = 0 → u.canTake 10 = true →
        (mgWriteEntry 9 e data u).2 = { result := .done }
          ∧ (mgWriteEntry 9 e data u).1.tableImage 9 = splice (u.tableImage 9) (4 * e) [0, 0, 0, 0]) := by
  have hlive : mgWriteEntry 9 e data u = mgWriteLive 9 e data u := rfl
  rw [hlive, mgWriteLive]
  refine ⟨fun h => ?_, fun hl h1 h6 h0 hq => ?_⟩
  · by_cases h7 : e < 7
    · have hc : u.checkWrite 9 e (data.take 4) = none := by
        simp only [State.checkWrite, checkCounter, u32_take hlen]
        rw [if_pos (by omega)]
      simp only [entryAt, h7, if_true, hc]
    · simp only [entryAt, h7, if_false]
  · have hc : u.checkWrite 9 e (data.take 4) = some ([0, 0, 0, 0], false) := by
      simp only [State.checkWrite, checkCounter, u32_take hlen]
      rw [if_neg (by omega)]
      rfl
    simp only [entryAt, show e < 7 by omega, if_true, hc]
    split
    case isTrue he =>
      refine ⟨rfl, ?_⟩
      rw [he, State.entryBytes, splice_slice]
      show _ ≤ (countersPage u.st.counters).length
      rw [countersPage_length]
      dsimp only
      omega
    case isFalse =>
      rw [show entryPage 9 e = 10 from rfl, hq, if_pos rfl]
      refine ⟨rfl, ?_⟩
      show countersPage (updateAt (u.offer 10).st.counters e fun _ => 0) = splice (countersPage u.st.counters) _ _
      rw [offer_still]
      exact countersPage_zero hl (by omega)

theorem Rights.rank_service {r : Rights} (h : r = .service) : 3 ≤ r.rank := by rw [h]; decide

/-- Settles O53. -/
theorem countersAreZeroedAndStagingIsWritten : Obligations.CountersAreZeroedAndStagingIsWritten := by
  unfold Obligations.CountersAreZeroedAndStagingIsWritten
  intro s node tag entry data hreq
  have hrights := requestState_rights node node s
  have hrt := requestState_tableImage node s
  obtain ⟨hst, hmg, -⟩ := requestState_still node s
  have write := fun c (hf : familyOf c = .request) table
      (he : effect c s (arrive c s) = mgmtRequest node (byte 2) tag (table :: entry :: data) s) =>
    exec_request_reply (kind := 2) (tag := tag) (ps := table :: entry :: data) hf (by decide) he hreq
  generalize requestState node s = u at *
  refine ⟨fun hlen => ?_, ?_, fun table htab hlen => ?_⟩
  · obtain ⟨t, ht, -, hans, hti, -, -⟩ := write (.writeEntryCounters node tag entry data) rfl 9 rfl
    have hother : ∀ k, k ≠ 9 → t.tableImage k = s.tableImage k := fun k hk =>
      (hti k).trans ((mgDecide_write_other _ _ _ _ _ hk).trans (hrt k))
    have hlen' : ∀ w, entryAt (9 : Byte).toNat entry.toNat = some w → w.2 ≤ data.length := by
      intro w hw
      simp only [show (9 : Byte).toNat = 9 from rfl, entryAt] at hw
      split at hw <;> cases hw
      exact hlen
    have done : ∀ r, mgDecide node 2 (9 :: entry :: data) u = (u, r) →
        answered t node tag 2 r.result r.data ∧ ∀ k, t.tableImage k = s.tableImage k := by
      intro r hr
      rw [hr] at hans hti
      exact ⟨hans, fun k => (hti k).trans (hrt k)⟩
    obtain ⟨hbad, hzero⟩ := mgWriteEntry_counters (e := entry.toNat) hlen u
    have hwrite : s.rightsOf node = .service →
        mgDecide node 2 (9 :: entry :: data) u = mgWriteEntry 9 entry.toNat data u := fun hr =>
      mgDecide_write (by decide) hlen' (Rights.rank_service (hrights.trans hr)) (by rw [hrights, hr]; decide)
    refine ⟨t, ht, hother 6 (by decide), hother 7 (by decide), fun hr => ?_, fun hr h => ?_, fun hr hl h1 h6 h0 hq => ?_⟩
    · exact done _ (mgDecide_write_low (by decide) (by rw [hrights]; exact Rights.rank_lt_service hr) (.inr hlen'))
    · refine done { result := .invalid } ((hwrite hr).trans (hbad (h.imp (fun h => ?_) id)))
      rw [h]
      rfl
    · rw [hwrite hr] at hans hti
      obtain ⟨h1, h2⟩ := hzero (by rw [hst]; exact hl) h1 h6 h0 (by rw [canTake_of_st hst]; exact hq)
      rw [h1] at hans
      exact ⟨hans, by rw [hti, h2, hrt], hother⟩
  · obtain ⟨t, ht, -, hans, hti, htm, -⟩ := write (.writeEntrySafetyStage node tag entry data) rfl 7 rfl
    have hsafe : t.st.safety = s.st.safety :=
      (hti 6).trans ((mgDecide_write_other _ _ _ _ _ (by decide)).trans (hrt 6))
    refine ⟨t, ht, hsafe, fun w hw hlen => ?_⟩
    have hlen' : ∀ w, entryAt (7 : Byte).toNat entry.toNat = some w → w.2 ≤ data.length := by
      intro w' hw'
      rw [show (7 : Byte).toNat = 7 from rfl, hw] at hw'
      cases hw'
      exact hlen
    have done : ∀ r, mgDecide node 2 (7 :: entry :: data) u = (u, r) →
        answered t node tag 2 r.result r.data ∧ t.mg.staging = s.mg.staging := by
      intro r hr
      rw [hr] at hans hti
      exact ⟨hans, (hti 7).trans (hrt 7)⟩
    have hwrite : s.rightsOf node = .service →
        mgDecide node 2 (7 :: entry :: data) u = mgWriteStage entry.toNat data u := fun hr =>
      mgDecide_write (by decide) hlen' (Rights.rank_service (hrights.trans hr)) (by rw [hrights, hr]; decide)
    refine ⟨fun hr => ?_, fun hr hc => ?_, fun hr hc he => ?_, fun hr hc he => ?_⟩
    · exact done _ (mgDecide_write_low (by decide) (by rw [hrights]; exact Rights.rank_lt_service hr) (.inr hlen'))
    · exact done { result := .busy } (by rw [hwrite hr, mgWriteStage, hmg, if_pos hc])
    · subst he
      exact done { result := .invalid } (by rw [hwrite hr, mgWriteStage, hmg, if_neg hc, hw]; rfl)
    · have he' : ¬ entry.toNat = 50 := fun h => he (BitVec.eq_of_toNat_eq h)
      rw [hwrite hr, mgWriteStage, hmg, if_neg hc, hw] at hans hti htm
      simp only [he', if_false] at hans htm
      refine ⟨hans, ?_, by rw [htm]; rfl⟩
      rw [htm]
      exact congrArg (fun m : Mg => splice m.staging w.1 (data.take w.2)) hmg
  · obtain ⟨t, ht, -, hans, hti, -, -⟩ := write (.writeEntry node tag table entry data) rfl table rfl
    have hd : mgDecide node 2 (table :: entry :: data) u = (u, { result := .denied }) := by
      refine mgDecide_write_low ?_ ?_ (.inr hlen)
      · rcases htab with rfl | rfl <;> decide
      · have : (u.rightsOf node).rank < 4 := by cases u.rightsOf node <;> decide
        rcases htab with rfl | rfl <;> exact this
    rw [hd] at hans hti
    exact ⟨t, ht, hans, fun k => (hti k).trans (hrt k)⟩
end Sys2Proof.Machine

namespace Sys2Proof.Machine

variable {s u : State}

/-! ### COMMIT_SAFETY -/

theorem answerSent_inhibit (s u : State) :
    (answerSent s u).bs.inhibit.commitHold = u.bs.inhibit.commitHold := by
  have h : Acts false (fun x => x ≠ .commit) u (answerSent s u) := by
    simp only [answerSent]
    split
    · exact mgClosing_acts false (.inl nofun) .refl
    · exact zpClosing_acts _ nofun ((busFaultClear_acts nofun nofun .refl).onZp nofun)
  exact h.commit.resolve_left fun h => h rfl

/-- What COMMIT_SAFETY comes to, check by check (R179). -/
theorem mgCommit_refused {crc : Nat} {r : Reply} (h : (mgCommit crc u).2 = r) (hr : r.result ≠ .accepted) :
    mgCommit crc u = (u, r) := by
  subst h
  revert hr
  simp only [mgCommit]
  repeat' split
  case _ => exact fun _ => rfl
  case _ => exact fun _ => rfl
  case _ => exact fun _ => rfl
  case _ => exact fun _ => rfl
  case _ => exact fun _ => rfl
  case _ => exact fun h => absurd rfl h

theorem mgDecide_commit_st (node : Nat) (ps : List Byte) (u : State) : (mgDecide node 3 ps u).1.st.safety = u.st.safety := by
  simp only [mgDecide]
  repeat' split
  case _ => rfl
  case _ => rfl
  case _ => rfl
  case _ => rfl
  case _ =>
    simp only [mgCarryOut, mgCommit]
    repeat' split
    all_goals rfl

theorem u16_put16 (crc : BitVec 16) : u16 (put16 crc.toNat) 0 = crc.toNat := by
  have := crc.isLt
  simp [u16, put16, u8, byte]
  omega

/-- Settles O54: the checks in the order of R179, and the acceptance of R181. -/
theorem commitIsCheckedAndQueued : Obligations.CommitIsCheckedAndQueued := by
  unfold Obligations.CommitIsCheckedAndQueued
  intro s node tag crc hreq u own
  have hexec := exec_request_reply (c := .commitSafety node tag crc) (kind := 3) (tag := tag) (ps := put16 crc.toNat)
    rfl (by decide) rfl hreq
  have hrights : u.rightsOf node = s.rightsOf node := requestState_rights node node s
  obtain ⟨hst, hmg, -⟩ := requestState_still node s
  change u.st = s.st at hst
  change u.mg = s.mg at hmg
  generalize hdec : mgDecide node 3 (put16 crc.toNat) (requestState node s) = d at hexec
  obtain ⟨t, ht, hts, hans, -, htm, hsafe⟩ := hexec
  have refused : ∀ r, d = (u, r) →
      answered t node tag 3 r.result r.data ∧ t.mg.staging = s.mg.staging ∧ t.mg.commit = s.mg.commit := by
    intro r hr
    rw [hr] at hans htm
    refine ⟨hans, ?_, ?_⟩ <;> rw [htm, hmg]
  have hdo : s.rightsOf node = .service → d = mgCommit crc.toNat u := by
    intro hr
    rw [← hdec, mgDecide_carry (kind := 3) (by decide) rfl (Rights.rank_service (hrights.trans hr)) (by rw [hrights, hr]; decide)]
    exact congrArg (mgCommit · u) (u16_put16 crc)
  have hno : s.rightsOf node = .service → ∀ r : Reply, r.result ≠ .accepted → (mgCommit crc.toNat u).2 = r →
      answered t node tag 3 r.result r.data ∧ t.mg.staging = s.mg.staging ∧ t.mg.commit = s.mg.commit :=
    fun hr r hra h => refused r ((hdo hr).trans (mgCommit_refused h hra))
  have hfree : u.freePlaces = s.freePlaces := by rw [State.freePlaces, State.freePlaces, hst]
  refine ⟨t, ht, ?_, fun hr => ?_, fun hr hc => ?_, fun hr hc => ⟨fun h1 h2 => ?_, fun hb => ⟨fun e he => ?_, fun he ho => ?_,
    fun he ho hf => ?_, fun he ho hf => ?_⟩⟩⟩
  · rw [hsafe, ← hdec, mgDecide_commit_st, hst]
  · refine refused { result := .denied } (hdec.symm.trans (mgDecide_low (by decide) rfl ?_))
    rw [requestState_rights]
    exact Rights.rank_lt_service hr
  · exact hno hr { result := .busy } nofun (by simp [mgCommit, hmg, hc])
  · exact hno hr { result := .refusedState } nofun (by simp [mgCommit, hmg, hc, h1, h2])
  all_goals
    have hs : ¬ (u.bs.state ≠ .standby ∧ u.bs.state ≠ .lockout) := by tauto
  · exact hno hr { result := .invalid, data := put8 e } nofun (by simp [mgCommit, hmg, hc, hs, he])
  · have ho' : (blockCrc s.mg.staging).toNat ≠ crc.toNat := fun h => ho (BitVec.eq_of_toNat_eq h)
    exact hno hr { result := .crcMismatch, data := put16 own.toNat } nofun
      (by simp [mgCommit, hmg, hc, hs, he, own, ho'])
  · exact hno hr { result := .busy } nofun
      (by simp [mgCommit, hmg, hc, hs, he, own, ho, hfree, hf])
  · have hd : d = (commitAccept crc.toNat u, { result := .accepted }) := by
      rw [hdo hr]
      simp [mgCommit, hmg, hc, hs, he, own, ho, hfree, Nat.not_lt.2 hf]
    rw [hd] at hans htm hts
    have hstag : t.mg.staging = splice s.mg.staging 254 (put16 crc.toNat) := by
      rw [htm, ← hmg]
      rfl
    generalize hv : setAnswer node (answerPayload (byte 3) tag { result := .accepted }) (commitAccept crc.toNat u) = v at hts
    have hvst : (answerSent s v).st = { s.st with jobs := s.st.jobs ++ commitJobs } := by
      rw [(answerSent_still s v).1, ← hst, ← hv]
      rfl
    have hvhold : (answerSent s v).bs.inhibit.commitHold = true := by
      rw [answerSent_inhibit, ← hv]
      rfl
    have hquiet : (answerSent s v).mayStart = false := by simp [State.mayStart, State.inhibited, hvhold]
    have hat := settle_atEnd _ hquiet
    rw [← hts] at hat
    have htst : t.st = (startWrite (answerSent s v)).st := by rw [hat]
    refine ⟨hans, by rw [htm]; rfl, hstag, by rw [hat]; exact hvhold, fun hw => ?_, fun hw hl hj => ?_⟩
    · rw [htst, startWrite, hvst, if_pos (Option.isSome_iff_ne_none.2 hw), hvst]
    · have hbegin : startWrite (answerSent s v) = beginWrite { page := 0, commit := true }
          ((answerSent s v).onSt fun q => { q with jobs := commitJobs.drop 1 }) := by
        simp only [startWrite, hvst, hw, hl, hj]
        rfl
      rw [htst, hbegin]
      refine ⟨rfl, _, rfl, rfl, rfl, ?_⟩
      have hvm : (answerSent s v).mg.staging = t.mg.staging := by rw [hat]
      exact congrArg (slice · 0 32) hvm

end Sys2Proof.Machine

/-! SUPPORT. The end of an event that raises nothing; LOCKOUT_RESET, CLEAR_HISTORY and RESTART: O55, O57, O58. -/

namespace Sys2Proof.Machine

variable {s u : State}

/-! ### The end of an event in which no start finds a relay energised -/

theorem relayCheck_open (h : RelaysOpen s) : relayCheck s = s := by
  obtain ⟨h1, h2⟩ := h
  simp [relayCheck, preCheckRelay, Lines.readback, h1, h2]

/-- A start that finds both relays open moves BS, DM and MU only. -/
theorem toPreCheck_open (h : RelaysOpen s) :
    toPreCheck s = (setFanTarget 0 (bsMove .preCheck .fault false s)).onBs fun b =>
      { b with retry := false, tPchk := s.deadline Config.tPchk } := by
  have hv : (setFanTarget 0 (bsMove .preCheck .fault false s)).still = s.still := by simp
  simp only [toPreCheck]
  obtain ⟨hclock, hlines, -⟩ := still_fields hv
  generalize setFanTarget 0 (bsMove .preCheck .fault false s) = v at *
  rw [relayCheck_open]
  · simp only [State.deadline, hclock]
  · exact ⟨by rw [← h.1]; exact congrArg Lines.relay1Fb hlines, by rw [← h.2]; exact congrArg Lines.relay2Fb hlines⟩

theorem leaveStandby_still (h : s.mayStart = false ∨ RelaysOpen s) : (leaveStandby s).still = s.still := by
  simp only [leaveStandby]
  split
  · rw [toPreCheck_open (h.resolve_left (by simp [*]))]
    simp
  · rfl

/-- The end of an event in which no start finds a relay energised leaves all but BS, DM, MU and the store queue alone. -/
theorem settle_still (h : s.mayStart = false ∨ RelaysOpen s) : (settle s).still = { s.still with st := (settle s).st } := by
  have hv := leaveStandby_still h
  have hi : (idleSync (leaveStandby s)).still = s.still := by
    rw [← hv]
    simp only [idleSync]
    split <;> rfl
  rw [settle, startWrite_eq]
  generalize idleSync (leaveStandby s) = v at hi ⊢
  rw [← hi]
  rfl

theorem settle_still_fields (h : s.mayStart = false ∨ RelaysOpen s) :
    (settle s).fm = s.fm ∧ (settle s).pe = s.pe := by
  have := settle_still h
  simp only [State.still, State.mk.injEq] at this
  simp [this]

/-! ### LOCKOUT kept -/

theorem removeRecord_lockout (src : Source) (h : s.bs.state = .lockout) : (removeRecord src s).bs.state = .lockout := by
  simp only [removeRecord]
  repeat' split
  · exact h
  · exact h
  · rw [fmSync_of_lockout (s := s.onFm _) h]
    exact h

theorem fmClear_lockout (src : Source) (h : s.bs.state = .lockout) : (fmClear src s).bs.state = .lockout :=
  removeRecord_lockout src h

theorem requestState_lockout (node : Nat) (h : s.bs.state = .lockout) : (requestState node s).bs.state = .lockout := by
  simp only [requestState, presenceGood]
  repeat' split
  · exact h
  · exact fmClear_lockout _ h
  · exact h

theorem answerSent_lockout (s : State) (h : u.bs.state = .lockout) : (answerSent s u).bs.state = .lockout := by
  simp only [answerSent]
  split
  · exact h
  · show (busFaultClear u).bs.state = .lockout
    simp only [busFaultClear]
    split
    · exact fmClear_lockout _ h
    · exact h

theorem requestState_open (node : Nat) (h : RelaysOpen s) : RelaysOpen (requestState node s) := by
  obtain ⟨-, -, -, -, -, -, -, hl, -⟩ := requestState_still node s
  rwa [RelaysOpen, hl]

theorem answerSent_lines (s u : State) : (answerSent s u).lines = u.lines := by
  simp only [answerSent]
  split
  · rfl
  · show (busFaultClear u).lines = _
    simp only [busFaultClear]
    split
    · have := fmClear_still .busFault (u.onZp fun z => { z with busFault := false })
      simp only [State.still, State.mk.injEq] at this
      simp [this]
    · rfl

/-- A request that MG has taken in LOCKOUT, or with both relays open, ends with FM as the closing left it. -/
theorem settle_answerSent_fm {s u : State} (h : u.bs.state = .lockout ∨ RelaysOpen u) :
    (settle (answerSent s u)).fm = (answerSent s u).fm := by
  refine (settle_still_fields ?_).1
  rcases h with h | h
  · exact .inl (mayStart_of_state (by simp [answerSent_lockout s h]))
  · exact .inr (by rwa [RelaysOpen, answerSent_lines])

/-! ### RESTART -/

/-- Settles O58. -/
theorem restartWaitsForTheStore : Obligations.RestartWaitsForTheStore := by
  unfold Obligations.RestartWaitsForTheStore
  intro s node tag
  refine ⟨fun hreq => ?_, fun hp hr hc hw hj hl => ⟨_, ?_, rfl⟩, fun hp h => ?_⟩
  · have hexec := exec_request_reply (c := .restart node tag) (kind := 9) (tag := tag) (ps := []) rfl (by decide) rfl hreq
    have hrights : (requestState node s).rightsOf node = s.rightsOf node := requestState_rights node node s
    obtain ⟨-, hmg, -⟩ := requestState_still node s
    generalize hdec : mgDecide node 9 [] (requestState node s) = d at hexec
    obtain ⟨t, ht, -, hans, -, htm, -⟩ := hexec
    have hdo : s.rightsOf node = .service → d = mgRestart (requestState node s) := by
      intro hr
      rw [← hdec, mgDecide_carry (kind := 9) (by decide) rfl (Rights.rank_service (hrights.trans hr)) (by rw [hrights, hr]; decide)]
      rfl
    have refused : ∀ r, d = (requestState node s, r) → answered t node tag 9 r.result r.data ∧ t.mg.restart = s.mg.restart := by
      intro r hr
      rw [hr] at hans htm
      exact ⟨hans, by rw [htm, hmg]⟩
    refine ⟨t, ht, fun hr => ?_, fun hr hb => ?_, fun hr h1 h2 => ?_⟩
    · refine refused { result := .denied } (hdec.symm.trans (mgDecide_low (by decide) rfl ?_))
      rw [hrights]
      exact Rights.rank_lt_service hr
    · rw [hdo hr, mgRestart, if_pos hb] at hans htm
      exact ⟨hans, by rw [htm]; rfl⟩
    · exact refused { result := .refusedState } ((hdo hr).trans (if_neg (by simp [h1, h2])))
  · show execRestartProceed s = _
    rw [execRestartProceed, if_pos ⟨hp, by simp [State.restartReady, hr, hc, hw, hj, hl]⟩]
    rfl
  · show execRestartProceed s = _
    rw [execRestartProceed, if_neg]
    · rfl
    · simp only [State.restartReady, Bool.and_eq_true, Bool.not_eq_true', Option.isNone_iff_eq_none, List.isEmpty_iff]
      rintro ⟨-, ⟨⟨⟨h1, h2⟩, h3⟩, h4⟩, h5⟩
      simp [h1, h2, h3, h4, h5] at h

end Sys2Proof.Machine

namespace Sys2Proof.Machine

variable {s u : State}

/-! ### Reset requests -/

/-- The table of R121 read from the state is the result that FM gives, with the source that holds a reset back. -/
theorem resetResult_of {rights : Rights} {r : Result} (h : ResetResult u rights r) :
    (r = .condition → ∃ q, u.holding = some q ∧ u.resetResult rights = (r, some q.source))
      ∧ (r ≠ .condition → u.resetResult rights = (r, none)) := by
  rcases h with ⟨hl, rfl⟩ | ⟨hl, rfl⟩ | ⟨hl, hr, hb, rfl⟩ | ⟨hl, hb, ⟨q, hq, hc, hp⟩, rfl⟩ | ⟨hl, hb, hall, rfl⟩
  · exact ⟨nofun, fun _ => by simp [State.resetResult, hl]⟩
  · exact ⟨nofun, fun _ => by simp [State.resetResult, hl]⟩
  · exact ⟨nofun, fun _ => by simp [State.resetResult, hl, hr, Config.resetBudget, hb]⟩
  · refine ⟨fun _ => ?_, fun h => absurd rfl h⟩
    obtain ⟨q', hq'⟩ : ∃ q', u.holding = some q' := by
      rw [← Option.isSome_iff_exists, State.holding, List.find?_isSome]
      exact ⟨q, hq, by simp [hc, hp]⟩
    refine ⟨q', hq', ?_⟩
    have hn : ¬ (rights ≠ .service ∧ 5 ≤ u.budgetCount) := by
      rintro ⟨h1, h2⟩
      exact hb.elim h1 (Nat.not_lt.2 h2)
    simp [State.resetResult, hl, Config.resetBudget, hn, hq']
  · refine ⟨nofun, fun _ => ?_⟩
    have hnone : u.holding = none := by
      rw [State.holding, List.find?_eq_none]
      intro q hq
      simp only [Bool.and_eq_true, beq_iff_eq, not_and, Bool.not_eq_true]
      exact hall q hq
    have hn : ¬ (rights ≠ .service ∧ 5 ≤ u.budgetCount) := by
      rintro ⟨h1, h2⟩
      exact hb.elim h1 (Nat.not_lt.2 h2)
    simp [State.resetResult, hl, Config.resetBudget, hn, hnone]

theorem resetResult_fst {rights : Rights} {r : Result} (h : ResetResult u rights r) : (u.resetResult rights).1 = r := by
  obtain ⟨h1, h2⟩ := resetResult_of h
  by_cases hr : r = .condition
  · obtain ⟨q, -, hq⟩ := h1 hr
    rw [hq]
  · rw [h2 hr]

/-- An accepted reset: the record RESET_PENDING, its page queued, and the time in the history unless made with SERVICE rights (R123). -/
theorem resetAccept_fields (rights : Rights) (u : State) :
    (resetAccept rights u).fm.lockout = { u.fm.lockout with state := .resetPending }
      ∧ (resetAccept rights u).fm.writeOut = true ∧ (resetAccept rights u).st.lockJob = true
      ∧ (resetAccept rights u).fm.resets = (if rights = .service then u.fm.resets else resetAdd u.time u.fm.resets) := by
  simp only [resetAccept]
  split
  · exact ⟨rfl, rfl, rfl, rfl⟩
  · simp only [offerResets]
    split
    · rw [offer_still]
      refine ⟨rfl, rfl, ?_, rfl⟩
      simp only [State.offer]
      repeat' split
      all_goals rfl
    · exact ⟨rfl, rfl, rfl, rfl⟩

theorem jobStands_eight (h : s.st.lockJob = true) : JobStands s 8 := .inl (by simp [State.jobWaiting, h])

/-- FM takes a reset request as R119, R121 and R123 say. -/
theorem fmReset_taken {rights : Rights} {r : Result} (origin : Origin) (h : ResetResult u rights r) :
    ResetTaken u (fmReset rights origin u) rights origin r := by
  have hr := resetResult_fst h
  obtain ⟨h1, h2, h3, h4⟩ := resetAccept_fields rights u
  simp only [fmReset, hr]
  by_cases ha : r = .accepted
  · rw [if_pos ha]
    exact ⟨rfl, fun _ => ⟨h1, h2, jobStands_eight h3, h4⟩, fun hn => absurd ha hn, fun hp => by rw [ha] at hp; cases hp⟩
  · rw [if_neg ha]
    split
    · exact ⟨rfl, fun h => absurd h ha, fun _ => ⟨rfl, rfl⟩, fun _ _ => ⟨rfl, jobStands_eight rfl⟩⟩
    · rename_i hn
      exact ⟨rfl, fun h => absurd h ha, fun _ => ⟨rfl, rfl⟩, fun hp hw => absurd ⟨hp, hw⟩ hn⟩

/-- What is said of a reset request stands where the lockout record, the reset history, the last result and the jobs stand. -/
theorem ResetTaken.mono {v t : State} {rights : Rights} {origin : Origin} {r : Result}
    (h : ResetTaken u v rights origin r)
    (hf : t.fm.lockout = v.fm.lockout ∧ t.fm.resets = v.fm.resets ∧ t.fm.lastReset = v.fm.lastReset
      ∧ t.fm.writeOut = v.fm.writeOut) (hj : JobStands v 8 → JobStands t 8) : ResetTaken u t rights origin r := by
  obtain ⟨e1, e2, e3, e4⟩ := hf
  obtain ⟨h1, h2, h3, h4⟩ := h
  rw [ResetTaken, e1, e2, e3, e4]
  exact ⟨h1, fun ha => ⟨(h2 ha).1, (h2 ha).2.1, hj (h2 ha).2.2.1, (h2 ha).2.2.2⟩, h3,
    fun hp hw => ⟨(h4 hp hw).1, hj (h4 hp hw).2⟩⟩

/-- `v` is `u` but for FM and the waiting jobs. -/
def FmOnly (u v : State) : Prop :=
  ∃ f j l c, v = { u with fm := f, st := { u.st with jobs := j, lockJob := l, countersPending := c } }

theorem FmOnly.onFm {v : State} (h : FmOnly u v) (f : Fm → Fm) : FmOnly u (v.onFm f) := by
  obtain ⟨g, j, l, c, rfl⟩ := h
  exact ⟨_, _, _, _, rfl⟩

theorem FmOnly.offer {v : State} (h : FmOnly u v) (page : Nat) : FmOnly u (v.offer page) := by
  obtain ⟨g, j, l, c, rfl⟩ := h
  rw [offer_still]
  exact ⟨_, _, _, _, rfl⟩

theorem FmOnly.offerCounters {v : State} (h : FmOnly u v) : FmOnly u v.offerCounters := by
  simp only [State.offerCounters]
  split
  · exact h.offer 10
  · obtain ⟨g, j, l, c, rfl⟩ := h
    exact ⟨_, _, _, _, rfl⟩

theorem FmOnly.refl : FmOnly u u := ⟨_, _, _, _, rfl⟩

theorem FmOnly.trans {v w : State} (h₁ : FmOnly u v) (h₂ : FmOnly v w) : FmOnly u w := by
  obtain ⟨g, j, l, c, rfl⟩ := h₁
  obtain ⟨g', j', l', c', rfl⟩ := h₂
  exact ⟨_, _, _, _, rfl⟩

theorem resetAccept_fmOnly (rights : Rights) (u : State) : FmOnly u (resetAccept rights u) := by
  simp only [resetAccept, queueLockoutPage]
  split
  · exact ((FmOnly.refl.onFm _).onFm _).offer 8
  · simp only [offerResets]
    split
    · exact ((((FmOnly.refl.onFm _).onFm _).onFm _).offer 8).offer 9
    · exact ((((FmOnly.refl.onFm _).onFm _).onFm _).offer 8).onFm _

/-- A reset request taken moves FM and the store queue only. -/
theorem fmReset_fmOnly (rights : Rights) (origin : Origin) (u : State) : FmOnly u (fmReset rights origin u) := by
  simp only [fmReset]
  split
  · exact (resetAccept_fmOnly rights u).onFm _
  · split
    · exact ((FmOnly.refl.onFm _).offer 8).onFm _
    · exact FmOnly.refl.onFm _

/-- Settles O55: R121's table decides, FM takes the request, and neither the closing nor the end of the event moves FM's part in it. -/
theorem lockoutResetFollowsItsTable : Obligations.LockoutResetFollowsItsTable := by
  unfold Obligations.LockoutResetFollowsItsTable
  intro s node tag hreq hquiet
  have hexec := exec_request_reply (c := .lockoutReset node tag) (kind := 6) (tag := tag) (ps := []) rfl (by decide) rfl hreq
  have hrights : (requestState node s).rightsOf node = s.rightsOf node := requestState_rights node node s
  have hq : (requestState node s).bs.state = .lockout ∨ RelaysOpen (requestState node s) :=
    hquiet.imp (requestState_lockout node) (requestState_open node)
  obtain ⟨-, -, -, -, -, -, -, -, hfm⟩ := requestState_still node s
  generalize hdec : mgDecide node 6 [] (requestState node s) = d at hexec
  generalize requestState node s = u at *
  obtain ⟨t, ht, hts, hans, -, -, -⟩ := hexec
  have kept : (d.1.bs.state = .lockout ∨ RelaysOpen d.1) →
      t.fm.lockout = d.1.fm.lockout ∧ t.fm.resets = d.1.fm.resets ∧ t.fm.lastReset = d.1.fm.lastReset
        ∧ t.fm.writeOut = d.1.fm.writeOut := by
    intro h
    have e := settle_answerSent_fm (s := s) (u := setAnswer node (answerPayload (byte 6) tag d.2) d.1) h
    rw [← hts, (answerSent_still s _).2.2] at e
    rw [e]
    exact ⟨rfl, rfl, rfl, rfl⟩
  refine ⟨fun r hn hr => ?_, fun hn => ?_⟩
  · have hd : d = mgLockoutReset (s.rightsOf node) node u := by
      rw [← hdec, mgDecide_carry (kind := 6) (by decide) rfl (by rw [hrights]; exact Rights.rank_pos hn) (by rwa [hrights]),
        ← hrights]
      rfl
    have htaken : ResetTaken u t (s.rightsOf node) (.node node) r := by
      have hd1 : d.1 = fmReset (s.rightsOf node) (.node node) u := by rw [hd]; rfl
      refine (fmReset_taken (.node node) hr).mono ?_ fun h => ?_
      · rw [← hd1]
        refine kept ?_
        obtain ⟨f, j, l, c, e⟩ := fmReset_fmOnly (s.rightsOf node) (.node node) u
        rw [hd1, e]
        exact hq
      · rw [hts]
        refine jobStands_answerSent ?_
        rw [hd1]
        exact h
    obtain ⟨hcond, hother⟩ := resetResult_of hr
    rw [hd] at hans
    by_cases hc : r = .condition
    · obtain ⟨q, hq1, hq2⟩ := hcond hc
      simp only [mgLockoutReset, hq2] at hans
      exact ⟨t, _, ht, htaken, hans, fun _ => ⟨q, hq1, rfl⟩, fun h => absurd hc h⟩
    · simp only [mgLockoutReset, hother hc] at hans
      exact ⟨t, _, ht, htaken, hans, fun h => absurd h hc, fun _ => rfl⟩
  · have hd : d = (u, { result := .denied }) := hdec.symm.trans (mgDecide_none (hrights.trans hn))
    rw [hd] at hans kept
    obtain ⟨k1, k2, k3, -⟩ := kept hq
    exact ⟨t, ht, hans, by rw [k1, hfm], by rw [k2, hfm], by rw [k3, hfm]⟩

end Sys2Proof.Machine

/-! SUPPORT. CLEAR_HISTORY and the proxy slot: O56, O57. -/

namespace Sys2Proof.Machine

variable {s u : State}

/-! ### CLEAR_HISTORY -/

theorem offer_jobs (page : Nat) (h8 : page ≠ 8) (s : State) :
    (s.offer page).st.jobs = (if s.jobWaiting page || !s.canTake page then s.st.jobs
      else s.st.jobs ++ [{ page := page, commit := false }]) := by
  simp only [State.offer, h8, if_false]
  split <;> rfl

theorem jobWaiting_offer {page p : Nat} (h8 : page ≠ 8) (h : s.jobWaiting p = true) : (s.offer page).jobWaiting p = true := by
  rw [offer_still]
  revert h
  simp only [State.jobWaiting, State.offer, h8, if_false]
  repeat' split
  all_goals simp +contextual

/-- As many offers as the queue has places make each page's job wait. -/
theorem foldl_offer_waiting : ∀ (l : List Nat) (s : State), (∀ p ∈ l, p ≠ 8) →
    (l.filter fun p => !s.jobWaiting p).length + s.st.jobs.length ≤ Config.queuePlaces →
    ∀ p, p ∈ l ∨ s.jobWaiting p = true → (l.foldl State.offer s).jobWaiting p = true
  | [], s, _, _, p, hp => by simpa using hp
  | q :: l, s, h8, hfit, p, hp => by
    have hq8 : q ≠ 8 := h8 q (.head _)
    have hmono : ∀ r, s.jobWaiting r = true → (s.offer q).jobWaiting r = true := fun r => jobWaiting_offer hq8
    have hfew : (l.filter fun p => !(s.offer q).jobWaiting p).length ≤ (l.filter fun p => !s.jobWaiting p).length := by
      refine (List.monotone_filter_right l fun r hr => ?_).length_le
      cases hs : s.jobWaiting r
      · rfl
      · rw [hmono r hs] at hr
        exact hr
    have hjobs := offer_jobs q hq8 s
    have hstands : (s.offer q).jobWaiting q = true ∧
        (l.filter fun p => !(s.offer q).jobWaiting p).length + (s.offer q).st.jobs.length ≤ Config.queuePlaces := by
      by_cases hw : s.jobWaiting q = true
      · simp only [List.filter_cons, hw, Bool.not_true, if_false, Bool.false_eq_true, Bool.true_or, if_true] at hfit hjobs
        exact ⟨hmono q hw, by rw [hjobs]; omega⟩
      · simp only [List.filter_cons, hw, Bool.not_false, if_true, List.length_cons] at hfit
        have ht : s.canTake q = true := by
          simp only [State.canTake, Bool.or_eq_true, decide_eq_true_eq]
          exact .inr (by omega)
        simp only [hw, ht, Bool.not_true, Bool.or_self, Bool.false_eq_true, if_false] at hjobs
        refine ⟨?_, by rw [hjobs]; simp; omega⟩
        simp [State.jobWaiting, hq8, hjobs]
    refine foldl_offer_waiting l (s.offer q) (fun r hr => h8 r (.tail _ hr)) hstands.2 p ?_
    rcases hp with hp | hp
    · rcases List.mem_cons.1 hp with rfl | hp
      · exact .inr hstands.1
      · exact .inl hp
    · exact .inr (hmono p hp)

theorem foldl_offer_queue : ∀ (l : List Nat) (s : State),
    ∃ j k, l.foldl State.offer s = { s with st := { s.st with jobs := j, lockJob := k } }
  | [], _ => ⟨_, _, rfl⟩
  | q :: l, s => by
    obtain ⟨j, k, h⟩ := foldl_offer_queue l (s.offer q)
    rw [List.foldl_cons, h, offer_still]
    exact ⟨_, _, rfl⟩

theorem removeRecord_active (src : Source) (s : State) : (removeRecord src s).fm.active =
    match s.record src with
    | none => s.fm.active
    | some r => if r.cls = .lockout then s.fm.active else s.fm.active.filter fun x => x.source != src := by
  cases hr : s.record src with
  | none => simp only [removeRecord, hr]
  | some r =>
    by_cases hc : r.cls = .lockout
    · simp only [removeRecord, hr, hc, if_true]
    · simp only [removeRecord, hr, hc, if_false]
      exact congrArg Fm.active (still_fields (fmSync_still (s.onFm fun f =>
        { f with active := f.active.filter fun x => x.source != src }))).2.2.2.2.1

theorem busFaultClear_active {s u : State} (hz : u.zp.busFault = s.zp.busFault) (ha : u.fm.active = s.fm.active) :
    (busFaultClear u).fm.active = (busFaultClear s).fm.active := by
  simp only [busFaultClear, hz]
  split
  · simp only [fmClear, removeRecord_active]
    simp only [State.record, State.clearCond, State.onFm_fm, State.onZp, ha]
  · exact ha

/-- CLEAR_HISTORY with room in the queue: the ring empty, the next slot 0, the re-offer marks clear, and the jobs queued (R129). -/
theorem clearRing_queue (u : State) : ∃ j k, clearRing u = { u with
    fm := { u.fm with ring := List.replicate 32 none, nextSlot := 0, rePages := List.replicate 8 false }
    st := { u.st with jobs := j, lockJob := k } } := by
  simp only [clearRing]
  generalize historyPages = l
  exact foldl_offer_queue l _

theorem clearRing_waiting (hc : canClearHistory u = true) (hq : QueueFits u) {p : Nat} (hp : p ∈ historyPages) :
    (clearRing u).jobWaiting p = true := by
  have h8 : ∀ p ∈ historyPages, p ≠ 8 := by decide
  have hc' := of_decide_eq_true hc
  simp only [State.freePlaces] at hc'
  simp only [QueueFits] at hq
  simp only [clearRing]
  clear hc
  generalize historyPages = l at *
  refine foldl_offer_waiting l _ h8 ?_ p (.inl hp)
  show (l.filter fun p => !u.jobWaiting p).length + u.st.jobs.length ≤ _
  omega

/-- Settles O57. -/
theorem clearHistoryEmptiesTheRing : Obligations.ClearHistoryEmptiesTheRing := by
  unfold Obligations.ClearHistoryEmptiesTheRing
  intro s node tag hreq hquiet hfits u missing
  have hexec := exec_request_reply (c := .clearHistory node tag) (kind := 8) (tag := tag) (ps := []) rfl (by decide) rfl hreq
  have hrights : u.rightsOf node = s.rightsOf node := requestState_rights node node s
  have hq : u.bs.state = .lockout ∨ RelaysOpen u := hquiet.imp (requestState_lockout node) (requestState_open node)
  obtain ⟨hst, -, -, -, -, -, -, -, hfm⟩ := requestState_still node s
  change u.st = s.st at hst
  change u.fm = _ at hfm
  generalize hdec : mgDecide node 8 [] (requestState node s) = d at hexec
  change mgDecide node 8 [] u = d at hdec
  clear_value u
  obtain ⟨t, ht, hts, hans, -, -, -⟩ := hexec
  have hw : ∀ p, u.jobWaiting p = s.jobWaiting p := fun p => by rw [State.jobWaiting, State.jobWaiting, hst]
  have hring : ∃ j k, clearRing u = { u with
      fm := { u.fm with ring := List.replicate 32 none, nextSlot := 0, rePages := List.replicate 8 false }
      st := { u.st with jobs := j, lockJob := k } } := clearRing_queue u
  have hfew : canClearHistory u = true ↔ missing.length + s.st.jobs.length ≤ 16 := by
    have : s.st.jobs.length ≤ 16 := hfits
    simp only [canClearHistory, decide_eq_true_eq, State.freePlaces, hst, hw, Config.queuePlaces, missing]
    omega
  clear_value missing
  have hdo : s.rightsOf node = .service → d = mgClearHistory u := by
    intro hr
    rw [← hdec, mgDecide_carry (kind := 8) (by decide) rfl (Rights.rank_service (hrights.trans hr)) (by rw [hrights, hr]; decide)]
    rfl
  have hbusy : s.rightsOf node = .service → 16 < missing.length + s.st.jobs.length → d = (u, { result := .busy }) := by
    intro hr h
    rw [hdo hr, mgClearHistory, if_neg (by rw [hfew]; omega)]
  have hdone : s.rightsOf node = .service → missing.length + s.st.jobs.length ≤ 16 →
      d = (clearRing u, { result := .done }) := by
    intro hr h
    rw [hdo hr, mgClearHistory, if_pos (hfew.2 h)]
  have hdenied : s.rightsOf node ≠ .service → d = (u, { result := .denied }) := fun hr =>
    hdec.symm.trans (mgDecide_low (by decide) rfl (by rw [hrights]; exact Rights.rank_lt_service hr))
  have hd : d.1 = u ∨ d.1 = clearRing u := by
    by_cases hr : s.rightsOf node = .service
    · by_cases h : missing.length + s.st.jobs.length ≤ 16
      · exact .inr (by rw [hdone hr h])
      · exact .inl (by rw [hbusy hr (by omega)])
    · exact .inl (by rw [hdenied hr])
  have hd' : (d.1.bs, d.1.lines, d.1.zp.busFault, d.1.fm.active, d.1.fm.esc, d.1.fm.lockout, d.1.fm.resets, d.1.fm.nextSeq)
      = (u.bs, u.lines, u.zp.busFault, u.fm.active, u.fm.esc, u.fm.lockout, u.fm.resets, u.fm.nextSeq) := by
    obtain ⟨j, k, hring⟩ := hring
    rcases hd with h | h
    · rw [h]
    · rw [h, hring]
  simp only [Prod.mk.injEq] at hd'
  obtain ⟨hbs, hlines, hbus, hact, hesc, hlock, hres, hseq⟩ := hd'
  have hfmt := settle_answerSent_fm (s := s) (u := setAnswer node (answerPayload (byte 8) tag d.2) d.1)
    (by rwa [RelaysOpen, show (setAnswer _ _ d.1).bs = u.bs from hbs, show (setAnswer _ _ d.1).lines = u.lines from hlines])
  rw [← hts] at hfmt
  have hkept : t.fm = { d.1.fm with active := t.fm.active, cond := t.fm.cond } := by
    rw [hfmt]
    exact (answerSent_still s _).2.2
  have hactive : t.fm.active = (if s.pe.round.inFlight = none then u else busFaultClear u).fm.active := by
    rw [hfmt]
    simp only [answerSent]
    split
    · exact hact
    · exact busFaultClear_active hbus hact
  have hsame : d.1 = u → t.fm.ring = s.fm.ring ∧ t.fm.nextSlot = s.fm.nextSlot ∧ t.fm.rePages = s.fm.rePages := by
    intro h
    rw [hkept, h, hfm]
    exact ⟨rfl, rfl, rfl⟩
  refine ⟨t, ht, hactive, by rw [hkept]; exact hesc, by rw [hkept]; exact hlock, by rw [hkept]; exact hres, ?_,
    fun hr h => ?_, fun hr h => ?_, fun hr => ?_⟩
  · rw [hkept]
    exact hseq.trans (by rw [hfm])
  · have e := hdone hr h
    have hfm' : d.1.fm
        = { u.fm with ring := List.replicate 32 none, nextSlot := 0, rePages := List.replicate 8 false } := by
      obtain ⟨j, k, hring⟩ := hring
      rw [e, hring]
    refine ⟨by rw [e] at hans; exact hans, by rw [hkept, hfm'], by rw [hkept, hfm'], by rw [hkept, hfm'], fun p hp => ?_⟩
    · have hfits' : QueueFits u := by rwa [QueueFits, hst]
      have hj : (clearRing u).jobWaiting p = true := clearRing_waiting (hfew.2 h) hfits' hp
      rw [show clearRing u = d.1 by rw [e]] at hj
      have hj' : JobStands (setAnswer node (answerPayload (byte 8) tag d.2) d.1) p := .inl hj
      rw [hts]
      exact jobStands_answerSent hj'
  · have e := hbusy hr h
    exact ⟨by rw [e] at hans; exact hans, hsame (by rw [e])⟩
  · have e := hdenied hr
    exact ⟨by rw [e] at hans; exact hans, hsame (by rw [e])⟩

/-! ### The proxy slot -/

theorem answerSent_slot (s u : State) : ∃ b, (answerSent s u).mg.slot = { u.mg.slot with delivering := b }
    ∧ (u.mg.slot.delivering = false → b = false) := by
  simp only [answerSent]
  split
  · exact ⟨false, by simp [mgClosing], fun _ => rfl⟩
  · refine ⟨u.mg.slot.delivering, ?_, id⟩
    exact congrArg Mg.slot (busFaultClear_still u).2.1

theorem settle_urgent (s : State) : (settle s).pe.urgent = s.pe.urgent :=
  ((settle_acts (.inl ⟨nofun, nofun⟩) .refl :
    Acts false (fun x => x ≠ .poll ∧ x ≠ .demand) s _).urgent.resolve_left fun h => h.1 rfl).resolve_left fun h => h.2 rfl

theorem fmClear_pe (src : Source) (s : State) :
    (fmClear src s).pe = { s.pe with leadCode := (fmClear src s).pe.leadCode } := by
  have h := congrArg State.pe (fmClear_still src s)
  exact h

theorem answerSent_urgent (s u : State) : (answerSent s u).pe.urgent = u.pe.urgent := by
  simp only [answerSent]
  split
  · rfl
  · show (busFaultClear u).pe.urgent = _
    simp only [busFaultClear]
    split
    · rw [fmClear_pe]
      rfl
    · rfl

/-- Settles O56. -/
theorem proxySlotFetchesHoldsAndEmpties : Obligations.ProxySlotFetchesHoldsAndEmpties := by
  unfold Obligations.ProxySlotFetchesHoldsAndEmpties
  intro s node tag target item
  have request := fun hreq => exec_request_reply (s := s) (c := .proxyRead node tag target item) (kind := 7) (tag := tag)
    (ps := [target, item]) rfl (by decide) rfl hreq
  have hrights : (requestState node s).rightsOf node = s.rightsOf node := requestState_rights node node s
  obtain ⟨-, hmg, -, -, hurg, -⟩ := requestState_still node s
  generalize hdec : mgDecide node 7 [target, item] (requestState node s) = d at request
  generalize requestState node s = u at *
  have slot : ∀ {t}, t = settle (answerSent s (setAnswer node (answerPayload (byte 7) tag d.2) d.1)) →
      (∃ b, t.mg.slot = { d.1.mg.slot with delivering := b } ∧ (d.1.mg.slot.delivering = false → b = false))
        ∧ t.pe.urgent = d.1.pe.urgent := by
    rintro t rfl
    refine ⟨?_, by rw [settle_urgent, answerSent_urgent]; rfl⟩
    rw [(settle_blocks _).1]
    exact answerSent_slot s (setAnswer node (answerPayload (byte 7) tag d.2) d.1)
  have hbad : target = 0 ∨ 15 < target.toNat → malformed 7 [target, item] = true := by
    rintro (rfl | h)
    · rfl
    · simp [malformed, u8, h]
  have hok : 1 ≤ target.toNat → target.toNat ≤ 15 → malformed 7 [target, item] = false := by
    intro h1 h2
    have h0 : ¬ target.toNat = 0 := by omega
    simp [malformed, paramLength, u8, h0, h2]
  refine ⟨fun hreq => ?_, fun hreq hr h1 h2 => ?_, fun e hp hh => ?_⟩
  · obtain ⟨t, ht, hts, hans, -⟩ := request hreq
    have refused : ∀ r, d = (u, r) → answered t node tag 7 r.result r.data ∧ t.mg.slot.state = s.mg.slot.state := by
      rintro r rfl
      obtain ⟨⟨b, hs, -⟩, -⟩ := slot hts
      refine ⟨hans, ?_⟩
      rw [hs, hmg]
    refine ⟨t, ht, fun hn => ?_, fun hn hb => ?_, fun hr h1 h2 => ?_⟩
    · exact refused { result := .denied } (hdec.symm.trans (mgDecide_none (hrights.trans hn)))
    · exact refused { result := .invalid } (hdec.symm.trans (mgDecide_malformed (by rwa [hrights]) (hbad hb)))
    · refine refused { result := .denied } (hdec.symm.trans (mgDecide_low (by decide) (hok h1 h2) ?_))
      rw [hrights, hr]
      exact show 1 < 2 by decide
  · obtain ⟨t, ht, hts, hans, -⟩ := request hreq
    obtain ⟨⟨b, hs, hb⟩, hu⟩ := slot hts
    have hd : d = mgProxyRead target.toNat item.toNat u := by
      rw [← hdec, mgDecide_carry (kind := 7) (by decide) (hok h1 h2) (by rwa [hrights])
        (by rw [hrights]; exact Rights.ne_none hr (by decide))]
      rfl
    rw [← hmg]
    refine ⟨t, ht, fun he => ?_, fun hf => ?_, fun hrd => ?_⟩
    · simp only [mgProxyRead, he] at hd
      have hslot : d.1.mg.slot = { state := .fetching, target := target.toNat, item := item.toNat } := by
        rw [hd]
        dsimp only [placeProxy]
        split <;> rfl
      rw [hd] at hans
      refine ⟨hans, ?_, fun hall => ?_⟩
      · rw [hs, hslot, hb (by rw [hslot])]
      · have hany : (s.pe.urgent.any fun x => !x.high) = false := by
          rw [← Bool.not_eq_true', ← List.all_eq_not_any_not]
          exact hall
        rw [hu, hd, ← hurg]
        rw [← hurg] at hany
        exact congrArg (fun v : State => v.pe.urgent) (if_neg (by simpa using hany))
    · simp only [mgProxyRead, hf] at hd
      rw [hd] at hans
      refine ⟨by rw [hs, hd, hf], fun ⟨h1, h2⟩ => ?_, fun hn => ?_⟩
      · simpa [h1, h2] using hans
      · have : (u.mg.slot.target == target.toNat && u.mg.slot.item == item.toNat) = false := by
          simpa [Bool.and_eq_false_iff, not_and_or] using hn
        simpa [this] using hans
    · simp only [mgProxyRead, hrd] at hd
      by_cases hsame : u.mg.slot.target = target.toNat ∧ u.mg.slot.item = item.toNat
      · obtain ⟨e1, e2⟩ := hsame
        simp only [e1, e2, beq_self_eq_true, Bool.and_self, if_true] at hd
        rw [hd] at hans
        refine ⟨by rw [hs, hd]; exact hrd, by rw [hs, hd]; rfl, fun _ => hans, fun h => absurd ⟨e1, e2⟩ h⟩
      · have hne : (u.mg.slot.target == target.toNat && u.mg.slot.item == item.toNat) = false := by
          simpa [Bool.and_eq_false_iff, not_and_or] using hsame
        simp only [hne, Bool.false_eq_true, if_false] at hd
        rw [hd] at hans
        exact ⟨by rw [hs, hd]; exact hrd, by rw [hs, hd], fun h => absurd h hsame, fun _ => hans⟩
  · obtain ⟨hm, -, -, hc, -⟩ := settle_blocks (slotExpired (s.reach e))
    refine ⟨_, exec_on (c := .proxyHoldExpiry) (by decide) hp, ?_, ?_⟩
    · show (settle (s.expire s.mg.slot.hold slotExpired)).mg = _
      rw [State.expire_some hh, hm]
      rfl
    · show (settle (s.expire s.mg.slot.hold slotExpired)).clock.now = _
      rw [State.expire_some hh, hc]
      rfl

end Sys2Proof.Machine

/-! SUPPORT. Changes of burner state: what they keep of BS's counts and marks; RESET_IN and the flame: O19, O20, O21, O40. -/

namespace Sys2Proof.Machine

variable {s u : State}

/-! ### RESET_IN -/

/-- The press timer and the arming of RESET_IN have no part in the result of a reset request. -/
theorem resetResult_press {f : Fm → Fm} {d : Nat} {rights : Rights} {r : Result}
    (hf : ∀ m, ∃ p a, f m = { m with press := p, armed := a }) (h : ResetResult s rights r) :
    ResetResult ((s.reach d).onFm f) rights r := by
  obtain ⟨p, a, e⟩ := hf s.fm
  have hv : (s.reach d).onFm f = { s.reach d with fm := { s.fm with press := p, armed := a } } := by
    rw [← e]
    rfl
  rw [hv]
  have hc : ∀ x, State.conditionPresent { s.reach d with fm := { s.fm with press := p, armed := a } } x
      = s.conditionPresent x := fun x => by cases x <;> rfl
  unfold ResetResult
  simp only [hc]
  exact h

/-- Settles O40. -/
theorem resetInPressIsADisplayReset : Obligations.ResetInPressIsADisplayReset := by
  unfold Obligations.ResetInPressIsADisplayReset
  intro s dt hp
  refine ⟨fun hl hm => ?_, fun hl hm => ?_, fun d r hd hq hr => ?_⟩
  · exact exec_atEnd (c := .resetInLevelChange true dt) nofun hp (by simp [effect, hl, arrive, resetInChanged]; rfl) hm
  · exact exec_atEnd (c := .resetInLevelChange false dt) nofun hp (by simp [effect, hl, arrive, resetInChanged]; rfl) hm
  · have hexec : exec .resetInPress s = .next (settle (resetInPressed (s.reach d))) := by
      rw [exec_on (c := .resetInPress) nofun (by rw [arrive_power]; exact hp)]
      exact congrArg (fun v => Host.Outcome.next (settle v)) (State.expire_some hd _)
    have hr' := resetResult_press (d := d) (f := fun m => { m with press := none, armed := false }) (fun m => ⟨_, _, rfl⟩) hr
    have htaken := fmReset_taken .resetIn hr'
    obtain ⟨f, j, l, c, hv⟩ := fmReset_fmOnly .display .resetIn
      ((s.reach d).onFm fun m => { m with press := none, armed := false })
    have hpress := (fmReset_acts .display .resetIn (p := fun x => x = .reset) rfl (.refl (i := false)
      (s := (s.reach d).onFm fun m => { m with press := none, armed := false }))).press.resolve_left nofun
    change fmReset .display .resetIn ((s.reach d).onFm fun m => { m with press := none, armed := false }) = _ at hv
    rw [← show resetInPressed (s.reach d) = fmReset .display .resetIn
      ((s.reach d).onFm fun m => { m with press := none, armed := false }) from rfl] at htaken hv hpress
    obtain ⟨hfm, -⟩ := settle_still_fields (s := resetInPressed (s.reach d)) (hq.imp
      (fun h => mayStart_of_state (by rw [hv]; simp [h])) (fun h => by rw [hv]; exact h))
    have hjobs := (settle_acts (.inl nofun) .refl : Acts false (fun x => x ≠ .store) (resetInPressed (s.reach d))
      (settle (resetInPressed (s.reach d)))).stands.resolve_left (fun h => h rfl)
    simp only [Prod.mk.injEq] at hpress
    refine ⟨_, hexec, by rw [hfm]; exact hpress.1, by rw [hfm]; exact hpress.2, ?_⟩
    exact htaken.mono (by rw [hfm]; exact ⟨rfl, rfl, rfl, rfl⟩) (hjobs 8)

/-! ### BS under a report -/

/-- BS apart from what DM's anti-cycle and MU's output make of it: the fan target, the duty and the ANTI_CYCLE reason. -/
def Bs.core (b : Bs) : Bs := { b with fanTarget := 0, fanDuty := 0, inhibit := { b.inhibit with antiCycle := false } }

section
variable (s : State)
@[simp] theorem State.onDm_core (f : Dm → Dm) : (s.onDm f).bs.core = s.bs.core := rfl
@[simp] theorem State.onMu_core (f : Mu → Mu) : (s.onMu f).bs.core = s.bs.core := rfl
@[simp] theorem State.onCyc_core (f : Cycle → Cycle) : (s.onCyc f).bs.core = s.bs.core := rfl
@[simp] theorem State.setAntiCycle_core (v : Bool) : (s.setAntiCycle v).bs.core = s.bs.core := rfl
@[simp] theorem setFanTarget_core (n : Nat) : (setFanTarget n s).bs.core = s.bs.core := rfl
@[simp] theorem cycleInactive_core : (cycleInactive s).bs.core = s.bs.core := rfl
@[simp] theorem onPhaseStart_core : (onPhaseStart s).bs.core = s.bs.core := rfl
@[simp] theorem entryOutput_core (n : Nat) : (entryOutput n s).bs.core = s.bs.core := rfl
@[simp] theorem muStabiliseEntry_core : (muStabiliseEntry s).bs.core = s.bs.core := rfl
@[simp] theorem pumpOverrunStart_core : (pumpOverrunStart s).bs.core = s.bs.core := rfl
end

@[simp] theorem muPreset_core (n : Nat) (s : State) : (muPreset n s).bs.core = s.bs.core := by
  simp only [muPreset]
  split <;> rfl

@[simp] theorem muRunEntry_core (s : State) : (muRunEntry s).bs.core = s.bs.core := by
  simp only [muRunEntry]
  repeat' split
  all_goals simp

@[simp] theorem muReturn_core (s : State) : (muReturn s).bs.core = s.bs.core := by
  simp only [muReturn]
  split <;> simp

@[simp] theorem muLockout_core (s : State) : (muLockout s).bs.core = s.bs.core := by
  simp only [muLockout]
  split <;> simp

@[simp] theorem antiCycleStart_core (s : State) : (antiCycleStart s).bs.core = s.bs.core := by
  simp only [antiCycleStart]
  split <;> simp

@[simp] theorem dmDeparture_core (c : Cause) (o : Bool) (s : State) : (dmDeparture c o s).bs.core = s.bs.core := by
  simp only [dmDeparture]
  repeat' split
  all_goals simp

@[simp] theorem dmFiring_core (s : State) : (dmFiring s).bs.core = s.bs.core := by
  simp only [dmFiring]
  split <;> simp

@[simp] theorem bsReport_core (w : Bool) (c : Cause) (o : Bool) (s : State) : (bsReport w c o s).bs.core = s.bs.core := by
  simp only [bsReport]
  repeat' split
  all_goals simp

/-! ### Counts and marks of BS -/

/-- The counts and marks of BS that a change of burner state keeps. -/
def Bs.memo (b : Bs) : Nat × Nat × Bool × Bool × Bool × Bool × Inhibit :=
  (b.attempts, b.recycles, b.retry, b.ffRaised, b.limitMark, b.overheatMark, { b.inhibit with antiCycle := false })

theorem Bs.memo_core (b : Bs) : b.core.memo = b.memo := rfl

@[simp] theorem setFanTarget_memo (n : Nat) (s : State) : (setFanTarget n s).bs.memo = s.bs.memo := rfl

@[simp] theorem setMismatch_memo (r : Relay) (t : Timer) (m : Bool) (s : State) :
    (setMismatch r t m s).bs.memo = s.bs.memo := by
  cases r <;> rfl

@[simp] theorem mismatchSync_memo (r : Relay) (s : State) : (mismatchSync r s).bs.memo = s.bs.memo := by
  simp only [mismatchSync]
  repeat' split
  all_goals simp

@[simp] theorem safeOff_memo (s : State) : (safeOff s).bs.memo = s.bs.memo := by
  simp only [safeOff, relaySync, mismatchSync_memo]
  split <;> rfl

@[simp] theorem bsReport_memo (w : Bool) (c : Cause) (o : Bool) (s : State) : (bsReport w c o s).bs.memo = s.bs.memo := by
  rw [← Bs.memo_core, bsReport_core]
  rfl

@[simp] theorem bsMove_memo (st : BurnerState) (c : Cause) (o : Bool) (s : State) :
    (bsMove st c o s).bs.memo = s.bs.memo := by
  simp only [bsMove, bsReport_memo]
  split
  · rfl
  · exact safeOff_memo s

@[simp] theorem toStandby_memo (c : Cause) (s : State) : (toStandby c s).bs.memo = s.bs.memo := by simp [toStandby]

theorem toPostPurge_memo (c : Cause) (o r : Bool) (s : State) :
    (toPostPurge c o r s).bs.memo = ({ s.bs with retry := r } : Bs).memo := by
  have h := bsMove_memo .postPurge c o s
  simp only [Bs.memo, Prod.mk.injEq] at h ⊢
  simp [toPostPurge, setFanTarget, h]

/-! ### The states gone to -/

theorem toStandby_state (c : Cause) (s : State) : (toStandby c s).bs.state = .standby :=
  congrArg (fun d => d.1.state) (toStandby_drive c s)

theorem establishFlame_state (s : State) :
    (establishFlame s).bs.state = (if sbStab s.st.safety = 0 then .run else .stabilise) := by
  have hst : (bsMove .stabilise .fault false (s.onBs fun b => { b with spark := false, attempts := 0 })).st = s.st :=
    (still_fields (bsMove_still _ _ _ _)).2.2.2.2.2.2.2.2.1
  have hstate := bsMove_state .stabilise .fault false (s.onBs fun b => { b with spark := false, attempts := 0 })
  simp only [establishFlame]
  generalize bsMove .stabilise .fault false (s.onBs fun b => { b with spark := false, attempts := 0 }) = v at *
  have hsafe : (setFanTarget (v.bump 2).ignitionSpeed (v.bump 2)).st.safety = s.st.safety := by
    show v.st.safety = _
    rw [hst]
  rw [hsafe]
  split
  · exact bsMove_state _ _ _ _
  · exact hstate

/-! ### Flame samples and pulses -/

/-- The state in which BS takes a flame event: the sample's time, and MP's flame record. -/
def sampled (raw : Sample) (s : State) : State :=
  let t := max s.clock.now (s.clock.sampleAt + Config.sample)
  (s.onClock fun c => { c with now := t, sampleAt := t }).onMp fun m =>
    { m with flame := (flameStep s.flameOn s.flameOff (raw.toNat / 16) s.mp.flame).1 }

theorem flameSampled_eq (raw : Sample) (s : State) : flameSampled raw s =
    match (flameStep s.flameOn s.flameOff (raw.toNat / 16) s.mp.flame).2 with
    | .none => sampled raw s
    | .on => flameOnEvent (sampled raw s)
    | .loss => flameLossEvent (sampled raw s) := rfl

/-- A flame sample moves MP's flame record and the clock, beside what BS does with its event. -/
theorem flameSampled_blocks (raw : Sample) (s : State) :
    (flameSampled raw s).mp = { s.mp with flame := (flameStep s.flameOn s.flameOff (raw.toNat / 16) s.mp.flame).1 }
      ∧ (flameSampled raw s).clock.now = max s.clock.now (s.clock.sampleAt + Config.sample) := by
  rw [flameSampled_eq]
  split
  · exact ⟨rfl, rfl⟩
  · obtain ⟨-, -, hc, -, -, hm, -⟩ := outer_fields (flameOnEvent_outer (sampled raw s))
    exact ⟨hm, congrArg Clock.now hc⟩
  · obtain ⟨-, -, hc, -, -, hm, -⟩ := outer_fields (flameLossEvent_outer (sampled raw s))
    exact ⟨hm, congrArg Clock.now hc⟩

theorem exec_flameSample (raw : Sample) (hp : s.power = .on) : ∃ t, exec (.flameSample raw) s = .next t
    ∧ t.mp = { s.mp with flame := (flameStep s.flameOn s.flameOff (raw.toNat / 16) s.mp.flame).1 }
    ∧ t.clock.now = max s.clock.now (s.clock.sampleAt + Config.sample) := by
  obtain ⟨hmp, hclock⟩ := flameSampled_blocks raw s
  obtain ⟨-, -, hm, hc, -⟩ := settle_blocks (flameSampled raw s)
  exact ⟨_, exec_on (c := .flameSample raw) nofun hp, hm.trans hmp, (congrArg Clock.now hc).trans hclock⟩

/-- Settles O19. -/
theorem flameSamplesAndPulsesAreTaken : Obligations.FlameSamplesAndPulsesAreTaken := by
  unfold Obligations.FlameSamplesAndPulsesAreTaken
  intro raw s hp
  refine ⟨?_, fun hm => ?_, fun hm => ?_⟩
  · obtain ⟨t, ht, hmp, hclock⟩ := exec_flameSample raw hp
    refine ⟨t, ht, ?_, fun hf hi => ?_, fun hf hi => ?_, fun hf hi => ?_, fun hf hi => ?_, ?_, hclock⟩
    all_goals rw [hmp]
    · simp only [flameStep]
      repeat' split
      all_goals rfl
    · exact ⟨fun h => by simp [flameStep, hf, hi, h], fun h => by simp [flameStep, hf, hi, Nat.not_le.2 h]⟩
    · simp [flameStep, hf, Nat.not_le.2 hi]
    · exact ⟨fun h => by simp [flameStep, hf, hi, h], fun h => by simp [flameStep, hf, hi, Nat.not_le.2 h]⟩
    · simp [flameStep, hf, Nat.not_lt.2 hi]
  · exact exec_atEnd (c := .inputPulse .dhwPulse) nofun hp rfl hm
  · exact exec_atEnd (c := .inputPulse .fanTacho) nofun hp rfl hm

/-! ### The flame established and lost -/

/-- A timer's expiry, the timer running. -/
theorem exec_expire {c : Instr} {s : State} {t : Timer} {d : Nat} {f : State → State} (hf : familyOf c ≠ .power)
    (ha : arrive c s = s) (he : effect c s s = s.expire t f) (hp : s.power = .on) (ht : t = some d) :
    exec c s = .next (settle (f (s.reach d))) := by
  rw [exec_on hf (by rwa [ha]), ha, he, State.expire_some ht]

theorem flameSampled_on {raw : Sample} (hf : s.mp.flame.present = false) (hr : 2 ≤ s.mp.flame.onRun)
    (hi : s.flameOn ≤ raw.toNat / 16) : flameSampled raw s = flameOnEvent (sampled raw s) := by
  have h : (flameStep s.flameOn s.flameOff (raw.toNat / 16) s.mp.flame).2 = .on := by simp [flameStep, hf, hr, hi]
  rw [flameSampled_eq, h]

theorem flameSampled_loss {raw : Sample} (hf : s.mp.flame.present = true) (hr : 2 ≤ s.mp.flame.offRun)
    (hi : raw.toNat / 16 < s.flameOff) : flameSampled raw s = flameLossEvent (sampled raw s) := by
  have h : (flameStep s.flameOn s.flameOff (raw.toNat / 16) s.mp.flame).2 = .loss := by simp [flameStep, hf, hr, hi]
  rw [flameSampled_eq, h]

/-- Establishing the flame returns the attempt count to 0 and counts one burner start (R32, R200). -/
theorem establishFlame_tally (s : State) : (establishFlame s).tally = (0, countUp 2 s.st.counters, s.fm) := by
  have h := bsMove_tally .stabilise .fault false (s.onBs fun b => { b with spark := false, attempts := 0 })
  simp only [establishFlame]
  generalize bsMove .stabilise .fault false (s.onBs fun b => { b with spark := false, attempts := 0 }) = v at *
  obtain ⟨h1, h2, h3⟩ := tally_fields h
  have hv : (setFanTarget (v.bump 2).ignitionSpeed (v.bump 2)).tally = (0, countUp 2 s.st.counters, s.fm) := by
    show (v.bs.attempts, countUp 2 v.st.counters, v.fm) = _
    rw [h1, h2, h3]
    rfl
  generalize setFanTarget (v.bump 2).ignitionSpeed (v.bump 2) = w at *
  split
  · exact (bsMove_tally .run .fault false w).trans hv
  · exact hv

theorem safeOn_of_safeBurner (h : SafeBurner s) : SafeOn s := ⟨h.1, h.2.1⟩

/-- Settles O20: the flame-on event establishes the flame, and what safe operation says of the state it leads to gives the rest. -/
theorem flameOnEstablishesTheBurn : Obligations.FlameOnEstablishesTheBurn := by
  unfold Obligations.FlameOnEstablishesTheBurn
  intro raw s hp hsafe hs hpre hf hr hi
  have hgas : s.bs.gas1 = true ∧ s.bs.gas2 = true := by
    obtain ⟨heq, hopen, -⟩ := hsafe.1
    have h1 := hopen.2 (.inr (.inr ⟨hs, hpre⟩))
    exact ⟨h1, heq ▸ h1⟩
  have heff : flameSampled raw s = establishFlame (sampled raw s) := by
    rw [flameSampled_on hf hr hi, flameOnEvent, if_pos (by simp [firing, sampled, hs, hgas])]
    exact if_pos hs
  have hexec : exec (.flameSample raw) s = .next (settle (establishFlame (sampled raw s))) := by
    rw [← heff]
    exact exec_on (c := .flameSample raw) nofun hp
  have hstate := establishFlame_state (sampled raw s)
  obtain ⟨hatt, hcnt, -⟩ : (establishFlame (sampled raw s)).bs.attempts = 0
      ∧ (establishFlame (sampled raw s)).st.counters = countUp 2 s.st.counters ∧ _ := by
    have := establishFlame_tally (sampled raw s)
    simp only [State.tally, Prod.mk.injEq] at this
    exact this
  have hon : (establishFlame (sampled raw s)).bs.state = .run ∨ (establishFlame (sampled raw s)).bs.state = .stabilise := by
    rw [hstate]
    split <;> simp
  obtain ⟨hbs, -, hcounters⟩ := settle_fields (s := establishFlame (sampled raw s)) (by rcases hon with h | h <;> simp [h])
  have hok := (exec_safe _ _ _ hsafe hexec).1
  rw [hbs] at hok
  obtain ⟨heq, hopen, hspark, -, -, -, -, htsafe, htspark, -⟩ := hok
  have hni : (establishFlame (sampled raw s)).bs.state ≠ .ignition := by rcases hon with h | h <;> simp [h]
  have hg1 : (establishFlame (sampled raw s)).bs.gas1 = true := hopen.2 (hon.symm.imp id .inl)
  refine ⟨_, hexec, ?_⟩
  rw [hbs, hcounters]
  exact ⟨hstate, hg1, heq ▸ hg1, by simpa [hni] using hspark, hatt, by simpa [onlyIn, hni] using htsafe,
    by simpa [onlyIn, hni] using htspark, hcnt⟩

/-- Settles O21: the flame-loss event closes the gas on the way to POST_PURGE, and at NREC FLAME_LOSS locks the burner out. -/
theorem flameLossClosesTheGas : Obligations.FlameLossClosesTheGas := by
  unfold Obligations.FlameLossClosesTheGas
  intro raw s hp hsafe hs hf hr hi hl
  have hexec : exec (.flameSample raw) s = .next (settle (flameLossEvent (sampled raw s))) := by
    rw [← flameSampled_loss hf hr hi]
    exact exec_on (c := .flameSample raw) nofun hp
  have hsafe' : SafeOn (settle (flameLossEvent (sampled raw s))) := safeOn_of_safeBurner (exec_safe _ _ _ hsafe hexec)
  let v := (sampled raw s).onBs fun b => { b with falseFlame := none, ffRaised := false }
  have hv : SafeOn v := (safeOn_of_drive (s := s) rfl).2 (safeOn_of_safeBurner hsafe)
  have hvs : v.bs.state = .stabilise ∨ v.bs.state = .run := hs
  have heff : flameLossEvent (sampled raw s) =
      if s.bs.recycles < sbNrec s.st.safety then
        toPostPurge .flameLossRecycle false true ((v.onBs fun b => { b with recycles := b.recycles + 1 }).bump 4)
      else fmRaise .flameLoss noDetail (toPostPurge .flameLoss false false v) := if_pos hvs
  rw [heff] at hexec hsafe'
  refine ⟨_, hexec, ?_⟩
  by_cases hrec : s.bs.recycles < sbNrec s.st.safety
  · rw [if_pos hrec] at hsafe' ⊢
    generalize hw : (v.onBs fun b => { b with recycles := b.recycles + 1 }).bump 4 = w at *
    have hstate := toPostPurge_state .flameLossRecycle false true w
    have hmemo := toPostPurge_memo .flameLossRecycle false true w
    have htally := tally_fields (toPostPurge_tally .flameLossRecycle false true w)
    generalize toPostPurge .flameLossRecycle false true w = x at *
    obtain ⟨hbs, -, hcnt⟩ := settle_fields (s := x) (by simp [hstate])
    obtain ⟨hg1, hg2, -⟩ := safe_gas_off hsafe' (.inl (by rw [hbs, hstate]))
    simp only [Bs.memo, Prod.mk.injEq] at hmemo
    refine ⟨hg1, hg2, fun _ => ⟨by rw [hbs, hstate], by rw [hbs]; exact hmemo.2.2.1, ?_, ?_⟩, fun h => absurd hrec (Nat.not_lt.2 h)⟩
    · rw [hbs, hmemo.2.1, ← hw]
      rfl
    · rw [hcnt, htally.2.1, ← hw]
      rfl
  · rw [if_neg hrec] at hsafe' ⊢
    have hpost : SafeOn (toPostPurge .flameLoss false false v) := by
      refine toPostPurge_safe _ _ _ _ (safe_none hv ?_)
      rcases hvs with h | h <;> simp [h]
    have hfm := (tally_fields (toPostPurge_tally .flameLoss false false v)).2.2
    obtain ⟨hlocked, hrecord, -⟩ := fmRaise_locksOut noDetail hpost
      (by rw [toPostPurge_state]; decide) (locksOut_of_active (by rw [hfm]; rfl) hl)
    obtain ⟨hbs, hfm', -⟩ := settle_fields (s := fmRaise .flameLoss noDetail (toPostPurge .flameLoss false false v))
      (by simp [hlocked.1])
    rw [LockedOut, LockoutRecord, hbs, hfm']
    exact ⟨hlocked.2.1, hlocked.2.2.1, fun h => absurd h hrec, fun _ => ⟨hlocked, hrecord⟩⟩

end Sys2Proof.Machine

/-! SUPPORT. A raising from any state (R111): the record it leaves, the blocking timer, and what it does to BS. -/

namespace Sys2Proof.Machine

variable {s u v : State}

/-! ### FM's part of a raising -/

theorem FmOnly.fields (h : FmOnly u v) : v.clock = u.clock ∧ v.lines = u.lines ∧ v.latch = u.latch ∧ v.mp = u.mp
    ∧ v.bs = u.bs ∧ v.dm = u.dm ∧ v.mu = u.mu ∧ v.zp = u.zp ∧ v.pe = u.pe ∧ v.mg = u.mg ∧ v.st.counters = u.st.counters
    ∧ v.st.safety = u.st.safety ∧ v.st.settings = u.st.settings ∧ v.st.faultCodes = u.st.faultCodes
    ∧ v.st.storeFault = u.st.storeFault := by
  obtain ⟨g, j, l, c, rfl⟩ := h
  exact ⟨rfl, rfl, rfl, rfl, rfl, rfl, rfl, rfl, rfl, rfl, rfl, rfl, rfl, rfl, rfl⟩

theorem histAppend_fmOnly (r : Record) (h : FmOnly u v) : FmOnly u (histAppend r v) := by
  simp only [histAppend, offerHistory]
  split
  · exact (h.onFm _).offer _
  · exact (h.onFm _).onFm _

theorem recorded_fmOnly (src : Source) (detail : Nat) (s : State) : FmOnly s (recorded src detail s) := by
  have h1 : FmOnly s (raiseEscalation src s) := by
    simp only [raiseEscalation]
    split
    · exact FmOnly.refl.onFm _
    · exact .refl
  have h2 : FmOnly s (raiseRecord src detail (raiseEscalation src s)) := by
    generalize raiseEscalation src s = v at *
    simp only [raiseRecord]
    split
    · split
      · exact histAppend_fmOnly _ (h1.onFm _)
      · exact h1.onFm _
    · exact h1.onFm _
  simp only [recorded]
  generalize raiseRecord src detail (raiseEscalation src s) = v at *
  simp only [raiseCondition, State.setCond]
  repeat' split
  all_goals first | exact h2.onFm _ | exact h2

/-- What stands of a source in the active list. -/
def Stands (s : State) (src : Source) (detail : Nat) : Prop := ∃ r, s.record src = some r ∧ r.detail = detail

theorem Stands.mem {detail : Nat} {src : Source} (h : Stands s src detail) :
    ∃ r ∈ s.fm.active, r.source = src ∧ r.detail = detail := by
  obtain ⟨r, hr, hd⟩ := h
  exact ⟨r, List.mem_of_find?_eq_some hr, by simpa using List.find?_some hr, hd⟩

/-- Step 2 of R111 leaves a record with the detail given, of the class that it has had, or of the source's. -/
theorem recorded_stands (src : Source) (detail : Nat) (s : State) :
    ∃ r, (recorded src detail s).record src = some r ∧ r.detail = detail
      ∧ (s.record src = none → r.cls = s.newClass src) ∧ ∀ q, s.record src = some q → r.cls = q.cls := by
  have ha := (raiseEscalation_fields src s).2
  have hrec : (raiseEscalation src s).record src = s.record src := by rw [State.record, State.record, ha]
  have hnew : (raiseEscalation src s).newClass src = s.newClass src := by
    simp only [raiseEscalation]
    split <;> rfl
  have hact : (recorded src detail s).record src = (raiseRecord src detail (raiseEscalation src s)).record src := by
    rw [State.record, State.record, recorded, (raiseCondition_fields src _).2]
  rw [hact, ← hrec, ← hnew]
  generalize raiseEscalation src s = v
  cases hr : v.record src with
  | none =>
    refine ⟨{ source := src, detail := detail, cls := v.newClass src, count := 1, first := v.time, last := v.time },
      ?_, rfl, fun _ => rfl, nofun⟩
    have hnone : v.fm.active.find? (fun r => r.source == src) = none := hr
    simp only [raiseRecord, hr]
    split <;> simp [State.record, histAppend_active, List.find?_append, hnone]
  | some r =>
    refine ⟨{ r with detail := detail, last := v.time, count := min 255 (r.count + 1) }, ?_, rfl, nofun,
      fun q hq => by cases hq; rfl⟩
    have hsome : v.fm.active.find? (fun r => r.source == src) = some r := hr
    have hsrc : r.source = src := by simpa using List.find?_some hsome
    have hkeep : ∀ q : Record, (if q.source = src then
        { q with detail := detail, last := v.time, count := min 255 (q.count + 1) } else q).source = q.source := by
      intro q; split <;> rfl
    simp only [raiseRecord, State.record, State.onFm_fm, List.find?_map, Function.comp_def, hkeep, hsome]
    simp [hsrc]

theorem setBlockTimer_same (f : Fm) {src : Source} (t : Timer) (h : src.blockTime.isSome = true) :
    (f.setBlockTimer src t).blockTimer src = t := by
  cases src <;> first | rfl | cases h

/-- Step 3 of R111 for an event source with a blocking time. -/
theorem recorded_blockTimer {src : Source} {b : Nat} (detail : Nat) (s : State) (he : src.event = true) (hb : src.blockTime = some b) :
    (recorded src detail s).fm.blockTimer src = some (s.time + b) := by
  have ht : (raiseRecord src detail (raiseEscalation src s)).time = s.time := by
    obtain ⟨-, hc, -⟩ := unlisted_fields ((raiseRecord_unlisted src detail _).trans (raiseEscalation_fields src s).1)
    rw [State.time, hc]
    rfl
  simp only [recorded, raiseCondition, he, hb, if_true, ht]
  exact setBlockTimer_same _ _ (by simp [hb])

/-- The lockout path: FM's and the store's part of it, and but for a reset pending the entry to LOCKOUT (R118). -/
theorem lockoutPath_eq (src : Source) (s : State) : ∃ y, FmOnly s y ∧ y.fm.active = s.fm.active
    ∧ (∀ x, y.fm.blockTimer x = s.fm.blockTimer x) ∧ y.fm.lockout.state = .active
    ∧ lockoutPath src s = if s.fm.lockout.state = .resetPending then y else lockoutEntry src y := by
  have hlock : ∀ x, (lockActive src s).fm.blockTimer x = s.fm.blockTimer x := fun x => by cases x <;> rfl
  have hq : ∀ (v : State) x, (queueLockoutPage v).fm.blockTimer x = v.fm.blockTimer x := fun v x => by
    rw [queueLockoutPage, offer_still]
    cases x <;> rfl
  have hact : ∀ v : State, (queueLockoutPage v).fm.active = v.fm.active ∧ (queueLockoutPage v).fm.lockout = v.fm.lockout := fun v => by
    rw [queueLockoutPage, offer_still]
    exact ⟨rfl, rfl⟩
  have hfm : FmOnly s (queueLockoutPage (lockActive src s)) := ((FmOnly.refl.onFm _).onFm _).offer 8
  cases h : s.fm.lockout.state with
  | none =>
    obtain ⟨-, hk, -⟩ := (queueLockoutPage (lockActive src s)).offerCounters_keeps
    refine ⟨(queueLockoutPage (lockActive src s)).offerCounters, hfm.offerCounters, ?_, fun x => ?_, ?_, ?_⟩
    · rw [hk, (hact _).1]
      rfl
    · rw [hk, hq, hlock]
    · rw [hk, (hact _).2]
      rfl
    · simp [lockoutPath, h]
  | active => exact ⟨s, .refl, rfl, fun _ => rfl, h, by simp [lockoutPath, h]⟩
  | resetPending =>
    refine ⟨_, hfm, (hact _).1, fun x => (hq _ x).trans (hlock x), ?_, by simp [lockoutPath, h]⟩
    rw [(hact _).2]
    rfl

/-- Steps 4 and 5 of R111: the record keeps its place and its detail; where its class is, or becomes, LOCKOUT the burner is locked out, but for a reset pending. -/
theorem raiseClass_eq {src : Source} {s : State} {r : Record} (hr : s.record src = some r) :
    ∃ y, FmOnly s y ∧ (∃ q, y.record src = some q ∧ q.detail = r.detail ∧ (q.cls = r.cls ∨ q.cls = .lockout))
      ∧ (∀ x, y.fm.blockTimer x = s.fm.blockTimer x)
      ∧ (raiseClass src s = y ∧ (r.cls ≠ .lockout ∧ y = s ∨ s.fm.lockout.state = .resetPending)
        ∨ raiseClass src s = lockoutEntry src y ∧ y.fm.lockout.state = .active ∧ s.fm.lockout.state ≠ .resetPending) := by
  by_cases hc : r.cls = .lockout
  · obtain ⟨y, h1, h2, h3, h4, h5⟩ := lockoutPath_eq src s
    have hrec : y.record src = some r := by rw [State.record, h2]; exact hr
    refine ⟨y, h1, ⟨r, hrec, rfl, .inl rfl⟩, h3, ?_⟩
    simp only [raiseClass, hr, hc, if_true, h5]
    split
    · exact .inl ⟨rfl, .inr ‹_›⟩
    · exact .inr ⟨rfl, h4, ‹_›⟩
  · by_cases he : s.escalates src = true
    · have hkeep : ∀ q : Record, (if q.source = src then { q with cls := .lockout } else q).source = q.source := by
        intro q; split <;> rfl
      have hsome : s.fm.active.find? (fun r => r.source == src) = some r := hr
      have hsrc : r.source = src := by simpa using List.find?_some hsome
      obtain ⟨y, h1, h2, h3, h4, h5⟩ := lockoutPath_eq src (histAppend { r with cls := .lockout } (escalateRecord src s))
      have hlock : (histAppend { r with cls := .lockout } (escalateRecord src s)).fm.lockout = s.fm.lockout := by
        obtain ⟨-, -, h⟩ := unlisted_fields (histAppend_unlisted { r with cls := .lockout } (escalateRecord src s))
        exact h
      have hrec : y.record src = some { r with cls := .lockout } := by
        rw [State.record, h2, histAppend_active]
        simp only [escalateRecord, State.onFm_fm, List.find?_map, Function.comp_def, hkeep, hsome]
        simp [hsrc]
      have htimer : ∀ x, (histAppend { r with cls := .lockout } (escalateRecord src s)).fm.blockTimer x = s.fm.blockTimer x := by
        intro x
        simp only [histAppend, offerHistory]
        split
        · rw [offer_still]
          cases x <;> rfl
        · cases x <;> rfl
      refine ⟨y, (histAppend_fmOnly _ (FmOnly.refl.onFm _)).trans h1, ⟨_, hrec, rfl, .inr rfl⟩,
        fun x => (h3 x).trans (htimer x), ?_⟩
      simp only [raiseClass, hr, hc, he, if_true, if_false, h5, hlock]
      split
      · exact .inl ⟨rfl, .inr ‹_›⟩
      · exact .inr ⟨rfl, h4, ‹_›⟩
    · refine ⟨s, .refl, ⟨r, hr, rfl, .inl rfl⟩, fun _ => rfl, .inl ⟨?_, .inl ⟨hc, rfl⟩⟩⟩
      simp only [raiseClass, hr, hc, he, if_false, Bool.false_eq_true]

/-! ### A raising as a whole -/

/-- A raising is FM's part, then the entry to LOCKOUT where the record is LOCKOUT and no reset pending, then BLOCKING and the lead code. -/
theorem fmRaise_cases (src : Source) (detail : Nat) (s : State) : ∃ y p, FmOnly s y
    ∧ (∃ q, y.record src = some q ∧ q.detail = detail
      ∧ (s.record src = none → q.cls = s.newClass src ∨ q.cls = .lockout)
      ∧ (∀ r, s.record src = some r → q.cls = r.cls ∨ q.cls = .lockout)
      ∧ (fmRaise src detail s = (fmSync y).onPe (fun _ => p) ∧ (q.cls ≠ .lockout ∨ s.fm.lockout.state = .resetPending)
        ∨ fmRaise src detail s = (fmSync (lockoutEntry src y)).onPe (fun _ => p) ∧ y.fm.lockout.state = .active))
    ∧ ∀ b, src.event = true → src.blockTime = some b → y.fm.blockTimer src = some (s.time + b) := by
  obtain ⟨p, hp⟩ := fmRaise_eq src detail s
  obtain ⟨r, hr, hd, hnew, hold⟩ := recorded_stands src detail s
  have hlock := (unlisted_fields (recorded_unlisted src detail s)).2.2
  obtain ⟨y, hy, ⟨q, hq, hqd, hqc⟩, htimer, hcase⟩ := raiseClass_eq hr
  refine ⟨y, p, (recorded_fmOnly src detail s).trans hy, ⟨q, hq, hqd.trans hd, fun h => ?_, fun x hx => ?_, ?_⟩,
    fun b he hb => by rw [htimer, recorded_blockTimer detail s he hb]⟩
  · exact hqc.imp (fun h' => h'.trans (hnew h)) id
  · exact hqc.imp (fun h' => h'.trans (hold x hx)) id
  · rcases hcase with ⟨e, h⟩ | ⟨e, h, -⟩
    · refine .inl ⟨by rw [hp, e], ?_⟩
      rcases h with ⟨h, rfl⟩ | h
      · rw [hr] at hq
        cases hq
        exact .inl h
      · exact .inr (by rwa [hlock] at h)
    · exact .inr ⟨by rw [hp, e], h⟩

theorem fmSync_fm (s : State) : (fmSync s).fm = s.fm := (still_fields (fmSync_still s)).2.2.2.2.1

theorem lockoutEntry_fm (src : Source) (s : State) : (lockoutEntry src s).fm = s.fm :=
  (still_fields (lockoutEntry_still src s)).2.2.2.2.1

/-- After a raising a record of the source stands with the detail (R110, R111). -/
theorem fmRaise_stands (src : Source) (detail : Nat) (s : State) : Stands (fmRaise src detail s) src detail := by
  obtain ⟨y, p, -, ⟨q, hq, hd, -, -, hcase⟩, -⟩ := fmRaise_cases src detail s
  refine ⟨q, ?_, hd⟩
  rcases hcase with ⟨e, -⟩ | ⟨e, -⟩
  · rw [e, State.record, State.onPe_fm, fmSync_fm]
    exact hq
  · rw [e, State.record, State.onPe_fm, fmSync_fm, lockoutEntry_fm]
    exact hq

/-- A raising of an event source with a blocking time leaves its blocking timer running (R106). -/
theorem fmRaise_blockTimer {src : Source} {b : Nat} (detail : Nat) (s : State) (he : src.event = true)
    (hb : src.blockTime = some b) : (fmRaise src detail s).fm.blockTimer src = some (s.time + b) := by
  obtain ⟨y, p, -, ⟨q, -, -, -, -, hcase⟩, htimer⟩ := fmRaise_cases src detail s
  rcases hcase with ⟨e, -⟩ | ⟨e, -⟩
  · rw [e, State.onPe_fm, fmSync_fm]
    exact htimer b he hb
  · rw [e, State.onPe_fm, fmSync_fm, lockoutEntry_fm]
    exact htimer b he hb

/-- A burner state that a fault stop leaves alone (R23). -/
def Resting (s : State) : Prop := s.bs.state = .standby ∨ s.bs.state = .postPurge ∨ s.bs.state = .lockout

theorem faultStop_resting (h : Resting s) : faultStop s = s := by
  rcases h with h | h | h <;> simp [faultStop, h]

theorem fmSync_resting (h : Resting s) : fmSync s = s.setBlocking s.hasBlocking := by
  have hstop : faultStop (s.setBlocking true) = s.setBlocking true := faultStop_resting h
  have hsame : s.setBlocking s.bs.inhibit.blocking = s := rfl
  cases hb : s.hasBlocking with
  | false => simp [fmSync, hb]
  | true =>
    cases hi : s.bs.inhibit.blocking with
    | false => simp [fmSync, hb, hi, hstop]
    | true => simpa [fmSync, hb, hi] using hsame.symm

/-- The entry to LOCKOUT leaves the fan at rest for a source of the fan, and the fan deviation timer at 0 (R47, R48). -/
theorem lockoutEntry_fan (src : Source) (s : State) : (lockoutEntry src s).bs.state = .lockout
    ∧ (src.fan = true → s.bs.fanTarget = 0 → (lockoutEntry src s).bs.fanTarget = 0)
    ∧ (s.bs.fanDev = 0 → (lockoutEntry src s).bs.fanDev = 0) := by
  by_cases h : s.bs.state = .lockout
  · simp only [lockoutEntry, h, if_true, true_and]
    exact ⟨fun _ => id, id⟩
  · have hdev : (bsMove .lockout .lockout false s).bs.core.fanDev = 0 := by
      simp only [bsMove, bsReport_core]
      rfl
    have hstate := bsMove_state .lockout .lockout false s
    simp only [lockoutEntry, h, if_false]
    generalize bsMove .lockout .lockout false s = v at *
    split
    · refine ⟨hstate, fun hf => ?_, fun _ => hdev⟩
      simp [hf] at *
    · exact ⟨hstate, fun _ _ => rfl, fun _ => hdev⟩

/-- A raising in a burner at rest whose record is not a mere warning: no start is due after it, the burner rests where it did, or is in LOCKOUT. -/
theorem fmRaise_holds {src : Source} (detail : Nat) (hs : SafeOn s) (hrest : Resting s) (hnew : s.newClass src ≠ .warning)
    (hold : ∀ r, s.record src = some r → r.cls ≠ .warning) :
    let t := fmRaise src detail s
    (t.bs.state = s.bs.state ∨ t.bs.state = .lockout) ∧ t.mayStart = false
      ∧ (src.fan = true → s.bs.fanTarget = 0 → t.bs.fanTarget = 0) ∧ (s.bs.fanDev = 0 → t.bs.fanDev = 0) := by
  intro t
  obtain ⟨y, p, hy, ⟨q, hq, -, hn, ho, hcase⟩, -⟩ := fmRaise_cases src detail s
  obtain ⟨-, -, -, -, hbs, -⟩ := hy.fields
  have hwarn : q.cls ≠ .warning := by
    cases hr : s.record src with
    | none => rcases hn hr with h | h <;> simp [h, hnew]
    | some r => rcases ho r hr with h | h <;> simp [h, hold r hr]
  rcases hcase with ⟨e, hc⟩ | ⟨e, hl⟩
  · have hyr : Resting y := by rwa [Resting, hbs]
    have ht : t.bs = { s.bs with inhibit := { s.bs.inhibit with blocking := y.hasBlocking } } := by
      show (fmRaise src detail s).bs = _
      rw [e, fmSync_resting hyr, ← hbs]
      rfl
    refine ⟨.inl (by rw [ht]), ?_, fun _ h => by rw [ht]; exact h, fun h => by rw [ht]; exact h⟩
    rcases hc with hc | hc
    · have hb : y.hasBlocking = true := by
        refine List.any_eq_true.2 ⟨q, List.mem_of_find?_eq_some hq, ?_⟩
        cases hqc : q.cls <;> simp_all
      simp [State.mayStart, State.inhibited, ht, hb]
    · have : s.bs.state = .lockout := hs.2.1 (by simp [hc])
      exact mayStart_of_state (by rw [ht]; simp [this])
  · obtain ⟨h1, h2, h3⟩ := lockoutEntry_fan src y
    have ht : t.bs = ((lockoutEntry src y).setBlocking (lockoutEntry src y).hasBlocking).bs := by
      show (fmRaise src detail s).bs = _
      rw [e, fmSync_resting (.inr (.inr h1))]
      rfl
    rw [hbs] at h2 h3
    have hlock : t.bs.state = .lockout := by rw [ht]; exact h1
    exact ⟨.inr hlock, mayStart_of_state (by simp [hlock]), fun hf h => by rw [ht]; exact h2 hf h,
      fun h => by rw [ht]; exact h3 h⟩

end Sys2Proof.Machine

/-! SUPPORT. The frame-counted timers, the fan, the false flame and the relays: O22, O23, O29. -/

namespace Sys2Proof.Machine

variable {s u v : State}

/-! ### A raising that locks out, from any state -/

/-- A raising in a burner at rest leaves it where it is, or in LOCKOUT. -/
theorem fmRaise_resting (src : Source) (detail : Nat) (hrest : Resting s) :
    (fmRaise src detail s).bs.state = s.bs.state ∨ (fmRaise src detail s).bs.state = .lockout := by
  obtain ⟨y, p, hy, ⟨q, -, -, -, -, hcase⟩, -⟩ := fmRaise_cases src detail s
  obtain ⟨-, -, -, -, hbs, -⟩ := hy.fields
  rcases hcase with ⟨e, -⟩ | ⟨e, -⟩
  · left
    rw [e, fmSync_resting (by rwa [Resting, hbs]), ← hbs]
    rfl
  · right
    have h := (lockoutEntry_fan src y).1
    rw [e, fmSync_resting (.inr (.inr h))]
    exact h

theorem lockoutEntry_memo (src : Source) (s : State) : (lockoutEntry src s).bs.memo
    = ({ s.bs with retry := if s.bs.state = .lockout then s.bs.retry else false } : Bs).memo := by
  simp only [lockoutEntry]
  split
  · rfl
  · have h := bsMove_memo .lockout .lockout false s
    generalize bsMove .lockout .lockout false s = v at *
    simp only [Bs.memo, Prod.mk.injEq] at h ⊢
    obtain ⟨h1, h2, -, h4, h5, h6, h7⟩ := h
    split <;> exact ⟨h1, h2, rfl, h4, h5, h6, h7⟩

/-- A raising in a burner at rest keeps BS's counts and marks, the retry mark apart. -/
theorem fmRaise_memo (src : Source) (detail : Nat) (hrest : Resting s) :
    let t := fmRaise src detail s
    t.bs.attempts = s.bs.attempts ∧ t.bs.recycles = s.bs.recycles ∧ t.bs.ffRaised = s.bs.ffRaised
      ∧ t.bs.limitMark = s.bs.limitMark ∧ t.bs.overheatMark = s.bs.overheatMark := by
  obtain ⟨y, p, hy, ⟨q, -, -, -, -, hcase⟩, -⟩ := fmRaise_cases src detail s
  obtain ⟨-, -, -, -, hbs, -⟩ := hy.fields
  intro t
  rcases hcase with ⟨e, -⟩ | ⟨e, -⟩
  · have ht : t.bs = { s.bs with inhibit := { s.bs.inhibit with blocking := y.hasBlocking } } := by
      show (fmRaise src detail s).bs = _
      rw [e, fmSync_resting (by rwa [Resting, hbs]), ← hbs]
      rfl
    rw [ht]
    exact ⟨rfl, rfl, rfl, rfl, rfl⟩
  · have hm := lockoutEntry_memo src y
    have h := (lockoutEntry_fan src y).1
    have ht : t.bs = ((lockoutEntry src y).setBlocking (lockoutEntry src y).hasBlocking).bs := by
      show (fmRaise src detail s).bs = _
      rw [e, fmSync_resting (.inr (.inr h))]
      rfl
    simp only [Bs.memo, Prod.mk.injEq, hbs] at hm
    obtain ⟨h1, h2, -, h4, h5, h6, -⟩ := hm
    rw [ht]
    exact ⟨h1, h2, h4, h5, h6⟩

/-- A raising that locks out does so from every state in which safe operation holds (R48, R118). -/
theorem fmRaise_lockedOut {src : Source} (detail : Nat) (hs : SafeOn s) (hl : LocksOut s src) :
    LockedOut (fmRaise src detail s) ∧ LockoutRecord (fmRaise src detail s) src detail := by
  have hsafe : SafeOn (fmRaise src detail s) := fmRaise_safe src detail s hs
  obtain ⟨y, p, hy, ⟨q, hq, hd, hn, ho, hcase⟩, -⟩ := fmRaise_cases src detail s
  obtain ⟨-, -, -, -, hbs, -⟩ := hy.fields
  have hc : q.cls = .lockout := by
    cases hr : s.record src with
    | none => exact (hn hr).elim (fun h => h.trans (by simp [State.newClass, hl.1])) id
    | some r => exact (ho r hr).elim (fun h => h.trans (hl.2 r hr)) id
  have hmem : q ∈ y.fm.active ∧ q.source = src := ⟨List.mem_of_find?_eq_some hq, by simpa using List.find?_some hq⟩
  rcases hcase with ⟨e, hr⟩ | ⟨e, -⟩
  · have hpend := hr.resolve_left (fun h => h hc)
    have hyl : y.bs.state = .lockout := by rw [hbs]; exact hs.2.1 (by simp [hpend])
    have hstate : (fmRaise src detail s).bs.state = .lockout := by
      rw [e, fmSync_resting (.inr (.inr hyl))]
      exact hyl
    refine ⟨lockedOut_of_safe hsafe (hsafe.2.2 hstate), q, ?_, hmem.2, hd, hc⟩
    rw [e, State.onPe_fm, fmSync_fm]
    exact hmem.1
  · have h := (lockoutEntry_fan src y).1
    have hstate : (fmRaise src detail s).bs.state = .lockout := by
      rw [e, fmSync_resting (.inr (.inr h))]
      exact h
    refine ⟨lockedOut_of_safe hsafe (hsafe.2.2 hstate), q, ?_, hmem.2, hd, hc⟩
    rw [e, State.onPe_fm, fmSync_fm, lockoutEntry_fm]
    exact hmem.1

/-- The end of an event that has locked the burner out, or left it outside STANDBY, keeps BS and FM. -/
theorem settle_lockedOut {src : Source} {detail : Nat} (h : LockedOut s ∧ LockoutRecord s src detail) :
    LockedOut (settle s) ∧ LockoutRecord (settle s) src detail := by
  obtain ⟨hbs, hfm, -⟩ := settle_fields (s := s) (by simp [h.1.1])
  rwa [LockedOut, LockoutRecord, hbs, hfm]

/-! ### Flow disagreement and circulation -/

/-- Settles O22. -/
theorem flowTimersRaiseTheirSources : Obligations.FlowTimersRaiseTheirSources := by
  unfold Obligations.FlowTimersRaiseTheirSources
  intro s hp hsafe
  refine ⟨fun h1 h2 hl => ?_, fun hn h1 h2 => ?_⟩
  · let v := (passFrames (Config.disagreeFrames - s.mp.disagree) s).onMp fun m => { m with disagree := Config.disagreeFrames }
    have heff : disagreeTimeout s = fmRaise .flowDisagree noDetail v := if_pos ⟨h1, h2⟩
    have hexec : exec .flowDisagreeTimeout s = .next (settle (fmRaise .flowDisagree noDetail v)) := by
      rw [← heff]
      exact exec_on (c := .flowDisagreeTimeout) nofun hp
    have hv : SafeOn v := (safeOn_of_drive (s := s) rfl).2 (safeOn_of_safeBurner hsafe)
    refine ⟨_, hexec, ?_, settle_lockedOut (fmRaise_lockedOut noDetail hv (locksOut_of_active rfl hl))⟩
    rw [(settle_blocks _).2.2.1, (outer_fields (fmRaise_outer .flowDisagree noDetail v)).2.2.2.2.2.1]
    rfl
  · let v := (passFrames (Config.circFrames - s.mp.circ) s).onMp fun m => { m with circ := 0 }
    have hon : v.bs.state = .stabilise ∨ v.bs.state = .run := by
      simp only [State.noCirculation, Bool.and_eq_true, Bool.or_eq_true, beq_iff_eq] at hn
      exact hn.1
    have hstop : faultStop v = toPostPurge .fault false false v := by
      rcases hon with h | h <;> simp [faultStop, h]
    have heff : circulationTimeout s = fmRaise .noCirculation noDetail (toPostPurge .fault false false v) := by
      rw [← hstop]
      exact if_pos ⟨hn, h1, h2⟩
    have hexec : exec .circulationTimeout s = .next (settle (fmRaise .noCirculation noDetail (toPostPurge .fault false false v))) := by
      rw [← heff]
      exact exec_on (c := .circulationTimeout) nofun hp
    have hsafe' := safeOn_of_safeBurner (exec_safe _ _ _ hsafe hexec)
    obtain ⟨-, -, -, -, -, hmp, -⟩ := outer_fields (toPostPurge_outer .fault false false v)
    obtain ⟨-, htime, -⟩ := tally_fields (toPostPurge_tally .fault false false v)
    have hstate := toPostPurge_state .fault false false v
    generalize toPostPurge .fault false false v = w at *
    have hrest := fmRaise_resting .noCirculation noDetail (.inr (.inl hstate) : Resting w)
    rw [hstate] at hrest
    obtain ⟨hbs, hfm, -⟩ := settle_fields (s := fmRaise .noCirculation noDetail w) (by rcases hrest with h | h <;> simp [h])
    obtain ⟨hg1, hg2, -⟩ := safe_gas_off hsafe' (by rwa [hbs])
    refine ⟨_, hexec, ?_, hg1, hg2, by rw [hfm]; exact (fmRaise_stands _ _ _).mem, ?_⟩
    · rw [(settle_blocks _).2.2.1, (outer_fields (fmRaise_outer .noCirculation noDetail w)).2.2.2.2.2.1, hmp]
      rfl
    · have hb := fmRaise_blockTimer (src := .noCirculation) (b := 120) noDetail w rfl rfl
      rw [hfm, show s.time = w.time by rw [State.time, State.time, htime]; rfl]
      exact hb

/-! ### The fan -/

theorem settle_held (h : s.mayStart = false) : (settle s).bs = s.bs ∧ (settle s).fm = s.fm := by
  have hend : AtEnd s (settle s) := settle_atEnd s h
  have hbs := congrArg State.bs hend
  have hfm := congrArg State.fm hend
  exact ⟨hbs, hfm⟩

/-- A safe burner at rest has the gas off. -/
theorem safe_gas_resting (h : SafeOn s) (hr : Resting s) : s.bs.gas1 = false ∧ s.bs.gas2 = false := by
  obtain ⟨⟨hgas, hopen, -⟩, -⟩ := h
  have hg : s.bs.gas1 = false := by rcases hr with hs | hs | hs <;> simpa [hs] using hopen
  exact ⟨hg, hgas ▸ hg⟩

/-- A fan source raised at rest, with a record that is not a mere warning, and the end of the event. -/
theorem fanRaised {src : Source} {b : Nat} (hs : SafeOn s) (hrest : Resting s) (hnew : s.newClass src ≠ .warning)
    (hold : ∀ r, s.record src = some r → r.cls ≠ .warning) (hf : src.fan = true) (he : src.event = true)
    (hb : src.blockTime = some b) :
    let t := settle (fmRaise src noDetail s)
    (t.bs.state = s.bs.state ∨ t.bs.state = .lockout) ∧ t.bs.gas1 = false ∧ t.bs.gas2 = false
      ∧ (s.bs.fanTarget = 0 → t.bs.fanTarget = 0) ∧ (s.bs.fanDev = 0 → t.bs.fanDev = 0)
      ∧ (∃ r ∈ t.fm.active, r.source = src) ∧ t.fm.blockTimer src = some (s.time + b) := by
  obtain ⟨hstate, hstart, htarget, hdev⟩ := fmRaise_holds noDetail hs hrest hnew hold
  obtain ⟨hbs, hfm⟩ := settle_held hstart
  have hrest' : Resting (fmRaise src noDetail s) := by
    rcases hstate with h | h
    · rwa [Resting, h]
    · exact .inr (.inr h)
  obtain ⟨hg1, hg2⟩ := safe_gas_resting (fmRaise_safe src noDetail s hs) hrest'
  obtain ⟨r, hr, hsrc, -⟩ := (fmRaise_stands src noDetail s).mem
  intro t
  rw [show t.bs = _ from hbs, show t.fm = _ from hfm]
  exact ⟨hstate, hg1, hg2, htarget hf, hdev, ⟨r, hr, hsrc⟩, fmRaise_blockTimer noDetail s he hb⟩

theorem toStandby_fields (c : Cause) (s : State) : (toStandby c s).st = s.st ∧ (toStandby c s).fm = s.fm := by
  obtain ⟨-, -, -, -, hf, -, -, -, hst, -⟩ := still_fields (toStandby_still c s)
  exact ⟨hst, hf⟩

theorem toPostPurge_fields (c : Cause) (o r : Bool) (s : State) :
    (toPostPurge c o r s).st = s.st ∧ (toPostPurge c o r s).fm = s.fm := by
  obtain ⟨-, -, -, -, hf, -, -, -, hst, -⟩ := still_fields (toPostPurge_still c o r s)
  exact ⟨hst, hf⟩

/-- What a raising reads, in a state with the same store and the same fault manager. -/
theorem raise_reads {src : Source} (h : u.st = s.st ∧ u.fm = s.fm) :
    u.newClass src = s.newClass src ∧ u.record src = s.record src ∧ u.time = s.time := by
  obtain ⟨hst, hfm⟩ := h
  simp only [State.newClass, State.record, State.time, hst, hfm, and_self]

/-- Settles O23. -/
theorem fanFaultsEndTheAttempt : Obligations.FanFaultsEndTheAttempt := by
  unfold Obligations.FanFaultsEndTheAttempt
  intro s d hp hsafe
  have hon := safeOn_of_safeBurner hsafe
  refine ⟨fun hd hfan hnew hold => ?_, fun hd hnew hold => ?_, fun hs h0 h1 hnew hold => ?_⟩
  · let v := (s.reach d).onBs fun b => { b with tPchk := none }
    have hexec : exec .tpchkExpiry s = .next (settle (fmRaise .fanNotStopped noDetail (toStandby .fault v))) := by
      rw [exec_expire (c := .tpchkExpiry) nofun rfl rfl hp hd]
      exact congrArg (fun w => Host.Outcome.next (settle w)) (if_pos hfan)
    have hpre : s.bs.state = .preCheck := by
      obtain ⟨-, -, -, h, -⟩ := hon.1
      exact h (by simp [hd])
    have hnl : s.fm.lockout.state = .none := safe_none hon (by simp [hpre])
    obtain ⟨e1, e2, e3⟩ := raise_reads (src := .fanNotStopped) (toStandby_fields .fault v)
    obtain ⟨h1, h2, h3, h4, -, h5, h6⟩ := fanRaised (src := .fanNotStopped) (b := 60)
      (toStandby_safe .fault v hnl) (.inl (toStandby_state _ _)) (by rwa [e1]) (by rwa [e2]) rfl rfl rfl
    rw [toStandby_state] at h1
    obtain ⟨-, -, -, htimer, -⟩ := (exec_safe _ _ _ hsafe hexec).1
    refine ⟨_, hexec, h1, ?_, h2, h3, h4 rfl, h5, h6.trans (by rw [e3]; rfl)⟩
    rcases h1 with h | h <;> simpa [onlyIn, h] using htimer
  · let v := s.reach d
    have hexec : exec .prePurgeLimitExpiry s = .next (settle (purgeLimitExpired v)) :=
      exec_expire (c := .prePurgeLimitExpiry) nofun rfl rfl hp hd
    rw [purgeLimitExpired] at hexec
    have hpre : s.bs.state = .prePurge := by
      obtain ⟨-, -, -, -, h, -⟩ := hon.1
      exact h (by simp [hd])
    have hnl : s.fm.lockout.state = .none := safe_none hon (by simp [hpre])
    obtain ⟨e1, e2, e3⟩ := raise_reads (src := .fanNoSpeed) (toStandby_fields .fault v)
    obtain ⟨h1, h2, h3, h4, -, h5, h6⟩ := fanRaised (src := .fanNoSpeed) (b := 60)
      (toStandby_safe .fault v hnl) (.inl (toStandby_state _ _)) (by rwa [e1]) (by rwa [e2]) rfl rfl rfl
    rw [toStandby_state] at h1
    obtain ⟨-, -, -, -, htimer, hpurge, -⟩ := (exec_safe _ _ _ hsafe hexec).1
    refine ⟨_, hexec, h1, ?_, ?_, h2, h3, h4 rfl, h5, h6.trans (by rw [e3]; rfl)⟩
    · rcases h1 with h | h <;> simpa [onlyIn, h] using htimer
    · rcases h1 with h | h <;> simpa [onlyIn, h] using hpurge
  · let v := passFrames (Config.fanDevFrames - s.bs.fanDev) s
    have hnl : s.fm.lockout.state = .none := safe_none hon (by rcases hs with h | h <;> simp [h])
    let w := if 100 ≤ s.mp.pub.fanSpeed then toPostPurge .fanDeviation false false v else toStandby .fanDeviation v
    let x := w.onBs fun b => { b with fanDev := 0 }
    have hexec : exec .fanDeviationTimeout s = .next (settle (fmRaise .fanDeviation noDetail x)) := by
      rw [exec_on (c := .fanDeviationTimeout) nofun hp]
      exact congrArg (fun w => Host.Outcome.next (settle w)) (if_pos ⟨hs, h0, h1⟩)
    have hwf : w.st = v.st ∧ w.fm = v.fm := by
      simp only [w]
      split
      · exact toPostPurge_fields _ _ _ _
      · exact toStandby_fields _ _
    have hws : SafeOn w ∧ (w.bs.state = if 100 ≤ s.mp.pub.fanSpeed then .postPurge else .standby) := by
      simp only [w]
      split
      · exact ⟨toPostPurge_safe _ _ _ _ hnl, toPostPurge_state _ _ _ _⟩
      · exact ⟨toStandby_safe _ _ hnl, toStandby_state _ _⟩
    have htarget : ¬ 100 ≤ s.mp.pub.fanSpeed → x.bs.fanTarget = 0 := fun h => by
      simp only [x, w, h, if_false]
      rfl
    have hxs : SafeOn x := (safeOn_of_drive (s := w) rfl).2 hws.1
    obtain ⟨e1, e2, e3⟩ := raise_reads (u := x) (src := .fanDeviation) hwf
    have hstate : x.bs.state = if 100 ≤ s.mp.pub.fanSpeed then .postPurge else .standby := hws.2
    have hrest : Resting x := by
      rw [Resting, hstate]
      split <;> simp
    obtain ⟨h1, h2, h3, h4, h5, h6, h7⟩ := fanRaised (src := .fanDeviation) (b := 60) hxs hrest (by rwa [e1]) (by rwa [e2]) rfl rfl rfl
    rw [hstate] at h1
    refine ⟨_, hexec, h2, h3, h5 rfl, fun hf => ?_, fun hf => ⟨?_, h4 (htarget (Nat.not_le.2 hf))⟩, h6, h7.trans (by rw [e3]; rfl)⟩
    · rwa [if_pos hf] at h1
    · rwa [if_neg (Nat.not_le.2 hf)] at h1

end Sys2Proof.Machine

/-! SUPPORT. The timed phases of a burn: O25, O27, O28. -/

namespace Sys2Proof.Machine

variable {s u v : State}

theorem settle_quiet (h : s.mayStart = false) : (settle s).mu = s.mu
    ∧ (settle s).dm = { s.dm with idle := (settle s).dm.idle } := by
  have hend : AtEnd s (settle s) := settle_atEnd s h
  have hmu := congrArg State.mu hend
  have hdm := congrArg State.dm hend
  refine ⟨hmu, ?_⟩
  have hidle := congrArg Dm.idle hdm
  rw [hidle]
  exact hdm

/-! ### Purge and pre-spark wait -/

theorem toIgnition_fields (s : State) : (toIgnition s).bs.state = .ignition ∧ (toIgnition s).bs.spark = true
    ∧ (toIgnition s).bs.gas1 = false ∧ (toIgnition s).bs.gas2 = false ∧ (toIgnition s).bs.fanTarget = s.ignitionSpeed
    ∧ (toIgnition s).bs.purge = none ∧ (toIgnition s).bs.purgeLimit = none
    ∧ (toIgnition s).bs.tPrespk = some (s.clock.now + sbPrespk s.st.safety * Config.tenth) := by
  have hd := bsMove_drive .ignition .fault false s
  obtain ⟨hclock, -, -, -, -, -, -, -, hst, -⟩ := still_fields (bsMove_still .ignition .fault false s)
  simp only [toIgnition]
  generalize bsMove .ignition .fault false s = w at *
  simp only [State.drive, Prod.mk.injEq] at hd
  have hp := hd.1
  simp only [Bs.phase, Bs.mk.injEq, reduceCtorEq, or_self, if_false] at hp
  obtain ⟨h1, h2, h3, -, -, h6, h7, -⟩ := hp
  refine ⟨h1, rfl, h2, h3, ?_, h7, h6, ?_⟩
  · show w.ignitionSpeed = _
    rw [State.ignitionSpeed, State.ignitionSpeed, hst]
  · show (setFanTarget w.ignitionSpeed w).deadline _ = _
    simp only [State.deadline]
    show some (w.clock.now + sbPrespk w.st.safety * _) = _
    rw [hclock, hst]

/-- BS apart from its mismatch timers and marks. -/
def Bs.unsynced (b : Bs) : Bs := { b with mismatch1 := none, mismatch2 := none, mark1 := false, mark2 := false }

theorem mismatchSync_unsynced (r : Relay) (s : State) :
    (mismatchSync r s).bs.unsynced = s.bs.unsynced ∧ (mismatchSync r s).dm = s.dm ∧ (mismatchSync r s).mu = s.mu := by
  simp only [mismatchSync]
  repeat' split
  all_goals cases r <;> exact ⟨rfl, rfl, rfl⟩

theorem relaySync_unsynced (s : State) :
    (relaySync s).bs.unsynced = s.bs.unsynced ∧ (relaySync s).dm = s.dm ∧ (relaySync s).mu = s.mu := by
  obtain ⟨h1, h2, h3⟩ := mismatchSync_unsynced .gas1 s
  obtain ⟨h4, h5, h6⟩ := mismatchSync_unsynced .gas2 (mismatchSync .gas1 s)
  exact ⟨h4.trans h1, h5.trans h2, h6.trans h3⟩

/-- The gas opened in IGNITION (R31). -/
theorem openGas_fields (h : s.bs.state = .ignition) :
    (openGas s).bs.unsynced = ({ s.bs with
        gas1 := true, gas2 := true, tPrespk := none, falseFlame := none
        tSafe := s.deadline (sbSafe s.st.safety * Config.tenth), tSpark := s.deadline (sbSpark s.st.safety * Config.tenth) } : Bs).unsynced
      ∧ (openGas s).dm.burn = (if s.dm.circuit = .none then s.dm.burn else s.dm.circuit)
      ∧ (openGas s).mu = s.mu := by
  obtain ⟨hb, hdm, hmu⟩ := relaySync_unsynced (s.onBs fun b =>
    { b with
      gas1 := true, gas2 := true, tPrespk := none, falseFlame := none
      tSafe := s.deadline (sbSafe s.st.safety * Config.tenth)
      tSpark := s.deadline (sbSpark s.st.safety * Config.tenth) })
  simp only [openGas]
  generalize relaySync _ = w at *
  have hu := hb
  simp only [Bs.unsynced, Bs.mk.injEq] at hu
  obtain ⟨h1, h2, h3, -⟩ := hu
  have hfire : firing w.bs = true := by simp [firing, h1, h2, h3, h]
  have hrep : bsReport false .fault false w = dmFiring w := by
    simp only [bsReport, hfire, if_true, Bool.false_and, Bool.false_eq_true, if_false]
    have : (dmFiring w).bs.state = .ignition := by
      rw [drive_state (dmFiring_drive w), h1]
      exact h
    rw [this]
  have hdm' : w.dm = s.dm := hdm
  rw [hrep, dmFiring, hdm']
  split
  · exact ⟨hb, by rw [hdm'], hmu⟩
  · exact ⟨hb, congrArg Dm.circuit hdm', hmu⟩

/-- Settles O25. -/
theorem purgeLeadsToIgnitionAndTheGasOpens : Obligations.PurgeLeadsToIgnitionAndTheGasOpens := by
  unfold Obligations.PurgeLeadsToIgnitionAndTheGasOpens
  intro s d hp
  refine ⟨fun p hs hpur => ?_, fun hsafe hd hf => ?_, fun hsafe hd hf hl => ?_⟩
  · let v := passFrames (p.length - p.done) s
    have hexec : exec .purgeComplete s = .next (settle (toIgnition v)) := by
      rw [exec_on (c := .purgeComplete) nofun hp]
      refine congrArg (fun w => Host.Outcome.next (settle w)) ?_
      show purgeTimeout s = _
      simp only [purgeTimeout, hpur, hs, if_true]
      rfl
    obtain ⟨h1, h2, h3, h4, h5, h6, h7, h8⟩ := toIgnition_fields v
    have hclock := (still_fields (toIgnition_still v)).1
    obtain ⟨hbs, -⟩ := settle_fields (s := toIgnition v) (by simp [h1])
    have hc : (settle (toIgnition v)).clock = v.clock := (settle_blocks _).2.2.2.1.trans hclock
    refine ⟨_, hexec, ?_⟩
    rw [hbs, hc]
    exact ⟨h1, h2, h3, h4, h5, h6, h7, rfl, h8⟩
  · let v := (s.reach d).onBs fun b => { b with tPrespk := none }
    have hs : s.bs.state = .ignition := by
      obtain ⟨-, -, -, -, -, -, h, -⟩ := hsafe.1
      exact h (by simp [hd])
    have hexec : exec .tprespkExpiry s = .next (settle (openGas v)) := by
      rw [exec_expire (c := .tprespkExpiry) nofun rfl rfl hp hd]
      exact congrArg (fun w => Host.Outcome.next (settle w)) (if_neg (by simp [hf]))
    obtain ⟨hb, hdm, hmu⟩ := openGas_fields (s := v) hs
    obtain ⟨-, -, -, hmp, hfm, -⟩ := still_fields (openGas_still v)
    generalize openGas v = w at *
    simp only [Bs.unsynced, Bs.mk.injEq] at hb
    obtain ⟨h1, h2, h3, h4, -, -, -, h8, h9, h10, -, -, -, h14, -, -, -, h18, -⟩ := hb
    have hstart : w.mayStart = false := mayStart_of_state (by rw [h1]; simp [v, hs])
    obtain ⟨hbs, hfm'⟩ := settle_held hstart
    obtain ⟨hmu', hdm'⟩ := settle_quiet hstart
    refine ⟨_, hexec, ?_⟩
    rw [hbs, hfm', hmu', hdm', (settle_blocks w).2.2.1, h1, h2, h3, h4, h8, h9, h10, h14, h18, hfm, hmu, hmp]
    exact ⟨hs, rfl, rfl, rfl, rfl, rfl, rfl, rfl, rfl, hdm, rfl, rfl, rfl⟩
  · let v := (s.reach d).onBs fun b => { b with tPrespk := none }
    let x := v.onBs fun b => { b with ffRaised := true, falseFlame := none }
    have hon := safeOn_of_safeBurner hsafe
    have hs : s.bs.state = .ignition := by
      obtain ⟨-, -, -, -, -, -, h, -⟩ := hsafe.1
      exact h (by simp [hd])
    have hg : s.bs.gas1 = false := by
      obtain ⟨-, hopen, -⟩ := hsafe.1
      simpa [hs, hd] using hopen
    have hnl : s.fm.lockout.state = .none := safe_none hon (by simp [hs])
    have hstop : faultStop x = toStandby .fault x := by
      simp [faultStop, x, v, hs, firing, hg]
    have hexec : exec .tprespkExpiry s = .next (settle (fmRaise .falseFlame noDetail (toStandby .fault x))) := by
      rw [exec_expire (c := .tprespkExpiry) nofun rfl rfl hp hd, ← hstop]
      exact congrArg (fun w => Host.Outcome.next (settle w)) (if_pos hf)
    have hfm := (toStandby_fields .fault x).2
    have hff : (toStandby .fault x).bs.ffRaised = true := by
      have := toStandby_memo .fault x
      simp only [Bs.memo, Prod.mk.injEq] at this
      exact this.2.2.2.1
    obtain ⟨hlocked, hrec⟩ := fmRaise_lockedOut noDetail (toStandby_safe .fault x hnl)
      (locksOut_of_active (t := toStandby .fault x) (congrArg Fm.active hfm) hl)
    obtain ⟨h1, h2⟩ := settle_lockedOut ⟨hlocked, hrec⟩
    refine ⟨_, hexec, h1, h2, ?_⟩
    have hrest : Resting (toStandby .fault x) := .inl (toStandby_state _ _)
    obtain ⟨-, -, hkeep, -⟩ := fmRaise_memo .falseFlame noDetail hrest
    rw [(settle_fields (by rw [hlocked.1]; decide)).1, hkeep, hff]

/-! ### The entry to RUN -/

/-- RUN entered from a firing state: DM takes the circuit for the burn, and MU makes its RUN entry (R35, R50). -/
theorem toRun_firing (h : firing s.bs = true) : ∃ y, toRun s = muRunEntry y ∧ y.mu = s.mu ∧ y.mp = s.mp ∧ y.latch = s.latch
    ∧ y.dm.circuit = s.dm.circuit ∧ y.bs.state = .run := by
  let w := s.onBs fun b => { stopPhase b with state := .run, fanDev := b.fanDev }
  have hw : firing w.bs = true := by simp [firing, w]
  have hrun : toRun s = muRunEntry (dmFiring w) := by
    have hst : (dmFiring w).bs.state = .run := drive_state (dmFiring_drive w)
    show bsReport (firing s.bs) .fault false w = _
    simp only [bsReport, hw, h, Bool.not_true, Bool.and_false, Bool.false_eq_true, if_false, if_true, hst]
  refine ⟨dmFiring w, hrun, ?_⟩
  simp only [dmFiring]
  split <;> exact ⟨rfl, rfl, rfl, rfl, rfl⟩

/-- The entry output is MU's applied output, its fan map value the fan target (R93, R102). -/
theorem entryOutput_fields (n : Nat) (s : State) : (entryOutput n s).mu.uPrev = n ∧ (entryOutput n s).mu.uOut = n
    ∧ (entryOutput n s).mu.fanOut = fanMap s.fanMapPoints n ∧ (entryOutput n s).bs.fanTarget = fanMap s.fanMapPoints n
    ∧ (entryOutput n s).mu.cyc = s.mu.cyc ∧ (entryOutput n s).mu.iAcc = s.mu.iAcc := ⟨rfl, rfl, rfl, rfl, rfl, rfl⟩

theorem muPreset_cyc (n : Nat) (s : State) : (muPreset n s).mu.cyc = s.mu.cyc ∧ (muPreset n s).latch = s.latch := by
  simp only [muPreset]
  split <;> exact ⟨rfl, rfl⟩

theorem muPreset_formed {n : Nat} {flow ts : Int} (hf : s.mp.pub.flowCtl = some flow) (ht : s.mu.ts = some ts) :
    (muPreset n s).mu.iAcc = (clamp 0 100000
      (((n : Int) - Int.tdiv (setKp s.latch.settings * clamp (-500) 500 (ts - flow)) 10) * 100)).toNat := by
  have he : s.errorOf = some (clamp (-500) 500 (ts - flow)) := by simp [State.errorOf, Value.minus, hf, ht]
  simp only [muPreset, he]
  rfl

/-- MU's RUN entry: an entry output is delivered, and by the cycling record it is the ordinary one or m_min (R93, R97). -/
theorem muRunEntry_fields (s : State) : let t := muRunEntry s
    t.mu.fanOut = fanMap s.fanMapPoints t.mu.uPrev ∧ t.bs.fanTarget = t.mu.fanOut ∧ t.mu.uOut = t.mu.uPrev
      ∧ (s.mu.cyc.state = .inactive → t.mu.cyc = s.mu.cyc ∧ t.mu.uPrev = min s.pIgn (s.mu.ceiling.getD s.pIgn)
        ∧ t.mu.iAcc = if s.dm.circuit = .ch then (muPreset s.pIgn s).mu.iAcc else s.mu.iAcc)
      ∧ (s.mu.cyc.state = .offPhase → t.mu.iAcc = s.mu.iAcc
        ∧ (0 < s.mu.cyc.pendOff → t.mu.uPrev = s.mMin
            ∧ t.mu.cyc = { s.mu.cyc with
                state := .onPhase, onLen := s.mu.cyc.pendOn, offLen := s.mu.cyc.pendOff, remain := 1000 * s.mu.cyc.pendOn })
        ∧ (s.mu.cyc.pendOff = 0 → t.mu.cyc = { s.mu.cyc with state := .inactive }
            ∧ t.mu.uPrev = min s.pIgn (s.mu.ceiling.getD s.pIgn))) := by
  intro t
  cases hc : s.mu.cyc.state with
  | offPhase =>
    by_cases hp : 0 < s.mu.cyc.pendOff
    · have ht : t = entryOutput s.mMin (onPhaseStart s) := by simp only [t, muRunEntry, hc, hp, if_true]
      rw [ht]
      exact ⟨rfl, rfl, rfl, nofun, fun _ => ⟨rfl, fun _ => ⟨rfl, rfl⟩, fun h => absurd hp (by omega)⟩⟩
    · have ht : t = entryOutput (min s.pIgn (s.mu.ceiling.getD s.pIgn)) (cycleInactive s) := by
        simp only [t, muRunEntry, hc, hp, if_false]
      rw [ht]
      exact ⟨rfl, rfl, rfl, nofun, fun _ => ⟨rfl, fun h => absurd h hp, fun _ => ⟨rfl, rfl⟩⟩⟩
  | inactive =>
    by_cases hch : s.dm.circuit = .ch
    · obtain ⟨h1, h2⟩ := muPreset_cyc s.pIgn s
      have ht : t = entryOutput (min s.pIgn (s.mu.ceiling.getD s.pIgn)) (muPreset s.pIgn s) := by
        simp only [t, muRunEntry, hc, hch, if_true]
      have hmap : (muPreset s.pIgn s).fanMapPoints = s.fanMapPoints := by simp only [State.fanMapPoints, h2]
      rw [ht, ← hmap]
      exact ⟨rfl, rfl, rfl, fun _ => ⟨h1, rfl, by rw [if_pos hch]; rfl⟩, nofun⟩
    · have ht : t = entryOutput (min s.pIgn (s.mu.ceiling.getD s.pIgn)) s := by
        simp only [t, muRunEntry, hc, hch, if_false]
      rw [ht]
      exact ⟨rfl, rfl, rfl, fun _ => ⟨rfl, rfl, by rw [if_neg hch]; rfl⟩, nofun⟩
  | onPhase =>
    have ht : t = entryOutput (min s.pIgn (s.mu.ceiling.getD s.pIgn)) s := by simp only [t, muRunEntry, hc]
    rw [ht]
    exact ⟨rfl, rfl, rfl, nofun, nofun⟩

/-- Settles O27. -/
theorem stabiliseEndsInRun : Obligations.StabiliseEndsInRun := by
  unfold Obligations.StabiliseEndsInRun
  intro s d hp hsafe hd
  let v := (s.reach d).onBs fun b => { b with tStab := none }
  have hs : s.bs.state = .stabilise := by
    obtain ⟨-, -, -, -, -, -, -, -, -, -, -, h, -⟩ := hsafe.1
    exact h (by simp [hd])
  have hexec : exec .tstabExpiry s = .next (settle (toRun v)) := by
    rw [exec_expire (c := .tstabExpiry) nofun rfl rfl hp hd]
    exact congrArg (fun w => Host.Outcome.next (settle w)) rfl
  have hstate : (toRun v).bs.state = .run := bsMove_state _ _ _ _
  have hstart : (toRun v).mayStart = false := mayStart_of_state (by simp [hstate])
  obtain ⟨hbs, hfm⟩ := settle_held hstart
  obtain ⟨hmu, -⟩ := settle_quiet hstart
  obtain ⟨-, -, -, hmp, hfm', -⟩ := still_fields (toRun_still v)
  have hok := (exec_safe _ _ _ hsafe hexec).1
  rw [hbs] at hok
  obtain ⟨heq, hopen, hspark, -, -, -, -, -, -, -, -, -, -, -⟩ := hok
  have hg1 : (toRun v).bs.gas1 = true := hopen.2 (.inr (.inl hstate))
  have hstab : (toRun v).bs.tStab = none := congrArg (fun x => x.1.tStab) (bsMove_drive .run .fault false v)
  obtain ⟨y, hy, y1, y2, y3, y4, -⟩ := toRun_firing (s := v) (by simp [firing, v, hs])
  obtain ⟨h1, h2, h3, h4, h5⟩ := muRunEntry_fields y
  have hmap : y.fanMapPoints = s.fanMapPoints := by simp only [State.fanMapPoints, y3]; rfl
  have hpign : y.pIgn = s.pIgn := by simp only [State.pIgn, y3]; rfl
  have hmmin : y.mMin = s.mMin := by simp only [State.mMin, y3]; rfl
  have hceil : ∀ c, s.mu.ceiling = some c → min s.pIgn (s.mu.ceiling.getD s.pIgn) = min s.pIgn c := fun c hc => by rw [hc]; rfl
  refine ⟨_, hexec, ?_⟩
  rw [hbs, hfm, hmu, (settle_blocks _).2.2.1, hfm', hmp]
  refine ⟨hstate, hg1, heq ▸ hg1, by simpa [hstate] using hspark, hstab, ?_⟩
  rw [hy, ← hmap]
  rw [hpign, y1] at h4
  rw [hmmin, hpign, y1] at h5
  refine ⟨h1, h2, h3, fun hc => ?_, fun hc => ?_, rfl, rfl⟩
  · obtain ⟨e1, e2, e3⟩ := h4 hc
    refine ⟨e1, fun c hcl => e2.trans (hceil c hcl), fun hch => ?_, fun flow ts hch hflow hts => ?_⟩
    · rw [e3, y4]
      exact if_neg hch
    · have hpre := muPreset_formed (n := s.pIgn) (s := y) (flow := flow) (ts := ts) (by rw [y2]; exact hflow) (by rw [y1]; exact hts)
      rw [e3, y4, if_pos (show v.dm.circuit = .ch from hch), hpre, y3]
      rfl
  · obtain ⟨e1, e2, e3⟩ := h5 hc
    refine ⟨e1, e2, fun hp0 => ?_⟩
    obtain ⟨e4, e5⟩ := e3 hp0
    exact ⟨e4, fun c hcl => e5.trans (hceil c hcl)⟩

/-! ### The end of POST_PURGE -/

/-- What DM holds of the request, with the ANTI_CYCLE reason. -/
def State.asked (s : State) : Bool × Circuit × Bool := (s.dm.active, s.dm.circuit, s.bs.inhibit.antiCycle)

theorem safeOff_asked (s : State) : (safeOff s).asked = s.asked := by
  have h : ∀ v : State, (relaySync v).asked = v.asked := fun v => by
    obtain ⟨h1, h2, -⟩ := relaySync_unsynced v
    simp only [Bs.unsynced, Bs.mk.injEq] at h1
    simp only [State.asked, h1, h2]
  simp only [safeOff, h]
  split <;> rfl

/-- A move for a cause other than a withdrawal, and not to LOCKOUT, leaves the request and the ANTI_CYCLE reason as they are (R73, R104). -/
theorem bsMove_asked {st : BurnerState} {c : Cause} (o : Bool) (s : State) (hc : c ≠ .withdrawal) (hst : st ≠ .lockout) :
    (bsMove st c o s).asked = s.asked := by
  have hrep : ∀ (w : Bool) (v : State), v.bs.state ≠ .lockout → (bsReport w c o v).asked = v.asked := by
    intro w v hv
    have hdep : ∀ x : State, (dmDeparture c o x).asked = x.asked := fun x => by
      simp only [dmDeparture, hc, false_and, if_false]
      split <;> rfl
    have hfire : ∀ x : State, (dmFiring x).asked = x.asked := fun x => by
      simp only [dmFiring]
      split <;> rfl
    have hpre : ∀ n (x : State), (muPreset n x).asked = x.asked := fun n x => by
      simp only [muPreset]
      split <;> rfl
    have hrun : ∀ x : State, (muRunEntry x).asked = x.asked := fun x => by
      simp only [muRunEntry]
      repeat' split
      · rfl
      · rfl
      · exact hpre _ _
      · rfl
      · rfl
    have hret : ∀ x : State, (muReturn x).asked = x.asked := fun x => by
      simp only [muReturn]
      split <;> rfl
    have h1 : ∀ x : State, (if w && !firing x.bs then dmDeparture c o x else x).asked = x.asked
        ∧ (if w && !firing x.bs then dmDeparture c o x else x).bs.state = x.bs.state := fun x => by
      split
      · exact ⟨hdep x, drive_state (dmDeparture_drive c o x)⟩
      · exact ⟨rfl, rfl⟩
    have h2 : ∀ x : State, (if firing x.bs then dmFiring x else x).asked = x.asked
        ∧ (if firing x.bs then dmFiring x else x).bs.state = x.bs.state := fun x => by
      split
      · exact ⟨hfire x, drive_state (dmFiring_drive x)⟩
      · exact ⟨rfl, rfl⟩
    simp only [bsReport]
    have e := h1 v
    generalize (if w && !firing v.bs then dmDeparture c o v else v) = x at *
    have e' := h2 x
    generalize (if firing x.bs then dmFiring x else x) = y at *
    rw [← e.1, ← e'.1]
    split
    · rfl
    · exact hrun y
    · exact hret y
    · exact hret y
    · rename_i hl
      rw [e'.2, e.2] at hl
      exact absurd hl hv
    · rfl
    · rfl
    · rfl
  simp only [bsMove]
  refine (hrep _ _ hst).trans ?_
  split
  · rfl
  · exact safeOff_asked s

theorem toStandby_asked {c : Cause} (s : State) (hc : c ≠ .withdrawal) : (toStandby c s).asked = s.asked :=
  bsMove_asked false s hc nofun

/-- The reasons of the start-inhibit set apply as before, after a move that keeps the request, BS's marks and the ANTI_CYCLE reason. -/
theorem mayStart_kept (ha : u.asked = s.asked) (hm : u.bs.memo = s.bs.memo) : u.inhibited = s.inhibited := by
  simp only [State.asked, Prod.mk.injEq] at ha
  simp only [Bs.memo, Prod.mk.injEq, Inhibit.mk.injEq] at hm
  obtain ⟨-, -, hr, -, -, -, h1, h2, h3, -⟩ := hm
  simp only [State.inhibited, ha, hr, h1, h2, h3]

/-- PRE_CHECK entered with both relays open (R26). -/
theorem toPreCheck_fields (h : RelaysOpen s) : (toPreCheck s).bs.state = .preCheck ∧ (toPreCheck s).bs.retry = false
    ∧ (toPreCheck s).bs.tPchk = some (s.clock.now + Config.tPchk) ∧ (toPreCheck s).bs.fanTarget = 0
    ∧ (toPreCheck s).bs.gas1 = false ∧ (toPreCheck s).bs.gas2 = false ∧ (toPreCheck s).bs.tPost = none
    ∧ (toPreCheck s).bs.attempts = s.bs.attempts ∧ (toPreCheck s).bs.recycles = s.bs.recycles
    ∧ (toPreCheck s).dm.active = s.dm.active ∧ (toPreCheck s).dm.circuit = s.dm.circuit
    ∧ (toPreCheck s).bs.inhibit = s.bs.inhibit := by
  have hd := bsMove_drive .preCheck .fault false s
  have hm := bsMove_memo .preCheck .fault false s
  have ha := bsMove_asked (st := .preCheck) (c := .fault) false s nofun nofun
  rw [toPreCheck_open h]
  generalize bsMove .preCheck .fault false s = v at *
  simp only [State.drive, Prod.mk.injEq] at hd
  have hp := hd.1
  simp only [Bs.phase, Bs.mk.injEq, reduceCtorEq, or_self, if_false] at hp
  obtain ⟨h1, h2, h3, -, -, -, -, -, -, -, -, h12, -⟩ := hp
  simp only [Bs.memo, Prod.mk.injEq, Inhibit.mk.injEq] at hm
  obtain ⟨m1, m2, -, -, -, -, i1, i2, i3, -⟩ := hm
  simp only [State.asked, Prod.mk.injEq] at ha
  refine ⟨h1, rfl, rfl, rfl, h2, h3, h12, m1, m2, ha.1, ha.2.1, ?_⟩
  show v.bs.inhibit = _
  cases hv : v.bs.inhibit
  cases hs : s.bs.inhibit
  simp_all

/-- Settles O28. -/
theorem postPurgeEndsInPreCheckOrStandby : Obligations.PostPurgeEndsInPreCheckOrStandby := by
  unfold Obligations.PostPurgeEndsInPreCheckOrStandby
  intro s d hp hd hopen
  have hexec : exec .tpostExpiry s = .next (settle (tpostExpired (s.reach d))) :=
    exec_expire (c := .tpostExpiry) nofun rfl rfl hp hd
  have hopen' : RelaysOpen (s.reach d) := hopen
  have hinh : (s.reach d).inhibited = s.inhibited := rfl
  by_cases hgo : s.dm.active = true ∧ s.inhibited = false
  · have heff : tpostExpired (s.reach d) = toPreCheck (s.reach d) := if_pos (by simpa [hinh] using hgo)
    rw [heff] at hexec
    obtain ⟨h1, h2, h3, h4, h5, h6, h7, -⟩ := toPreCheck_fields hopen'
    obtain ⟨hbs, -⟩ := settle_fields (s := toPreCheck (s.reach d)) (by simp [h1])
    refine ⟨_, hexec, ?_⟩
    rw [hbs]
    refine ⟨h5, h6, h4, h7, fun _ _ _ => ⟨h1, h2, h3⟩, fun h => ?_⟩
    rcases h with h | h
    · exact absurd (h.symm.trans hgo.1) nofun
    · exact absurd (h.symm.trans hgo.2) nofun
  · have heff : tpostExpired (s.reach d) = toStandby .fault (s.reach d) := if_neg (by simpa [hinh] using hgo)
    rw [heff] at hexec
    have hm := toStandby_memo .fault (s.reach d)
    have ha := toStandby_asked (c := .fault) (s.reach d) nofun
    have hd := toStandby_drive .fault (s.reach d)
    have hinh' := mayStart_kept ha hm
    have htarget : (toStandby .fault (s.reach d)).bs.fanTarget = 0 := rfl
    generalize toStandby .fault (s.reach d) = v at *
    have hstart : v.mayStart = false := by
      simp only [State.asked, Prod.mk.injEq] at ha
      simp only [State.mayStart, hinh', ha.1]
      show (v.bs.state == .standby && s.dm.active && !s.inhibited) = false
      cases h1 : s.dm.active <;> cases h2 : s.inhibited <;> simp_all
    obtain ⟨hbs, -⟩ := settle_held hstart
    simp only [State.drive, Prod.mk.injEq] at hd
    have hph := hd.1
    simp only [Bs.phase, Bs.mk.injEq] at hph
    obtain ⟨h1, h2, h3, -, -, -, -, -, -, -, -, h12, -⟩ := hph
    simp only [Bs.memo, Prod.mk.injEq] at hm
    refine ⟨_, hexec, ?_⟩
    rw [hbs]
    exact ⟨h2, h3, htarget, h12, fun h1 h2 => absurd ⟨h1, h2⟩ hgo, fun _ _ => ⟨h1, hm.2.2.1⟩⟩

end Sys2Proof.Machine

/-! SUPPORT. The false flame and the relays: O29. -/

namespace Sys2Proof.Machine

variable {s u v : State}

/-! ### The marks of the relays -/

theorem mismatchSync_mark (r x : Relay) (h : v.lines.readback r = true) (hc : v.bs.command r = false) :
    (mismatchSync x v).bs.mark r = v.bs.mark r ∧ (mismatchSync x v).bs.command r = false
      ∧ (mismatchSync x v).lines = v.lines := by
  simp only [mismatchSync]
  split
  · rename_i he
    by_cases hx : x = r
    · subst hx
      rw [h, hc] at he
      cases he
    · cases r <;> cases x <;> first | exact absurd rfl hx | exact ⟨rfl, hc, rfl⟩
  · split
    · exact ⟨rfl, hc, rfl⟩
    · rename_i hm
      simp only [Bool.or_eq_true, not_or, Bool.not_eq_true] at hm
      cases r <;> cases x <;> first | exact ⟨rfl, hc, rfl⟩ | exact ⟨hm.1.symm, hc, rfl⟩

/-- With the gas commanded off, the mark of a relay that reads energised stands (R43). -/
theorem safeOff_mark (r : Relay) (h : s.lines.readback r = true) : (safeOff s).bs.mark r = s.bs.mark r := by
  have hsync : ∀ w : State, w.lines = s.lines → w.bs.command r = false → (relaySync w).bs.mark r = w.bs.mark r := by
    intro w hl hc
    have hw : w.lines.readback r = true := by rw [hl, h]
    obtain ⟨h1, h2, h3⟩ := mismatchSync_mark r .gas1 hw hc
    obtain ⟨h4, -⟩ := mismatchSync_mark (v := mismatchSync .gas1 w) r .gas2 (by rwa [h3]) h2
    exact h4.trans h1
  let off : Bs → Bs := fun b => { b with gas1 := false, gas2 := false, spark := false }
  by_cases hf : firing s.bs = true
  · have e : safeOff s = relaySync ((s.onBs fun b =>
        { b with postGas := s.deadline Config.tFfpost, falseFlame := none }).onBs off) := by
      rw [safeOff, if_pos hf]
    rw [e]
    refine (hsync _ ?_ ?_).trans ?_ <;> cases r <;> rfl
  · have e : safeOff s = relaySync (s.onBs off) := by rw [safeOff, if_neg hf]
    rw [e]
    refine (hsync _ ?_ ?_).trans ?_ <;> cases r <;> rfl

theorem mark_of_core {a b : Bs} (h : a.core = b.core) (r : Relay) : a.mark r = b.mark r := by
  simp only [Bs.core, Bs.mk.injEq] at h
  cases r <;> simp [Bs.mark, h]

theorem bsMove_mark (st : BurnerState) (c : Cause) (o : Bool) (r : Relay) (h : s.lines.readback r = true) :
    (bsMove st c o s).bs.mark r = s.bs.mark r := by
  simp only [bsMove]
  refine (mark_of_core (bsReport_core _ _ _ _) r).trans ?_
  split
  · cases r <;> rfl
  · refine Eq.trans ?_ (safeOff_mark r h)
    cases r <;> rfl

theorem toStandby_mark (c : Cause) (r : Relay) (h : s.lines.readback r = true) : (toStandby c s).bs.mark r = s.bs.mark r := by
  refine Eq.trans ?_ (bsMove_mark .standby c false r h)
  rw [toStandby]
  generalize bsMove .standby c false s = w
  cases r <;> rfl

theorem toPostPurge_mark (c : Cause) (o p : Bool) (r : Relay) (h : s.lines.readback r = true) :
    (toPostPurge c o p s).bs.mark r = s.bs.mark r := by
  refine Eq.trans ?_ (bsMove_mark .postPurge c o r h)
  rw [toPostPurge]
  generalize bsMove .postPurge c o s = w
  cases r <;> rfl

theorem faultStop_mark (r : Relay) (h : s.lines.readback r = true) : (faultStop s).bs.mark r = s.bs.mark r := by
  have hpost := toPostPurge_mark .fault false false r h
  have hstand := toStandby_mark .fault r h
  rw [faultStop]
  cases s.bs.state
  case stabilise | run => exact hpost
  case preCheck | prePurge => exact hstand
  case standby | postPurge | lockout => rfl
  case ignition =>
    dsimp only
    split
    · exact hpost
    · exact hstand

theorem lockoutEntry_mark (src : Source) (r : Relay) (h : s.lines.readback r = true) :
    (lockoutEntry src s).bs.mark r = s.bs.mark r := by
  have hm := bsMove_mark .lockout .lockout false r h
  simp only [lockoutEntry]
  split
  · rfl
  · generalize bsMove .lockout .lockout false s = w at *
    rw [← hm]
    split <;> cases r <;> rfl

theorem fmSync_mark (r : Relay) (h : s.lines.readback r = true) : (fmSync s).bs.mark r = s.bs.mark r := by
  simp only [fmSync]
  split
  · split
    · rfl
    · refine (faultStop_mark (s := s.setBlocking true) r h).trans ?_
      cases r <;> rfl
  · cases r <;> rfl

theorem fmRaise_mark (src : Source) (detail : Nat) (r : Relay) (h : s.lines.readback r = true) :
    (fmRaise src detail s).bs.mark r = s.bs.mark r := by
  obtain ⟨y, p, hy, ⟨q, -, -, -, -, hcase⟩, -⟩ := fmRaise_cases src detail s
  obtain ⟨-, hlines, -, -, hbs, -⟩ := hy.fields
  have hy : y.lines.readback r = true := by rwa [hlines]
  rcases hcase with ⟨e, -⟩ | ⟨e, -⟩
  · rw [e, ← hbs]
    exact fmSync_mark r hy
  · have hl := (still_fields (lockoutEntry_still src y)).2.1
    rw [e, ← hbs]
    exact (fmSync_mark (s := lockoutEntry src y) r (by rwa [hl])).trans (lockoutEntry_mark src r hy)

/-! ### A fault stop -/

theorem faultStop_rests (s : State) : Resting (faultStop s) := by
  simp only [faultStop]
  cases hs : s.bs.state
  case ignition =>
    dsimp only
    split
    · exact .inr (.inl (toPostPurge_state _ _ _ _))
    · exact .inl (toStandby_state _ _)
  case stabilise | run => exact .inr (.inl (toPostPurge_state _ _ _ _))
  case preCheck | prePurge => exact .inl (toStandby_state _ _)
  case standby => exact .inl hs
  case postPurge => exact .inr (.inl hs)
  case lockout => exact .inr (.inr hs)

theorem faultStop_fields (s : State) : (faultStop s).st = s.st ∧ (faultStop s).fm = s.fm ∧ (faultStop s).lines = s.lines := by
  obtain ⟨-, hl, -, -, hf, -, -, -, hst, -⟩ := still_fields (faultStop_still s)
  exact ⟨hst, hf, hl⟩

/-- A fault stop keeps BS's counts and marks, the retry mark apart. -/
theorem faultStop_memo (s : State) : (faultStop s).bs.attempts = s.bs.attempts ∧ (faultStop s).bs.recycles = s.bs.recycles
    ∧ (faultStop s).bs.ffRaised = s.bs.ffRaised ∧ (faultStop s).bs.limitMark = s.bs.limitMark
    ∧ (faultStop s).bs.overheatMark = s.bs.overheatMark := by
  have hpost := toPostPurge_memo .fault false false s
  have hstand := toStandby_memo .fault s
  simp only [Bs.memo, Prod.mk.injEq] at hpost hstand
  obtain ⟨a1, a2, -, a4, a5, a6, -⟩ := hpost
  obtain ⟨b1, b2, -, b4, b5, b6, -⟩ := hstand
  simp only [faultStop]
  repeat' split
  all_goals first
    | exact ⟨a1, a2, a4, a5, a6⟩
    | exact ⟨b1, b2, b4, b5, b6⟩
    | exact ⟨rfl, rfl, rfl, rfl, rfl⟩

/-- A fault found by BS that locks out: the fault stop, the raising and the end of the event. -/
theorem stopAndRaise_lockedOut {src : Source} (detail : Nat) (hs : SafeOn s) (hl : LocksOut s src) :
    let t := settle (fmRaise src detail (faultStop s))
    (LockedOut t ∧ LockoutRecord t src detail) ∧ t.bs.ffRaised = s.bs.ffRaised := by
  have hlock := fmRaise_lockedOut detail (faultStop_safe s hs) (locksOut_of_active (congrArg Fm.active (faultStop_fields s).2.1) hl)
  refine ⟨settle_lockedOut hlock, ?_⟩
  obtain ⟨-, -, h, -⟩ := fmRaise_memo src detail (faultStop_rests s)
  rw [(settle_fields (by rw [hlock.1.1]; decide)).1, h, (faultStop_memo s).2.2.1]

/-! ### The relays at the entry to PRE_CHECK -/

theorem fmRaise_locks {src : Source} (detail : Nat) (hl : LocksOut s src) : LocksOut (fmRaise src detail s) src := by
  obtain ⟨y, p, -, ⟨q, hq, -, hn, ho, hcase⟩, -⟩ := fmRaise_cases src detail s
  have hc : q.cls = .lockout := by
    cases hr : s.record src with
    | none => exact (hn hr).elim (fun h => h.trans (by simp [State.newClass, hl.1])) id
    | some r => exact (ho r hr).elim (fun h => h.trans (hl.2 r hr)) id
  have hrec : (fmRaise src detail s).record src = some q := by
    rcases hcase with ⟨e, -⟩ | ⟨e, -⟩
    · rw [e, State.record, State.onPe_fm, fmSync_fm]
      exact hq
    · rw [e, State.record, State.onPe_fm, fmSync_fm, lockoutEntry_fm]
      exact hq
  refine ⟨hl.1, fun r hr => ?_⟩
  rw [hrec] at hr
  cases hr
  exact hc

/-- A relay's mismatch found in a safe burner locks it out, with the relay's mark set where it reads energised (R43). -/
theorem mismatchFound_fields (r : Relay) (hs : SafeOn s) (hl : LocksOut s .gasRelay) :
    (LockedOut (mismatchFound r s) ∧ LockoutRecord (mismatchFound r s) .gasRelay (relayDetail r))
      ∧ SafeOn (mismatchFound r s) ∧ LocksOut (mismatchFound r s) .gasRelay
      ∧ (mismatchFound r s).lines = s.lines
      ∧ (s.lines.readback r = true → (mismatchFound r s).bs.mark r = true)
      ∧ ∀ x, x ≠ r → s.lines.readback x = true → (mismatchFound r s).bs.mark x = s.bs.mark x := by
  let v := setMismatch r none true s
  have hv : SafeOn v := (safeOn_of_drive (setMismatch_drive r none true s)).2 hs
  have hvfm : v.fm = s.fm := by cases r <;> rfl
  have hvl : v.lines = s.lines := by cases r <;> rfl
  obtain ⟨-, hf, hlines⟩ := faultStop_fields v
  have hl' : LocksOut (faultStop v) .gasRelay := locksOut_of_active (by rw [hf, hvfm]) hl
  have hmark : ∀ x, s.lines.readback x = true → (mismatchFound r s).bs.mark x = v.bs.mark x := fun x hx => by
    refine (fmRaise_mark _ _ x (by rwa [hlines, hvl])).trans (faultStop_mark x ?_)
    rwa [hvl]
  refine ⟨fmRaise_lockedOut _ (faultStop_safe v hv) hl', fmRaise_safe _ _ _ (faultStop_safe v hv), fmRaise_locks _ hl', ?_,
    fun hx => (hmark r hx).trans (by cases r <;> rfl), fun x hne hx => (hmark x hx).trans ?_⟩
  · show (fmRaise _ _ (faultStop v)).lines = _
    rw [(outer_fields (fmRaise_outer _ _ _)).2.2.2.1, hlines, hvl]
  · cases r <;> cases x <;> first | exact absurd rfl hne | rfl

/-- The relays looked at in PRE_CHECK: a relay that reads energised with its mark clear locks the burner out, GAS1 before GAS2 (R43). -/
theorem relayCheck_found {one two : Bool} (hstate : s.bs.state = .preCheck) (hs : SafeOn s) (hl : LocksOut s .gasRelay)
    (h1 : one = (s.lines.relay1Fb && !s.bs.mark1)) (h2 : two = (s.lines.relay2Fb && !s.bs.mark2))
    (h : one = true ∨ two = true) :
    (LockedOut (relayCheck s) ∧ LockoutRecord (relayCheck s) .gasRelay (if two then 1 else 0))
      ∧ (one = true → (relayCheck s).bs.mark1 = true) ∧ (two = true → (relayCheck s).bs.mark2 = true) := by
  have hcheck : relayCheck s = preCheckRelay s (preCheckRelay s s .gas1) .gas2 := if_pos hstate
  have e1 : preCheckRelay s s .gas1 = if one = true then mismatchFound .gas1 s else s := by rw [h1]; rfl
  have e2 : ∀ w, preCheckRelay s w .gas2 = if two = true then mismatchFound .gas2 w else w := fun w => by rw [h2]; rfl
  have hr1 : one = true → s.lines.readback .gas1 = true := fun h => by
    rw [h1, Bool.and_eq_true] at h
    exact h.1
  have hr2 : two = true → s.lines.readback .gas2 = true := fun h => by
    rw [h2, Bool.and_eq_true] at h
    exact h.1
  rw [hcheck, e1, e2]
  obtain ⟨a1, a2, a3, a4, a5, -⟩ := mismatchFound_fields .gas1 hs hl
  cases one with
  | false =>
    have htwo : two = true := h.resolve_left nofun
    obtain ⟨b1, -, -, -, b5, -⟩ := mismatchFound_fields .gas2 hs hl
    simp only [htwo, if_true, Bool.false_eq_true, if_false]
    exact ⟨b1, nofun, fun _ => b5 (hr2 htwo)⟩
  | true =>
    cases two with
    | false =>
      simp only [if_true, Bool.false_eq_true, if_false]
      exact ⟨a1, fun _ => a5 (hr1 rfl), nofun⟩
    | true =>
      obtain ⟨b1, -, -, -, b5, b6⟩ := mismatchFound_fields .gas2 a2 a3
      simp only [if_true]
      refine ⟨b1, fun _ => ?_, fun _ => b5 (by rw [a4]; exact hr2 rfl)⟩
      exact (b6 .gas1 nofun (by rw [a4]; exact hr1 rfl)).trans (a5 (hr1 rfl))

/-- PRE_CHECK entered with a relay that reads energised and is not marked: the burner locks out in the same event (R39, R43). -/
theorem toPreCheck_found {one two : Bool} (hn : s.fm.lockout.state = .none) (hl : LocksOut s .gasRelay)
    (h1 : one = (s.lines.relay1Fb && !s.bs.mark1)) (h2 : two = (s.lines.relay2Fb && !s.bs.mark2))
    (h : one = true ∨ two = true) :
    (LockedOut (toPreCheck s) ∧ LockoutRecord (toPreCheck s) .gasRelay (if two then 1 else 0))
      ∧ (one = true → (toPreCheck s).bs.mark1 = true) ∧ (two = true → (toPreCheck s).bs.mark2 = true) := by
  have hd := bsMove_drive .preCheck .fault false s
  obtain ⟨-, hlines, -, -, hfm, -⟩ := still_fields (bsMove_still .preCheck .fault false s)
  have hm := bsMove_mark (s := s) .preCheck .fault false
  simp only [reduceCtorEq, or_self, if_false] at hd
  have hstate := bsMove_state .preCheck .fault false s
  rw [toPreCheck]
  generalize bsMove .preCheck .fault false s = v at *
  generalize State.deadline _ Config.tPchk = tp
  let w := (setFanTarget 0 v).onBs fun b => { b with retry := false, tPchk := tp }
  have hw : SafeOn w := by
    have e : w.drive = ({ state := .preCheck, tPchk := tp }, .none) := by
      have hset : w.drive = ({ v.drive.1 with tPchk := tp }, v.drive.2) := rfl
      rw [hset, hd, hn]
    rw [State.drive, Prod.mk.injEq] at e
    refine ⟨?_, ?_⟩
    · rw [← burnerOk_phase, e.1]
      simp [BurnerOk, onlyIn]
    · rw [e.2]
      simp [w, setFanTarget, State.onBs, hstate]
  have hmark : ∀ r b, b = (s.lines.readback r && !s.bs.mark r) → b = (w.lines.readback r && !w.bs.mark r) := by
    intro r b hb
    have hl : w.lines = s.lines := hlines
    have hv : w.bs.mark r = v.bs.mark r := by cases r <;> rfl
    rw [hb, hl, hv]
    cases hr : s.lines.readback r
    · rfl
    · rw [hm r hr]
  exact relayCheck_found (s := w) hstate hw (locksOut_of_active (by exact congrArg Fm.active hfm) hl)
    (hmark .gas1 one h1) (hmark .gas2 two h2) h

/-! ### A readback that changes -/

theorem mismatchSync_agrees (r : Relay) (h : s.lines.readback r = s.bs.command r) :
    mismatchSync r s = setMismatch r none false s := if_pos h

theorem mismatchSync_begins (r : Relay) (h : s.lines.readback r ≠ s.bs.command r) (hm : s.bs.mark r = false)
    (ht : s.bs.mismatch r = none) : mismatchSync r s = setMismatch r (s.deadline Config.tMismatch) false s := by
  rw [mismatchSync, if_neg h, hm, ht]
  rfl

theorem mismatchSync_stands (r : Relay) (h : s.lines.readback r ≠ s.bs.command r)
    (hm : s.bs.mark r = true ∨ s.bs.mismatch r ≠ none) : mismatchSync r s = s := by
  rw [mismatchSync, if_neg h, if_pos]
  rwa [Bool.or_eq_true, Option.isSome_iff_ne_none]

theorem mismatchSync_mayStart (r : Relay) : (mismatchSync r s).mayStart = s.mayStart := by
  rw [mismatchSync]
  split
  · cases r <;> rfl
  · split
    · rfl
    · cases r <;> rfl

theorem exec_readback (r : Relay) (level : Bool) (dt : Nat) (hp : s.power = .on) (hm : s.mayStart = false) :
    ∃ t, exec (.relayReadbackChange r level dt) s = .next t
      ∧ ∀ {u}, mismatchSync r (arrive (.relayReadbackChange r level dt) s) = u → AtEnd u t := by
  refine ⟨_, exec_on (c := .relayReadbackChange r level dt) nofun hp, ?_⟩
  rintro _ rfl
  refine settle_atEnd _ ((mismatchSync_mayStart r).trans ?_)
  cases r <;> exact hm

/-- Settles O29. -/
theorem falseFlameAndRelaysAreSupervised : Obligations.FalseFlameAndRelaysAreSupervised := by
  unfold Obligations.FalseFlameAndRelaysAreSupervised
  refine ⟨fun s d hp hsafe => ?_, fun s level dt hp hm => ⟨?_, ?_⟩⟩
  · have hon : SafeOn s := safeOn_of_safeBurner hsafe
    refine ⟨fun hd hl => ?_, fun hd hf hl => ?_, fun hd hf hm => ?_, fun r hd hl => ?_,
      fun hd hstate ha hi hl one two h1 h2 h => ?_⟩
    · have hend := stopAndRaise_lockedOut (s := (s.reach d).onBs fun b => { b with ffRaised := true, falseFlame := none })
        noDetail ((safeOn_of_drive rfl).2 hon) hl
      exact ⟨_, exec_expire (c := .tffExpiry) nofun rfl rfl hp hd, hend.1.1, hend.1.2, hend.2⟩
    · let v := (s.reach d).onBs fun b => { b with postGas := none }
      have hend := stopAndRaise_lockedOut (s := v.onBs fun b => { b with ffRaised := true, falseFlame := none })
        noDetail ((safeOn_of_drive rfl).2 hon) hl
      have heff : tffpostExpired (s.reach d) = falseFlameFound v := if_pos hf
      refine ⟨_, exec_expire (c := .tffpostExpiry) nofun rfl rfl hp hd, ?_⟩
      rw [heff]
      exact ⟨hend.1.1, hend.1.2, hend.2⟩
    · refine exec_atEnd (c := .tffpostExpiry) nofun hp ?_ hm
      refine (State.expire_some hd _).trans ?_
      exact if_neg (Bool.eq_false_iff.1 hf)
    · have hfound := (mismatchFound_fields (s := s.reach d) r ((safeOn_of_drive rfl).2 hon) hl).1
      refine ⟨_, exec_expire (c := .mismatchTimerExpiry r) nofun rfl rfl hp hd, ?_⟩
      have hend := settle_lockedOut hfound
      cases r <;> exact hend
    · have hnone : (s.reach d).fm.lockout.state = .none :=
        safe_none hon (show s.bs.state ≠ .lockout by rw [hstate]; decide)
      obtain ⟨hlock, hm1, hm2⟩ := toPreCheck_found (s := s.reach d) hnone hl h1 h2 h
      have heff : tpostExpired (s.reach d) = toPreCheck (s.reach d) := if_pos (by
        have hinh : (s.reach d).inhibited = s.inhibited := rfl
        have hact : (s.reach d).dm.active = s.dm.active := rfl
        rw [hinh, hact, ha, hi]
        rfl)
      refine ⟨_, exec_expire (c := .tpostExpiry) nofun rfl rfl hp hd, ?_⟩
      rw [heff]
      have hbs := (settle_fields (s := toPreCheck (s.reach d)) (by rw [hlock.1.1]; decide)).1
      obtain ⟨hlocked, hrec⟩ := settle_lockedOut hlock
      exact ⟨hlocked, hrec, fun h => (congrArg Bs.mark1 hbs).trans (hm1 h), fun h => (congrArg Bs.mark2 hbs).trans (hm2 h)⟩
  · obtain ⟨t, ht, hend⟩ := exec_readback .gas1 level dt hp hm
    exact ⟨t, ht, fun h => hend (mismatchSync_agrees .gas1 h), fun h h1 h2 => hend (mismatchSync_begins (s := arrive (.relayReadbackChange .gas1 level dt) s) .gas1 h h1 h2),
      fun h hmm => hend (mismatchSync_stands .gas1 h hmm)⟩
  · obtain ⟨t, ht, hend⟩ := exec_readback .gas2 level dt hp hm
    exact ⟨t, ht, fun h => hend (mismatchSync_agrees .gas2 h), fun h h1 h2 => hend (mismatchSync_begins (s := arrive (.relayReadbackChange .gas2 level dt) s) .gas2 h h1 h2),
      fun h hmm => hend (mismatchSync_stands .gas2 h hmm)⟩

end Sys2Proof.Machine

/-! SUPPORT. What a raising writes: the active list, the escalation list, the history ring and the lockout record (R111, R114, R115, R118, R127): O39. -/

namespace Sys2Proof.Machine

variable {s u v : State}

/-! ### An element of a list changed -/

theorem getD_updateAt_same {α : Type} {l : List α} {k : Nat} (f : α → α) (d : α) (h : k < l.length) :
    (updateAt l k f).getD k d = f (l.getD k d) := by
  induction l generalizing k with
  | nil => cases h
  | cons x r ih =>
    cases k with
    | zero => rfl
    | succ k => exact ih (Nat.lt_of_succ_lt_succ h)

theorem getD_updateAt_ne {α : Type} (l : List α) {k j : Nat} (f : α → α) (d : α) (h : j ≠ k) :
    (updateAt l k f).getD j d = l.getD j d := by
  induction l generalizing k j with
  | nil => rfl
  | cons x r ih =>
    cases k with
    | zero =>
      cases j with
      | zero => exact absurd rfl h
      | succ j => rfl
    | succ k =>
      cases j with
      | zero => rfl
      | succ j => exact ih fun e => h (congrArg _ e)

/-! ### The history ring -/

/-- The entry that a record makes (R127). -/
def State.histEntry (s : State) (r : Record) : Hist :=
  { seq := s.fm.nextSeq, source := r.source, code := s.codeOf r.source, cls := r.cls, detail := r.detail
    hours := s.time / 3600, count := r.count }

/-- The ring with its next slot and sequence number. -/
def Fm.log (f : Fm) : List (Option Hist) × Nat × Nat := (f.ring, f.nextSlot, f.nextSeq)

/-- FM apart from the ring and the re-offer marks of its pages. -/
def Fm.unlogged (f : Fm) : Fm := { f with ring := [], nextSlot := 0, nextSeq := 0, rePages := [] }

/-- The page of a part of the ring is queued or being written, or is marked for a new offer (R125). -/
def HistDue (j : Nat) (s : State) : Prop := JobStands s (27 + j) ∨ s.fm.rePages.getD j false = true

theorem offerHistory_fm (page : Nat) (s : State) :
    (offerHistory page s).fm = { s.fm with rePages := (offerHistory page s).fm.rePages } := by
  simp only [offerHistory]
  split
  · rw [offer_still]
  · rfl

theorem histAppend_log (r : Record) (s : State) : (histAppend r s).fm.log
    = (updateAt s.fm.ring s.fm.nextSlot (fun _ => some (s.histEntry r)), (s.fm.nextSlot + 1) % 32, (s.fm.nextSeq + 1) % 65536) := by
  rw [histAppend, offerHistory_fm]
  rfl

theorem histAppend_unlogged (r : Record) (s : State) : (histAppend r s).fm.unlogged = s.fm.unlogged := by
  rw [histAppend, offerHistory_fm]
  rfl

theorem offerHistory_due {j : Nat} (h : j < s.fm.rePages.length) : HistDue j (offerHistory (27 + j) s) := by
  simp only [offerHistory]
  split
  · exact .inl (offer_stands ‹_›)
  · right
    show (updateAt s.fm.rePages (27 + j - 27) fun _ => true).getD j false = true
    rw [Nat.add_sub_cancel_left]
    exact getD_updateAt_same _ _ h

theorem histAppend_due (r : Record) (h : s.fm.nextSlot / 4 < s.fm.rePages.length) :
    HistDue (s.fm.nextSlot / 4) (histAppend r s) := offerHistory_due h

/-- Every operation that leaves the re-offer marks standing, and the jobs, leaves a page due. -/
theorem HistDue.mono {j : Nat} (h : HistDue j s) (hs : ∀ page, JobStands s page → JobStands v page)
    (hr : s.fm.rePages.getD j false = true → v.fm.rePages.getD j false = true) : HistDue j v := h.imp (hs _) hr

theorem histAppend_keeps_due (r : Record) {j : Nat} (h : HistDue j s) : HistDue j (histAppend r s) := by
  have hacts : Acts false (fun x => x ≠ .store) s (histAppend r s) := histAppend_acts r (.inl nofun) .refl
  refine h.mono (hacts.stands.resolve_left fun h => h rfl) fun hm => ?_
  simp only [histAppend, offerHistory]
  split
  · rw [offer_still]
    exact hm
  · show (updateAt s.fm.rePages _ _).getD j false = true
    by_cases hj : j = 27 + s.fm.nextSlot / 4 - 27
    · by_cases hl : j < s.fm.rePages.length
      · rw [← hj, getD_updateAt_same _ _ hl]
      · rw [List.getD_eq_default _ _ (by omega)] at hm
        cases hm
    · rw [getD_updateAt_ne _ _ _ hj, hm]

/-! ### The record of a raising -/

/-- The record that a raising leaves of its source, its class taken through `up` (R111 step 2, R115). -/
def State.raised (s : State) (src : Source) (detail : Nat) (up : FaultClass → FaultClass) : Record :=
  match s.record src with
  | none => { source := src, detail := detail, cls := up (s.newClass src), count := 1, first := s.time, last := s.time }
  | some r => { r with detail := detail, cls := up r.cls, count := min 255 (r.count + 1), last := s.time }

/-- The active list after a raising (R111 step 2, R115). -/
def State.raisedList (s : State) (src : Source) (detail : Nat) (up : FaultClass → FaultClass) : List Record :=
  match s.record src with
  | none => s.fm.active ++ [s.raised src detail up]
  | some _ => s.fm.active.map fun r =>
      if r.source = src then { r with detail := detail, cls := up r.cls, count := min 255 (r.count + 1), last := s.time } else r

/-- The escalation lists after a raising (R114). -/
def State.escAfter (s : State) (src : Source) : List (List Nat) :=
  if !src.safety && decide (0 < fcCount s.st.faultCodes src) then updateAt s.fm.esc (src.num - 1) (escAdd s.time) else s.fm.esc

theorem raiseEscalation_eq (src : Source) (s : State) :
    raiseEscalation src s = s.onFm fun f => { f with esc := s.escAfter src } := by
  simp only [raiseEscalation, State.escAfter]
  split <;> rfl

/-- The list, the escalation lists, the lockout record and the history as FM holds them: what the blocking timers and condition marks do not touch. -/
def Fm.told (f : Fm) : List Record × List (List Nat) × Lockout × List Bool × (List (Option Hist) × Nat × Nat) :=
  (f.active, f.esc, f.lockout, f.rePages, f.log)

theorem raiseCondition_told (src : Source) (s : State) : (raiseCondition src s).fm.told = s.fm.told
    ∧ (raiseCondition src s).st = s.st := by
  simp only [raiseCondition, State.setCond]
  repeat' split
  · exact ⟨by cases src <;> rfl, rfl⟩
  all_goals exact ⟨rfl, rfl⟩

/-- Whether the record made by a raising is new and goes to the history (R127). -/
def State.newEntry (s : State) (src : Source) : Bool := (s.record src).isNone && fcHistory s.st.faultCodes src

/-- Step 2 of R111 on the state of step 1. -/
theorem raiseRecord_eq (src : Source) (detail : Nat) (s : State) : raiseRecord src detail s =
    let w := s.onFm fun f => { f with active := s.raisedList src detail id }
    if s.newEntry src then histAppend (s.raised src detail id) w else w := by
  cases hr : s.record src with
  | none =>
    simp only [raiseRecord, State.newEntry, State.raisedList, State.raised, hr, Option.isNone_none, Bool.true_and, id]
    rfl
  | some r =>
    simp only [raiseRecord, State.newEntry, State.raisedList, hr, Option.isNone_some, Bool.false_and, id]
    exact (if_neg nofun).symm

/-- What steps 1 to 3 of R111 write. -/
theorem recorded_told (src : Source) (detail : Nat) (s : State) :
    let t := recorded src detail s
    t.fm.active = s.raisedList src detail id ∧ t.fm.esc = s.escAfter src ∧ t.fm.lockout = s.fm.lockout
      ∧ (s.newEntry src = true → t.fm.log = (updateAt s.fm.ring s.fm.nextSlot (fun _ => some (s.histEntry (s.raised src detail id))),
          (s.fm.nextSlot + 1) % 32, (s.fm.nextSeq + 1) % 65536)
        ∧ (s.fm.nextSlot / 4 < s.fm.rePages.length → HistDue (s.fm.nextSlot / 4) t))
      ∧ (s.newEntry src = false → t.fm.log = s.fm.log) := by
  obtain ⟨ht, hst⟩ := raiseCondition_told src (raiseRecord src detail (raiseEscalation src s))
  simp only [Fm.told, Prod.mk.injEq] at ht
  obtain ⟨h1, h2, h3, h4, h5⟩ := ht
  let e := raiseEscalation src s
  have he : e = s.onFm fun f => { f with esc := s.escAfter src } := raiseEscalation_eq src s
  let w := e.onFm fun f => { f with active := e.raisedList src detail id }
  have hr : raiseRecord src detail e = if e.newEntry src then histAppend (e.raised src detail id) w else w := raiseRecord_eq _ _ _
  have hnew : e.newEntry src = s.newEntry src := by rw [he]; rfl
  have hu : (raiseRecord src detail e).fm.unlogged = w.fm.unlogged := by
    rw [hr]
    split
    · exact histAppend_unlogged _ _
    · rfl
  have hw : w.fm.active = s.raisedList src detail id ∧ w.fm.esc = s.escAfter src ∧ w.fm.lockout = s.fm.lockout := by
    simp only [w, he]
    exact ⟨rfl, rfl, rfl⟩
  refine ⟨?_, ?_, ?_, fun hn => ⟨?_, fun hlen => ?_⟩, fun hn => ?_⟩
  · exact h1.trans ((congrArg Fm.active hu).trans hw.1)
  · exact h2.trans ((congrArg Fm.esc hu).trans hw.2.1)
  · exact h3.trans ((congrArg Fm.lockout hu).trans hw.2.2)
  · refine h5.trans ?_
    rw [hr, hnew, if_pos hn, histAppend_log]
    simp only [w, he]
    rfl
  · have hd : HistDue (s.fm.nextSlot / 4) (raiseRecord src detail e) := by
      rw [hr, hnew, if_pos hn]
      have hs : w.fm.nextSlot = s.fm.nextSlot ∧ w.fm.rePages = s.fm.rePages := by
        simp only [w, he]
        exact ⟨rfl, rfl⟩
      rw [← hs.1]
      exact histAppend_due _ (by rwa [hs.1, hs.2])
    exact hd.mono (fun page hj => by simpa only [JobStands, State.jobWaiting, recorded, hst] using hj) fun hm => by
      show (raiseCondition src _).fm.rePages.getD _ false = true
      rw [h4]
      exact hm
  · refine h5.trans ?_
    rw [hr, hnew, if_neg (by rw [hn]; exact nofun)]
    simp only [w, he]
    rfl

theorem raised_source (src : Source) (detail : Nat) (up : FaultClass → FaultClass) : (s.raised src detail up).source = src := by
  cases hr : s.record src with
  | none => simp only [State.raised, hr]
  | some r =>
    simp only [State.raised, hr]
    simpa using List.find?_some hr

theorem raisedList_record (src : Source) (detail : Nat) (h : v.fm.active = s.raisedList src detail id) :
    v.record src = some (s.raised src detail id) := by
  rw [State.record, h]
  cases hr : s.record src with
  | none =>
    have hnone : s.fm.active.find? (fun r => r.source == src) = none := hr
    have hsrc := raised_source (s := s) src detail id
    simp [State.raisedList, hr, List.find?_append, hnone, hsrc]
  | some r =>
    have hsome : s.fm.active.find? (fun r => r.source == src) = some r := hr
    have hsrc : r.source = src := by simpa using List.find?_some hsome
    have hkeep : ∀ q : Record, (if q.source = src then
        { q with detail := detail, cls := id q.cls, count := min 255 (q.count + 1), last := s.time } else q).source = q.source := by
      intro q; split <;> rfl
    simp only [State.raisedList, State.raised, hr, List.find?_map, Function.comp_def, hkeep, hsome]
    simp [hsrc]

/-- The list in which the raised record is made LOCKOUT (R115). -/
theorem raisedList_escalated (src : Source) (detail : Nat) (s : State) :
    ((s.raisedList src detail id).map fun r => if r.source = src then { r with cls := .lockout } else r)
      = s.raisedList src detail fun _ => .lockout := by
  cases hr : s.record src with
  | none =>
    have hne : ∀ r ∈ s.fm.active, r.source ≠ src := by
      have h : s.fm.active.find? (fun r => r.source == src) = none := hr
      simpa using h
    have hsame : (s.fm.active.map fun r => if r.source = src then { r with cls := FaultClass.lockout } else r) = s.fm.active := by
      conv_rhs => rw [← List.map_id s.fm.active]
      exact List.map_congr_left fun r hr => if_neg (hne r hr)
    have hsrc := raised_source (s := s) src detail id
    simp only [State.raisedList, hr, List.map_append, hsame, List.map_cons, List.map_nil, hsrc, if_true]
    simp only [State.raised, hr]
  | some r =>
    simp only [State.raisedList, hr, List.map_map]
    refine List.map_congr_left fun q _ => ?_
    by_cases h : q.source = src <;> simp [h]

/-- Step 4 of R111 without an escalation: nothing (R115). -/
theorem raiseClass_kept {src : Source} {r : Record} (hr : s.record src = some r) (hc : r.cls ≠ .lockout)
    (he : s.escalates src = false) : raiseClass src s = s := by
  simp only [raiseClass, hr, hc, he, if_false, Bool.false_eq_true]

/-- Step 4 of R111 with an escalation, no lockout record standing: what it writes (R115, R116, R118). -/
theorem raiseClass_escalated {src : Source} {r : Record} (hr : s.record src = some r) (hc : r.cls ≠ .lockout)
    (he : s.escalates src = true) (hn : s.fm.lockout.state = .none) :
    let t := raiseClass src s
    t.fm.active = (s.fm.active.map fun r => if r.source = src then { r with cls := .lockout } else r)
      ∧ t.fm.esc = s.fm.esc
      ∧ t.fm.lockout = { state := .active, source := some src, code := s.codeOf src, time := s.time }
      ∧ t.fm.log = (updateAt s.fm.ring s.fm.nextSlot (fun _ => some (s.histEntry { r with cls := .lockout })),
          (s.fm.nextSlot + 1) % 32, (s.fm.nextSeq + 1) % 65536)
      ∧ ∀ j, HistDue j s → HistDue j t := by
  let h := histAppend { r with cls := .lockout } (escalateRecord src s)
  let q := (queueLockoutPage (lockActive src h)).offerCounters
  have hu := histAppend_unlogged { r with cls := .lockout } (escalateRecord src s)
  have hlock : h.fm.lockout.state = .none := (congrArg (fun f => f.lockout.state) hu).trans hn
  have ht : raiseClass src s = lockoutEntry src q := by
    simp only [raiseClass, hr, hc, he, if_true, if_false]
    show lockoutPath src h = _
    simp only [lockoutPath, hlock]
    rfl
  have hq : q.fm = { h.fm with
      lockout := { state := .active, source := some src, code := h.codeOf src, time := h.time }, writeOut := true } := by
    obtain ⟨-, hk, -⟩ := (queueLockoutPage (lockActive src h)).offerCounters_keeps
    refine hk.trans ?_
    rw [queueLockoutPage, offer_still]
    rfl
  have hfm : (raiseClass src s).fm = q.fm := by rw [ht, lockoutEntry_fm]
  obtain ⟨-, -, -, -, -, -, -, -, -, -, hcount, -, -, hcodes, -⟩ :=
    (histAppend_fmOnly { r with cls := .lockout } ((FmOnly.refl (u := s)).onFm _ : FmOnly s (escalateRecord src s))).fields
  have hcode : h.codeOf src = s.codeOf src := congrArg (fun c => fcCode c src) hcodes
  have htime : h.time = s.time := congrArg (fun c => c.getD 0 0) hcount
  refine ⟨?_, ?_, ?_, ?_, fun j hj => ?_⟩
  · rw [hfm, hq]
    exact congrArg Fm.active hu
  · rw [hfm, hq]
    have hesc := congrArg Fm.esc hu
    exact hesc
  · rw [hfm, hq, hcode, htime]
  · rw [hfm, hq]
    exact histAppend_log _ _
  · have h1 : HistDue j h := histAppend_keeps_due _ (s := escalateRecord src s) hj
    have hacts : Acts false (fun x => x ≠ .store) h (lockoutEntry src q) :=
      lockoutEntry_acts _ (offerCounters_acts (queueLockoutPage_acts (lockActive_acts _ nofun .refl)))
    rw [ht]
    refine h1.mono (hacts.stands.resolve_left fun h => h rfl) fun hm => ?_
    rw [lockoutEntry_fm, hq]
    exact hm

/-! ### A raising as a whole -/

/-- Whether a raising of the source now makes its record LOCKOUT by the count of its times (R115). -/
def State.rises (s : State) (src : Source) : Prop :=
  0 < fcCount s.st.faultCodes src ∧ fcCount s.st.faultCodes src
    ≤ (((s.escAfter src).getD (src.num - 1) []).filter (withinLast s.time (3600 * fcWindow s.st.faultCodes src))).length

/-- The entry of a raising in the ring, of a class. -/
def State.raisedEntry (s : State) (src : Source) (detail : Nat) (seq : Nat) (cls : FaultClass) : Hist :=
  { seq := seq, source := src, code := s.codeOf src, cls := cls, detail := detail, hours := s.time / 3600
    count := (s.raised src detail id).count }

theorem raised_detail (src : Source) (detail : Nat) (up : FaultClass → FaultClass) : (s.raised src detail up).detail = detail := by
  simp only [State.raised]
  split <;> rfl

/-- What a raising writes, its record not LOCKOUT before and no lockout record standing: `t` holds it against `s` (R111, R114, R115, R118, R127). -/
def RaiseTold (src : Source) (detail : Nat) (s t : State) : Prop :=
  t.fm.esc = s.escAfter src
    ∧ (s.rises src → t.fm.active = s.raisedList src detail (fun _ => .lockout)
      ∧ t.fm.lockout = { state := .active, source := some src, code := s.codeOf src, time := s.time }
      ∧ (s.newEntry src = false → t.fm.log = (updateAt s.fm.ring s.fm.nextSlot
          (fun _ => some (s.raisedEntry src detail s.fm.nextSeq .lockout)), (s.fm.nextSlot + 1) % 32, (s.fm.nextSeq + 1) % 65536))
      ∧ (s.newEntry src = true → t.fm.log = (updateAt (updateAt s.fm.ring s.fm.nextSlot
          (fun _ => some (s.raisedEntry src detail s.fm.nextSeq (s.raised src detail id).cls))) ((s.fm.nextSlot + 1) % 32)
          (fun _ => some (s.raisedEntry src detail ((s.fm.nextSeq + 1) % 65536) .lockout)),
          ((s.fm.nextSlot + 1) % 32 + 1) % 32, ((s.fm.nextSeq + 1) % 65536 + 1) % 65536)))
    ∧ (¬s.rises src → t.fm.active = s.raisedList src detail id ∧ t.fm.lockout = s.fm.lockout
      ∧ (s.newEntry src = false → t.fm.log = s.fm.log)
      ∧ (s.newEntry src = true → t.fm.log = (updateAt s.fm.ring s.fm.nextSlot
          (fun _ => some (s.raisedEntry src detail s.fm.nextSeq (s.raised src detail id).cls)),
          (s.fm.nextSlot + 1) % 32, (s.fm.nextSeq + 1) % 65536)))
    ∧ (s.newEntry src = true → s.fm.nextSlot / 4 < s.fm.rePages.length → HistDue (s.fm.nextSlot / 4) t)

theorem fmRaise_told {src : Source} (detail : Nat) (hlock : s.fm.lockout.state = .none)
    (hnew : s.newClass src ≠ .lockout) (hold : ∀ r, s.record src = some r → r.cls ≠ .lockout) :
    RaiseTold src detail s (fmRaise src detail s) := by
  obtain ⟨p, hp⟩ := fmRaise_eq src detail s
  obtain ⟨h1, h2, h3, h4, h5⟩ := recorded_told src detail s
  obtain ⟨-, -, -, -, -, -, -, -, -, -, hcount, -, -, hcodes, -⟩ := (recorded_fmOnly src detail s).fields
  have hrec := raisedList_record src detail h1
  have hcls : (s.raised src detail id).cls ≠ .lockout := by
    cases hr : s.record src with
    | none => simpa only [State.raised, hr, id] using hnew
    | some r => simpa only [State.raised, hr, id] using hold r hr
  have hfm : (fmRaise src detail s).fm = (raiseClass src (recorded src detail s)).fm := by rw [hp, State.onPe_fm, fmSync_fm]
  have htime : (recorded src detail s).time = s.time := congrArg (fun c => c.getD 0 0) hcount
  have hcode : (recorded src detail s).codeOf src = s.codeOf src := congrArg (fun c => fcCode c src) hcodes
  have hesc : (recorded src detail s).escalates src = true ↔ s.rises src := by
    simp only [State.escalates, State.escCount, State.rises, h2, htime, hcodes, Bool.and_eq_true, decide_eq_true_eq]
  have hentry : (recorded src detail s).histEntry { s.raised src detail id with cls := .lockout }
      = s.raisedEntry src detail (recorded src detail s).fm.nextSeq .lockout := by
    simp only [State.histEntry, State.raisedEntry, raised_source, raised_detail, hcode, htime]
  have hfirst : s.histEntry (s.raised src detail id) = s.raisedEntry src detail s.fm.nextSeq (s.raised src detail id).cls := by
    simp only [State.histEntry, State.raisedEntry, raised_source, raised_detail]
  rw [hfirst] at h4
  have hdue : ∀ j, HistDue j (raiseClass src (recorded src detail s)) → HistDue j (fmRaise src detail s) := fun j hj => by
    have hacts : Acts false (fun x => x ≠ .store) (raiseClass src (recorded src detail s)) (fmSync (raiseClass src (recorded src detail s))) :=
      fmSync_acts .refl
    have hj' := hj.mono (hacts.stands.resolve_left fun h => h rfl) (by rw [fmSync_fm]; exact id)
    rw [hp]
    exact hj'
  by_cases hr : s.rises src
  · obtain ⟨e1, e2, e3, e4, e5⟩ := raiseClass_escalated hrec hcls (hesc.2 hr) (by rw [h3, hlock])
    rw [hentry] at e4
    rw [hcode, htime] at e3
    refine ⟨by rw [hfm, e2, h2], fun _ => ⟨?_, by rw [hfm, e3], fun hn => ?_, fun hn => ?_⟩, fun h => absurd hr h,
      fun hn hlen => hdue _ (e5 _ ((h4 hn).2 hlen))⟩
    · rw [hfm, e1, h1, raisedList_escalated]
    · have hlog := h5 hn
      simp only [Fm.log, Prod.mk.injEq] at hlog
      rw [hfm, e4, hlog.1, hlog.2.1, hlog.2.2]
    · have hlog := (h4 hn).1
      simp only [Fm.log, Prod.mk.injEq] at hlog
      rw [hfm, e4, hlog.1, hlog.2.1, hlog.2.2]
  · have hk := raiseClass_kept hrec hcls (Bool.eq_false_iff.2 fun h => hr (hesc.1 h))
    refine ⟨by rw [hfm, hk, h2], fun h => absurd h hr, fun _ => ⟨by rw [hfm, hk, h1], by rw [hfm, hk, h3], fun hn => ?_, fun hn => ?_⟩,
      fun hn hlen => hdue _ (by rw [hk]; exact (h4 hn).2 hlen)⟩
    · rw [hfm, hk, h5 hn]
    · rw [hfm, hk, (h4 hn).1]

/-- The state before a raising told by its list, its history, FAULTCODES and power-on time alone. -/
theorem told_of_fields (hf : v.fm = s.fm) (hst : v.st = s.st) (src : Source) (detail : Nat) :
    v.escAfter src = s.escAfter src ∧ (v.rises src ↔ s.rises src) ∧ (∀ up, v.raisedList src detail up = s.raisedList src detail up)
      ∧ v.newEntry src = s.newEntry src ∧ v.newClass src = s.newClass src
      ∧ (∀ q k, v.raisedEntry src detail q k = s.raisedEntry src detail q k) ∧ v.record src = s.record src
      ∧ (∀ up, v.raised src detail up = s.raised src detail up) ∧ v.codeOf src = s.codeOf src ∧ v.time = s.time := by
  have ht : v.time = s.time := by rw [State.time, hst]; rfl
  have hr : v.record src = s.record src := by rw [State.record, hf]; rfl
  have hc : v.codeOf src = s.codeOf src := by rw [State.codeOf, hst]; rfl
  have hn : v.newClass src = s.newClass src := by simp only [State.newClass, hst]
  have hra : ∀ up, v.raised src detail up = s.raised src detail up := fun up => by
    simp only [State.raised, hr, hn, ht]
  have he : v.escAfter src = s.escAfter src := by simp only [State.escAfter, hf, hst, ht]
  refine ⟨he, by simp only [State.rises, he, hst, ht], fun up => ?_, by simp only [State.newEntry, hr, hst], hn, fun q k => ?_, hr, hra, hc, ht⟩
  · simp only [State.raisedList, hr, hra, hf, ht]
  · simp only [State.raisedEntry, hc, ht, hra]

theorem RaiseTold.of_fields {src : Source} {detail : Nat} (h : RaiseTold src detail v u) (hf : v.fm = s.fm) (hst : v.st = s.st) :
    RaiseTold src detail s u := by
  obtain ⟨t1, t2, t3, t4, t5, t6, t7, t8, t9, t10⟩ := told_of_fields hf hst src detail
  simpa only [RaiseTold, t1, t2, t3, t4, t6, t8, t9, t10, hf] using h

theorem RaiseTold.settle {src : Source} {detail : Nat} (h : RaiseTold src detail s u) (hopen : RelaysOpen u) :
    RaiseTold src detail s (settle u) := by
  obtain ⟨hfm, -⟩ := settle_still_fields (s := u) (.inr hopen)
  have hacts : Acts false (fun x => x ≠ .store) u (Machine.settle u) := settle_acts (.inl nofun) .refl
  obtain ⟨h1, h2, h3, h4⟩ := h
  rw [RaiseTold, hfm]
  exact ⟨h1, h2, h3, fun hn hl => (h4 hn hl).mono (hacts.stands.resolve_left fun h => h rfl) (by rw [hfm]; exact id)⟩

/-- A raising from a state with FM and the store as in `s`, to the end of its event. -/
theorem raising_told {src : Source} (detail : Nat) (hf : v.fm = s.fm) (hst : v.st = s.st) (hopen : RelaysOpen v)
    (hlock : s.fm.lockout.state = .none) (hnew : s.newClass src ≠ .lockout) (hold : ∀ r, s.record src = some r → r.cls ≠ .lockout) :
    RaiseTold src detail s (settle (fmRaise src detail v)) := by
  have htold : RaiseTold src detail v (fmRaise src detail v) :=
    fmRaise_told detail (by rw [hf]; exact hlock) (by simp only [State.newClass, hst]; exact hnew)
      (fun r hr => hold r (by rw [State.record, hf] at hr; exact hr))
  refine (htold.of_fields hf hst).settle ?_
  rw [RelaysOpen, (outer_fields (fmRaise_outer src detail v)).2.2.2.1]
  exact hopen

/-- A fan that does not come up to speed, with the burner in PRE_PURGE and the relays open: what the raising writes (R30). -/
theorem purgeLimit_told {d : Nat} (hp : s.power = .on) (hsafe : SafeBurner s) (hd : s.bs.purgeLimit = some d) (hopen : RelaysOpen s)
    (hnew : s.newClass .fanNoSpeed ≠ .lockout) (hold : ∀ r, s.record .fanNoSpeed = some r → r.cls ≠ .lockout) :
    ∃ t, exec .prePurgeLimitExpiry s = .next t ∧ RaiseTold .fanNoSpeed noDetail s t
      ∧ (t.fm.lockout.state ≠ .none → LockedOut t) := by
  have hstate : s.bs.state = .prePurge := by
    obtain ⟨-, -, -, -, h, -⟩ := hsafe.1
    exact h (by simp [hd])
  have hnone : s.fm.lockout.state = .none := safe_none (safeOn_of_safeBurner hsafe) (by rw [hstate]; decide)
  obtain ⟨hst, hfm⟩ := toStandby_fields .fault (s.reach d)
  have hopen' : RelaysOpen (toStandby .fault (s.reach d)) := by
    rw [RelaysOpen, (outer_fields (toStandby_outer .fault (s.reach d))).2.2.2.1]
    exact hopen
  have hexec : exec .prePurgeLimitExpiry s = .next (settle (purgeLimitExpired (s.reach d))) :=
    exec_expire (c := .prePurgeLimitExpiry) nofun rfl rfl hp hd
  rw [purgeLimitExpired] at hexec
  have hsafe' := safeOn_of_safeBurner (exec_safe _ _ _ hsafe hexec)
  exact ⟨_, hexec, raising_told (s := s) noDetail hfm hst hopen' hnone hnew hold, fun hl => lockedOut_of_safe hsafe' hl⟩

/-- Settles O39. -/
theorem raisingsEscalateAndEnterTheHistory : Obligations.RaisingsEscalateAndEnterTheHistory := by
  unfold Obligations.RaisingsEscalateAndEnterTheHistory
  intro s d hp hsafe hd hopen hesc hring hslot hpages hnew hold codes n old times listed count rises entry k k'
  obtain ⟨t, hexec, ⟨e1, e2, e3, e4⟩, hlocked⟩ := purgeLimit_told hp hsafe hd hopen hnew hold
  have hlisted : ∀ up, s.raisedList .fanNoSpeed noDetail up = listed up := fun up => by
    simp only [listed, State.raisedList, State.raised]
    cases s.record .fanNoSpeed <;> rfl
  have htimes : (s.escAfter .fanNoSpeed).getD 10 [] = times := by
    simp only [times, n, codes, old, State.escAfter]
    by_cases hn : fcCount s.st.faultCodes .fanNoSpeed = 0
    · simp [hn]
    · rw [if_neg hn, if_pos (by rw [Bool.and_eq_true, decide_eq_true_eq]; exact ⟨rfl, Nat.pos_of_ne_zero hn⟩)]
      exact getD_updateAt_same _ _ (by rw [hesc]; decide)
  have hrises : s.rises .fanNoSpeed ↔ rises := by
    simp only [rises, n, codes, ← htimes]
    rfl
  have hentry : ∀ q c m, (s.raised .fanNoSpeed noDetail id).count = m →
      some (s.raisedEntry .fanNoSpeed noDetail q c) = entry q c m := by
    rintro q c _ rfl
    rfl
  have hcount : (s.raised .fanNoSpeed noDetail id).count = count := by
    simp only [State.raised, count]
    cases s.record .fanNoSpeed <;> rfl
  have hone : s.record .fanNoSpeed = none → (s.raised .fanNoSpeed noDetail id).count = 1
      ∧ (s.raised .fanNoSpeed noDetail id).cls = s.newClass .fanNoSpeed := fun hn => by
    simp only [State.raised, hn, id, and_self]
  have hk : k < s.fm.ring.length := by rw [hring]; exact hslot
  have hnext : k' < s.fm.ring.length := by
    rw [hring]
    exact Nat.mod_lt _ (by decide)
  have hold' : (s.record .fanNoSpeed ≠ none ∨ fcHistory codes .fanNoSpeed = false) → s.newEntry .fanNoSpeed = false := fun h => by
    rw [State.newEntry, Bool.and_eq_false_iff, Option.isNone_eq_false_iff, ← Option.ne_none_iff_isSome]
    exact h
  have hne : k ≠ k' := by simp only [k', k]; omega
  have hlast : k / 4 < s.fm.rePages.length := by simp only [k, hpages]; omega
  rw [hrises] at e2 e3
  simp only [hlisted] at e2 e3
  clear_value listed times rises entry count
  refine ⟨t, hexec, by rw [e1, htimes], fun hr => ?_, fun hr => ?_, fun hn hf => ?_, fun hn => ⟨fun hr => ?_, fun hr => ?_⟩⟩
  · obtain ⟨h1, h2, -⟩ := e2 hr
    exact ⟨h1, hlocked (by rw [h2]; exact nofun), h2⟩
  · obtain ⟨h1, h2, -⟩ := e3 hr
    exact ⟨h1, h2⟩
  · have hnewe : s.newEntry .fanNoSpeed = true := by simp only [State.newEntry, hn, Option.isNone_none, Bool.true_and]; exact hf
    obtain ⟨hc1, hc2⟩ := hone hn
    refine ⟨?_, e4 hnewe hlast, fun hr => ?_, fun hr => ?_⟩
    · by_cases hr : rises
      · obtain ⟨-, -, -, h⟩ := e2 hr
        have h := congrArg Prod.fst (h hnewe)
        simp only [Fm.log] at h
        rw [h, getD_updateAt_ne _ _ _ hne, getD_updateAt_same _ _ hk, hc2, hentry _ _ _ hc1]
      · obtain ⟨-, -, -, h⟩ := e3 hr
        have h := congrArg Prod.fst (h hnewe)
        simp only [Fm.log] at h
        rw [h, getD_updateAt_same _ _ hk, hc2, hentry _ _ _ hc1]
    · obtain ⟨-, -, -, h⟩ := e2 hr
      have h := h hnewe
      simp only [Fm.log, Prod.mk.injEq] at h
      refine ⟨?_, h.2.1⟩
      rw [h.1, getD_updateAt_same _ _ (by rw [updateAt_length]; exact hnext), hentry _ _ _ hc1]
    · obtain ⟨-, -, -, h⟩ := e3 hr
      have h := h hnewe
      simp only [Fm.log, Prod.mk.injEq] at h
      exact h.2
  · obtain ⟨-, -, h, -⟩ := e2 hr
    have h := h (hold' hn)
    simp only [Fm.log, Prod.mk.injEq] at h
    refine ⟨?_, h.2⟩
    rw [h.1, getD_updateAt_same _ _ hk, hentry _ _ _ hcount]
  · obtain ⟨-, -, h, -⟩ := e3 hr
    have h := h (hold' hn)
    simp only [Fm.log, Prod.mk.injEq] at h
    exact h

end Sys2Proof.Machine

/-! SUPPORT. The anti-cycle, the blocking timers and the seconds: O33, O38, O41. -/

namespace Sys2Proof.Machine

variable {s u v : State}

/-! ### The departure from STANDBY -/

/-- The end of an event in which the burner leaves STANDBY is the end of the entry to PRE_CHECK. -/
theorem settle_start (h : s.mayStart = true) (hp : (toPreCheck s).mayStart = false) : settle s = settle (toPreCheck s) := by
  have h1 : leaveStandby s = toPreCheck s := if_pos h
  have h2 : leaveStandby (toPreCheck s) = toPreCheck s := if_neg (by rw [hp]; exact nofun)
  rw [settle, settle, h1, h2]

/-- PRE_CHECK entered from a state that does not fire leaves DM and MU as they are. -/
theorem toPreCheck_demand (h : RelaysOpen s) (hf : firing s.bs = false) : (toPreCheck s).dm = s.dm ∧ (toPreCheck s).mu = s.mu := by
  have hsync : ∀ w : State, (relaySync w).dm = w.dm ∧ (relaySync w).mu = w.mu := fun w => (relaySync_unsynced w).2
  have hoff : (safeOff s).dm = s.dm ∧ (safeOff s).mu = s.mu := by
    rw [safeOff, if_neg (by rw [hf]; exact nofun)]
    exact hsync _
  have hmove : bsMove .preCheck .fault false s
      = (safeOff s).onBs fun b => { stopPhase b with state := .preCheck, fanDev := 0 } := by
    simp only [bsMove, bsReport, hf, Bool.false_and]
    rfl
  rw [toPreCheck_open h, hmove]
  exact hoff

/-- The end of an event in which the burner leaves STANDBY with both relays open (R26). -/
theorem settle_started (h : s.mayStart = true) (ho : RelaysOpen s) :
    (settle s).bs = (toPreCheck s).bs ∧ (settle s).fm = s.fm ∧ (settle s).pe = s.pe ∧ (settle s).mu = s.mu
      ∧ (settle s).dm = { s.dm with idle := (settle s).dm.idle } := by
  have hstate : (toPreCheck s).bs.state = .preCheck := (toPreCheck_fields ho).1
  have hm : (toPreCheck s).mayStart = false := mayStart_of_state (by rw [hstate]; decide)
  have hstand : s.bs.state = .standby := by
    simp only [State.mayStart, Bool.and_eq_true, beq_iff_eq] at h
    exact h.1.1
  obtain ⟨hdm, hmu⟩ := toPreCheck_demand ho (by simp [firing, hstand])
  obtain ⟨hfm, hpe⟩ := settle_still_fields (s := s) (.inr ho)
  obtain ⟨q1, q2⟩ := settle_quiet hm
  rw [settle_start h hm] at hfm hpe ⊢
  exact ⟨(settle_held hm).1, hfm, hpe, q1.trans hmu, q2.trans (by rw [hdm])⟩

/-! ### Anti-cycle -/

/-- Settles O33. -/
theorem antiCycleEndsAndTheBurnerMayStart : Obligations.AntiCycleEndsAndTheBurnerMayStart := by
  unfold Obligations.AntiCycleEndsAndTheBurnerMayStart
  intro s d hp hd hm ho
  have hexec : exec .antiCycleExpiry s = .next (settle (antiCycleEnd (s.reach d))) :=
    exec_expire (c := .antiCycleExpiry) nofun rfl rfl hp hd
  let v := antiCycleEnd (s.reach d)
  have ho' : RelaysOpen v := ho
  obtain ⟨-, -, hmp, hclock, -⟩ := settle_blocks v
  have hfm := (settle_still_fields (s := v) (.inr ho')).1
  have hstart : v.mayStart = (s.bs.state == .standby && s.dm.active
      && !(s.bs.inhibit.blocking || s.bs.inhibit.commitHold || s.bs.inhibit.startUp)) := by
    have hin : v.inhibited = (s.bs.inhibit.blocking || s.bs.inhibit.commitHold || s.bs.inhibit.startUp || false) := rfl
    rw [Bool.or_false] at hin
    rw [← hin]
    rfl
  have hfields : ∃ dm bs, (settle v).dm = { v.dm with idle := dm } ∧ (settle v).bs = bs ∧ bs.inhibit = v.bs.inhibit
      ∧ (v.mayStart = false → bs = v.bs) ∧ (v.mayStart = true → bs = (toPreCheck v).bs) := by
    cases hv : v.mayStart with
    | false => exact ⟨_, _, (settle_quiet hv).2, (settle_held hv).1, rfl, fun _ => rfl, nofun⟩
    | true =>
      obtain ⟨h1, -, -, -, h2⟩ := settle_started hv ho'
      obtain ⟨-, -, -, -, -, -, -, -, -, -, -, hin⟩ := toPreCheck_fields ho'
      exact ⟨_, _, h2, h1, hin, nofun, fun _ => rfl⟩
  obtain ⟨i, bs, hdm, hbs, hinh, h0, h1⟩ := hfields
  refine ⟨settle v, hexec, by rw [hdm]; rfl, by rw [hbs, hinh]; rfl, by rw [hclock]; rfl, hfm, hmp,
    fun hs ha hb hc hu => ?_, fun h => ?_⟩
  · have hgo : v.mayStart = true := by rw [hstart, hs, ha, hb, hc, hu]; rfl
    obtain ⟨p1, p2, p3, p4, -⟩ := toPreCheck_fields ho'
    rw [hbs, h1 hgo]
    exact ⟨p1, p3, p2, p4⟩
  · have hstay : v.mayStart = false := by
      rw [hstart]
      rcases h with h | h | h
      · cases hs : s.bs.state <;> first | exact absurd hs h | rfl
      · rw [h, Bool.and_false, Bool.false_and]
      · rw [h, Bool.true_or, Bool.true_or, Bool.not_true, Bool.and_false]
    rw [hbs, h0 hstay]
    rfl

/-! ### The pump at the departure from STANDBY -/

/-- What the pump and its idle timer read of DM (R75 to R77). -/
def Dm.pump (d : Dm) : Nat × Timer × Timer × Circuit × Draw := (d.idle, d.kick, d.pumpOverrun, d.circuit, d.draw)

/-- The gas of no firing state is open in `v`, and the pump reads what it read in `s`. -/
def Calm (s v : State) : Prop := firing v.bs = false ∧ v.dm.pump = s.dm.pump

theorem bsReport_pump {c : Cause} {o : Bool} (hf : firing v.bs = false) : (bsReport false c o v).dm.pump = v.dm.pump := by
  simp only [bsReport, hf, Bool.false_and, Bool.false_eq_true, if_false]
  split
  case h_1 hs => simp [firing, hs] at hf
  case h_2 hs => simp [firing, hs] at hf
  case h_3 | h_4 =>
    simp only [muReturn]
    split <;> rfl
  case h_5 =>
    simp only [muLockout]
    split <;> rfl
  case h_6 | h_7 | h_8 => rfl

theorem bsMove_calm {st : BurnerState} {c : Cause} {o : Bool} (h : Calm s v) (hst : ¬(st = .stabilise ∨ st = .run)) :
    Calm s (bsMove st c o v) := by
  obtain ⟨hf, hd⟩ := h
  have hoff : (safeOff v).dm = v.dm := by
    rw [safeOff, if_neg (by rw [hf]; exact nofun)]
    exact (relaySync_unsynced _).2.1
  let w := (safeOff v).onBs fun b => { stopPhase b with state := st, fanDev := if st = .run then b.fanDev else 0 }
  have hmove : bsMove st c o v = bsReport false c o w := by
    simp only [bsMove, hf, hst, if_false, w]
  have hg : (safeOff v).bs.gas1 = false := congrArg (fun x => x.1.gas1) (safeOff_drive v)
  have hfw : firing w.bs = false := by
    rw [not_or] at hst
    cases st <;> first | exact absurd rfl hst.1 | exact absurd rfl hst.2 | simp [firing, w, State.onBs, stopPhase, hg]
  refine ⟨?_, ?_⟩
  · have hb := bsReport_drive false c o w
    have hp : (bsReport false c o w).bs.phase = w.bs.phase := congrArg Prod.fst hb
    have he : ∀ b : Bs, firing b = firing b.phase := fun _ => rfl
    rw [hmove, he, hp]
    exact hfw
  · rw [hmove, bsReport_pump hfw]
    show (safeOff v).dm.pump = _
    rw [hoff, hd]

theorem toStandby_calm {c : Cause} (h : Calm s v) : Calm s (toStandby c v) := bsMove_calm h nofun

theorem faultStop_calm (h : Calm s v) : Calm s (faultStop v) := by
  have hf := h.1
  rw [faultStop]
  cases hs : v.bs.state
  case stabilise | run => simp [firing, hs] at hf
  case ignition =>
    dsimp only
    rw [if_neg (by rw [hf]; exact nofun)]
    exact toStandby_calm h
  case preCheck | prePurge => exact toStandby_calm h
  case standby | postPurge | lockout => exact h

theorem lockoutEntry_calm {src : Source} (h : Calm s v) : Calm s (lockoutEntry src v) := by
  have hm := bsMove_calm (st := .lockout) (c := .lockout) (o := false) h nofun
  simp only [lockoutEntry]
  split
  · exact h
  · generalize bsMove .lockout .lockout false v = w at *
    split <;> exact hm

theorem fmSync_calm (h : Calm s v) : Calm s (fmSync v) := by
  simp only [fmSync]
  split
  · split
    · exact h
    · exact faultStop_calm (v := v.setBlocking true) h
  · exact h

theorem fmRaise_calm {src : Source} {detail : Nat} (h : Calm s v) : Calm s (fmRaise src detail v) := by
  obtain ⟨y, p, hy, ⟨q, -, -, -, -, hcase⟩, -⟩ := fmRaise_cases src detail v
  obtain ⟨-, -, -, -, hbs, hdm, -⟩ := hy.fields
  have hy : Calm s y := by rwa [Calm, hbs, hdm]
  rcases hcase with ⟨e, -⟩ | ⟨e, -⟩
  · rw [e]
    exact fmSync_calm hy
  · rw [e]
    exact fmSync_calm (lockoutEntry_calm hy)

theorem preCheckRelay_calm {before : State} {r : Relay} (h : Calm s v) : Calm s (preCheckRelay before v r) := by
  simp only [preCheckRelay]
  split
  · exact fmRaise_calm (faultStop_calm (v := setMismatch r none true v) (by cases r <;> exact h))
  · exact h

theorem relayCheck_calm (h : Calm s v) : Calm s (relayCheck v) := by
  rw [relayCheck]
  split
  · exact preCheckRelay_calm (preCheckRelay_calm h)
  · exact h

/-- The departure from STANDBY leaves what the pump reads as it is, also where it finds a relay energised (R75, R77). -/
theorem leaveStandby_pump (s : State) : (leaveStandby s).dm.pump = s.dm.pump := by
  simp only [leaveStandby]
  split
  · rename_i h
    have hstand : s.bs.state = .standby := by
      simp only [State.mayStart, Bool.and_eq_true, beq_iff_eq] at h
      exact h.1.1
    have hm := bsMove_calm (s := s) (v := s) (st := .preCheck) (c := .fault) (o := false) ⟨by simp [firing, hstand], rfl⟩ nofun
    have hw : ∀ w tp, Calm s w → Calm s ((setFanTarget 0 w).onBs fun b => { b with retry := false, tPchk := tp }) := fun _ _ h => h
    exact (relayCheck_calm (hw _ _ hm)).2
  · rfl

/-- The departure from STANDBY keeps the records of every source but GAS_RELAY. -/
theorem settle_about {src : Source} (h : src ≠ .gasRelay) : (settle s).fm.about src = s.fm.about src := by
  have hacts : Acts false (fun x => x = .raise .gasRelay) s (settle s) := settle_acts (.inl rfl) .refl
  rcases hacts.about src with h' | h' | h' | h' | h'
  · exact absurd (by cases h'; rfl) h
  · cases h'
  · cases h'.1
  · cases h'
  · exact h'

theorem record_of_about {src : Source} (h : u.fm.about src = v.fm.about src) : u.record src = v.record src := by
  have hl : (u.fm.active.filter fun r => r.source == src) = v.fm.active.filter fun r => r.source == src := congrArg Prod.fst h
  have hfind : ∀ l : List Record, l.find? (fun r => r.source == src) = (l.filter fun r => r.source == src).head? := fun l => by
    rw [List.head?_filter]
  rw [State.record, State.record, hfind, hfind, hl]

/-! ### Seconds -/

/-- The counters after the run seconds of BS, of a burner state and a circuit (R50, R200). -/
def runCounted (b : BurnerState) (k : Circuit) (l : List Nat) : List Nat :=
  if b = .stabilise ∨ b = .run then
    match k with
    | .ch | .frost => countUp 5 (countUp 1 l)
    | .dhw => countUp 6 (countUp 1 l)
    | .none => countUp 1 l
  else l

theorem runCounted_rest {b : BurnerState} (k : Circuit) (l : List Nat) (h : ¬(b = .stabilise ∨ b = .run)) :
    runCounted b k l = l := if_neg h

theorem runCounted_burn {b : BurnerState} (k : Circuit) (l : List Nat) (h : b = .stabilise ∨ b = .run) :
    (k.heating = true → runCounted b k l = countUp 5 (countUp 1 l)) ∧ (k = .dhw → runCounted b k l = countUp 6 (countUp 1 l))
      ∧ (k = .none → runCounted b k l = countUp 1 l) := by
  refine ⟨fun hk => ?_, ?_, ?_⟩
  · cases k <;> first | exact if_pos h | cases hk
  · rintro rfl
    exact if_pos h
  · rintro rfl
    exact if_pos h

theorem runSecond_eq (s : State) :
    runSecond s = s.onSt fun q => { q with counters := runCounted s.bs.state s.dm.circuit s.st.counters } := by
  simp only [runSecond, runCounted]
  split
  · cases hc : s.dm.circuit <;> simp only [State.bump, State.onSt, hc] <;> rfl
  · rfl

theorem idleSecond_eq (s : State) : ∃ d, idleSecond s = s.onDm (fun _ => d) ∧ d.circuit = s.dm.circuit
    ∧ (s.pumpEn = false → d = { s.dm with idle := min Config.idleLimit (s.dm.idle + 1) }) ∧ (s.pumpEn = true → d = s.dm) := by
  rw [idleSecond]
  cases s.pumpEn
  · exact ⟨_, if_neg nofun, rfl, fun _ => rfl, nofun⟩
  · exact ⟨_, if_pos rfl, rfl, nofun, fun _ => rfl⟩

theorem offerCounters_due (s : State) : JobStands s.offerCounters 10 ∨ s.offerCounters.st.countersPending = true := by
  rw [State.offerCounters]
  split
  · exact .inl (offer_stands ‹_›)
  · exact .inr rfl

/-! ### What offers to the store keep -/

/-- A property of the tables and the queue that no offer and no counters-pending mark takes away (R194, R200). -/
def Offerable (P : St → Prop) : Prop := (∀ (s : State) page, P s.st → P (s.offer page).st) ∧ ∀ q, P q → P { q with countersPending := true }

section
variable {P : St → Prop} (hP : Offerable P)
include hP

theorem Offerable.offerCounters (h : P s.st) : P s.offerCounters.st := by
  rw [State.offerCounters]
  split
  · exact hP.1 _ _ h
  · exact hP.2 _ h

theorem Offerable.histAppend (r : Record) (h : P s.st) : P (Machine.histAppend r s).st := by
  simp only [Machine.histAppend, offerHistory]
  split
  · exact hP.1 _ _ h
  · exact h

theorem Offerable.recorded (src : Source) (detail : Nat) (h : P s.st) : P (Machine.recorded src detail s).st := by
  have hst := (raiseCondition_told src (raiseRecord src detail (raiseEscalation src s))).2
  rw [Machine.recorded, hst, raiseRecord_eq, raiseEscalation_eq]
  dsimp only
  split
  · exact hP.histAppend _ h
  · exact h

theorem Offerable.lockoutPath (src : Source) (h : P s.st) : P (Machine.lockoutPath src s).st := by
  have hentry : ∀ v : State, P v.st → P (lockoutEntry src v).st := fun v hv => by
    rwa [(still_fields (lockoutEntry_still src v)).2.2.2.2.2.2.2.2.1]
  simp only [Machine.lockoutPath]
  split
  · exact hentry _ (hP.offerCounters (hP.1 _ _ h))
  · exact hentry _ h
  · exact hP.1 _ _ h

theorem Offerable.raiseClass (src : Source) (h : P s.st) : P (Machine.raiseClass src s).st := by
  simp only [Machine.raiseClass]
  split
  · exact h
  · split
    · exact hP.lockoutPath src h
    · split
      · exact hP.lockoutPath src (hP.histAppend _ h)
      · exact h

theorem Offerable.fmRaise (src : Source) (detail : Nat) (h : P s.st) : P (Machine.fmRaise src detail s).st := by
  obtain ⟨p, hp⟩ := fmRaise_eq src detail s
  have hst := (still_fields (fmSync_still (Machine.raiseClass src (Machine.recorded src detail s)))).2.2.2.2.2.2.2.2.1
  rw [hp, State.onPe_st, hst]
  exact hP.raiseClass src (hP.recorded src detail h)

theorem Offerable.preCheckRelay (before : State) (r : Relay) (h : P s.st) : P (Machine.preCheckRelay before s r).st := by
  rw [Machine.preCheckRelay]
  split
  · refine hP.fmRaise _ _ ?_
    rw [(faultStop_fields _).1]
    cases r <;> exact h
  · exact h

theorem Offerable.leaveStandby (h : P s.st) : P (Machine.leaveStandby s).st := by
  rw [Machine.leaveStandby]
  split
  · have hst := (still_fields (bsMove_still .preCheck .fault false s)).2.2.2.2.2.2.2.2.1
    have hm : P (bsMove .preCheck .fault false s).st := by rwa [hst]
    have hw : ∀ (w : State) tp, P w.st → P ((setFanTarget 0 w).onBs fun b => { b with retry := false, tPchk := tp }).st := fun _ _ h => h
    rw [toPreCheck, relayCheck]
    split
    · exact hP.preCheckRelay _ _ (hP.preCheckRelay _ _ (hw _ _ hm))
    · exact hw _ _ hm
  · exact h

/-- What no offer takes away stands at the end of the event, if the start of a page write does not take it away (R195). -/
theorem Offerable.settle (hw : ∀ v : State, P v.st → P (startWrite v).st) (h : P s.st) : P (Machine.settle s).st := by
  have hl := hP.leaveStandby h
  rw [Machine.settle]
  refine hw _ ?_
  rw [idleSync]
  split <;> exact hl
end

theorem offerable_pending : Offerable fun q => q.countersPending = true := by
  refine ⟨fun s page h => ?_, fun _ _ => rfl⟩
  rw [offer_still]
  exact h

/-- No waiting job belongs to a commit sequence (R196). -/
def NoCommit (q : St) : Prop := ∀ j ∈ q.jobs, j.commit = false

theorem offerable_noCommit : Offerable NoCommit := by
  refine ⟨fun s page h => ?_, fun _ h => h⟩
  simp only [State.offer]
  split
  · exact h
  · split
    · exact h
    · intro j hj
      rcases List.mem_append.1 hj with hj | hj
      · exact h j hj
      · rw [List.mem_singleton.1 hj]

theorem startWrite_noCommit (h : NoCommit s.st) : NoCommit (startWrite s).st := by
  simp only [startWrite]
  split
  · exact h
  · split
    · exact h
    · cases hj : s.st.jobs with
      | nil => exact h
      | cons j r => exact fun k hk => h k (by rw [hj]; exact .tail _ hk)

theorem startWrite_pending (h : s.st.countersPending = true) : (startWrite s).st.countersPending = true := by
  rw [startWrite_eq]
  exact h

theorem offerCounters_eq (s : State) : s.offerCounters = { s with st := { s.st with
    jobs := s.offerCounters.st.jobs, lockJob := s.offerCounters.st.lockJob
    countersPending := s.offerCounters.st.countersPending } } := by
  rw [State.offerCounters]
  split
  · rw [offer_still]
  · rfl

/-- With the pump off the end of an event leaves the idle timer alone (R77). -/
theorem settle_idle (h : s.pumpEn = false) : (settle s).dm.idle = s.dm.idle := by
  have hpump := leaveStandby_pump s
  have hacts : Acts false (fun x => x = .raise .gasRelay) s (leaveStandby s) := leaveStandby_acts (.inl rfl) .refl
  have hrec : (leaveStandby s).record .lowPressure = s.record .lowPressure := by
    refine record_of_about ?_
    rcases hacts.about .lowPressure with h' | h' | h' | h' | h'
    · cases h'
    · cases h'
    · cases h'.1
    · cases h'
    · exact h'
  rw [settle, startWrite_eq]
  generalize leaveStandby s = v at *
  simp only [Dm.pump, Prod.mk.injEq] at hpump
  obtain ⟨hi, -, ho, hc, hdraw⟩ := hpump
  have hoff : (v.pumpWanted && (v.record .lowPressure).isNone) = false := by
    have hw : v.pumpWanted = s.pumpWanted := by simp only [State.pumpWanted, ho, hc, hdraw]
    rw [hrec, hw]
    simp only [State.pumpEn, Bool.and_eq_false_iff, Bool.or_eq_false_iff] at h
    simp only [Bool.and_eq_false_iff]
    exact h.imp And.left id
  rw [idleSync, hoff]
  exact hi

theorem getD_countUp_zero {n : Nat} (h : n ≠ 0) (l : List Nat) : (countUp n l).getD 0 0 = l.getD 0 0 :=
  getD_updateAt_ne _ _ _ (Ne.symm h)

/-- Settles O41. -/
theorem secondsAreCounted : Obligations.SecondsAreCounted := by
  unfold Obligations.SecondsAreCounted
  intro s hp hlen
  have hexec : exec .powerOnSecond s = .next (settle (secondStep s)) := exec_on (c := .powerOnSecond) nofun hp
  let c := (secondClock s).bump 0
  obtain ⟨d, hd, hdc, hd0, hd1⟩ := idleSecond_eq c
  let v := (c.onDm fun _ => d).onSt fun q => { q with counters := runCounted s.bs.state s.dm.circuit (countUp 0 s.st.counters) }
  let w := if v.time % 900 = 0 then v.offerCounters else v
  have hw : secondStep s = w := by
    have hv : runSecond (idleSecond c) = v := by
      rw [hd, runSecond_eq]
      show ((c.onDm fun _ => d).onSt fun q => { q with counters := runCounted s.bs.state d.circuit (countUp 0 s.st.counters) }) = v
      rw [hdc]
      rfl
    show (if (runSecond (idleSecond c)).time % 900 = 0 then (runSecond (idleSecond c)).offerCounters else runSecond (idleSecond c)) = w
    rw [hv]
  have hkeep : w.st.counters = v.st.counters ∧ w.dm = v.dm ∧ w.clock = v.clock ∧ w.mp = v.mp ∧ w.zp = v.zp ∧ w.mg = v.mg
      ∧ w.nv = v.nv ∧ w.fm = v.fm := by
    simp only [w]
    split
    · rw [offerCounters_eq]
      exact ⟨rfl, rfl, rfl, rfl, rfl, rfl, rfl, rfl⟩
    · exact ⟨rfl, rfl, rfl, rfl, rfl, rfl, rfl, rfl⟩
  have hdue : v.time % 900 = 0 → JobStands w 10 ∨ w.st.countersPending = true := fun h => by
    simp only [w, if_pos h]
    exact offerCounters_due v
  have htime : v.time = min Config.counterMax (s.time + 1) := by
    have h0 : (countUp 0 s.st.counters).getD 0 0 = min Config.counterMax (s.time + 1) :=
      getD_updateAt_same _ _ (by rw [hlen]; decide)
    show (runCounted s.bs.state s.dm.circuit (countUp 0 s.st.counters)).getD 0 0 = _
    rw [← h0]
    by_cases hb : s.bs.state = .stabilise ∨ s.bs.state = .run
    · obtain ⟨c1, c2, c3⟩ := runCounted_burn s.dm.circuit (countUp 0 s.st.counters) hb
      cases hk : s.dm.circuit
      case ch | frost => rw [← hk, c1 (by rw [hk]; rfl), getD_countUp_zero (by decide), getD_countUp_zero (by decide)]
      case dhw => rw [← hk, c2 hk, getD_countUp_zero (by decide), getD_countUp_zero (by decide)]
      case none => rw [← hk, c3 hk, getD_countUp_zero (by decide)]
    · rw [runCounted_rest _ _ hb]
  have hcount : v.st.counters = runCounted s.bs.state s.dm.circuit (countUp 0 s.st.counters) := rfl
  have hclock : v.clock.now = max s.clock.now (s.clock.secondAt + Config.second) := rfl
  have hrest : v.mp = s.mp ∧ v.zp = s.zp ∧ v.mg = s.mg ∧ v.nv = s.nv ∧ v.fm = s.fm ∧ v.dm = d := ⟨rfl, rfl, rfl, rfl, rfl, rfl⟩
  rw [hw] at hexec
  clear_value w v
  obtain ⟨k1, k2, k3, k4, k5, k6, k7, k8⟩ := hkeep
  obtain ⟨r1, r2, r3, r4, r5, r6⟩ := hrest
  obtain ⟨b1, b2, b3, b4, -, -, b7⟩ := settle_blocks w
  have hct : (settle w).st.counters = v.st.counters := (settle_counters w).trans k1
  have htt : (settle w).time = v.time := by rw [State.time, hct]; rfl
  refine ⟨settle w, hexec, htt.trans htime, by rw [b4, k3, hclock], fun h => ?_, fun h => ⟨fun hc => ?_, fun hc => ?_, fun hc => ?_⟩,
    fun h => ?_, fun hoff => ?_, by rw [b3, k4, r1], by rw [b2, k5, r2], by rw [b1, k6, r3], by rw [b7, k7, r4]⟩
  · rw [hct, hcount, runCounted_rest _ _ (not_or.2 h)]
  · rw [hct, hcount, (runCounted_burn _ _ h).1 hc]
  · rw [hct, hcount, (runCounted_burn _ _ h).2.1 hc]
  · rw [hct, hcount, (runCounted_burn _ _ h).2.2 hc]
  · have hacts : Acts false (fun x => x ≠ .store) w (settle w) := settle_acts (.inl nofun) .refl
    exact (hdue (htt ▸ h)).imp (hacts.stands.resolve_left (fun h => h rfl) 10) (offerable_pending.settle fun _ => startWrite_pending)
  · have hdm := hd0 hoff
    have hwdm : w.dm = { s.dm with idle := min Config.idleLimit (s.dm.idle + 1) } := by rw [k2, r6, hdm]; rfl
    have hwoff : w.pumpEn = false := by
      rw [← hoff]
      simp only [State.pumpEn, State.pumpWanted, State.record, hwdm, k8, r5]
    rw [settle_idle hwoff, hwdm]

/-! ### Blocking timers -/

/-- No record of class BLOCKING stands, and BLOCKING is not in the start-inhibit set (R109). -/
def Unblocked (s : State) : Prop := (∀ r ∈ s.fm.active, r.cls ≠ .blocking) ∧ s.bs.inhibit.blocking = false

theorem fmSync_unblocked (h : ∀ r ∈ s.fm.active, r.cls ≠ .blocking) : Unblocked (fmSync s) := by
  have hb : s.hasBlocking = false := by simpa [State.hasBlocking] using h
  refine ⟨by rwa [fmSync_fm], ?_⟩
  rw [fmSync, if_neg (by rw [hb]; exact nofun)]
  rfl

theorem lockoutPath_active (src : Source) (s : State) : (lockoutPath src s).fm.active = s.fm.active := by
  obtain ⟨y, -, hy, -, -, e⟩ := lockoutPath_eq src s
  rw [e]
  split
  · exact hy
  · rw [lockoutEntry_fm, hy]

/-- A raising of a source of the safety set leaves no record BLOCKING where none was (R108). -/
theorem fmRaise_unblocked {src : Source} (detail : Nat) (hs : src.safety = true) (h : ∀ r ∈ s.fm.active, r.cls ≠ .blocking) :
    Unblocked (fmRaise src detail s) := by
  obtain ⟨p, hp⟩ := fmRaise_eq src detail s
  obtain ⟨h1, -⟩ := recorded_told src detail s
  have hrec : ∀ r ∈ (recorded src detail s).fm.active, r.cls ≠ .blocking := by
    intro r hr
    rw [h1, State.raisedList] at hr
    cases hrec : s.record src with
    | none =>
      rw [hrec] at hr
      rcases List.mem_append.1 hr with hr | hr
      · exact h r hr
      · rw [List.mem_singleton.1 hr]
        simp [State.raised, hrec, State.newClass, hs]
    | some q =>
      rw [hrec] at hr
      obtain ⟨x, hx, rfl⟩ := List.mem_map.1 hr
      split
      · exact h x hx
      · exact h x hx
  have hcls : ∀ r ∈ (raiseClass src (recorded src detail s)).fm.active, r.cls ≠ .blocking := by
    generalize recorded src detail s = v at *
    simp only [raiseClass]
    split
    · exact hrec
    · split
      · rw [lockoutPath_active]
        exact hrec
      · split
        · rw [lockoutPath_active, histAppend_active]
          intro r hr
          obtain ⟨x, hx, rfl⟩ := List.mem_map.1 hr
          split
          · exact nofun
          · exact hrec x hx
        · exact hrec
  rw [hp]
  exact fmSync_unblocked hcls

theorem preCheckRelay_unblocked {before : State} {r : Relay} (h : Unblocked s) : Unblocked (preCheckRelay before s r) := by
  rw [preCheckRelay]
  split
  · refine fmRaise_unblocked _ rfl ?_
    rw [(faultStop_fields _).2.1]
    cases r <;> exact h.1
  · exact h

theorem settle_unblocked (h : Unblocked s) : Unblocked (settle s) := by
  have hl : Unblocked (leaveStandby s) := by
    rw [leaveStandby]
    split
    · have hfm := (still_fields (bsMove_still .preCheck .fault false s)).2.2.2.2.1
      have hmemo := bsMove_memo .preCheck .fault false s
      simp only [Bs.memo, Prod.mk.injEq, Inhibit.mk.injEq] at hmemo
      have hm : Unblocked (bsMove .preCheck .fault false s) := ⟨by rw [hfm]; exact h.1, hmemo.2.2.2.2.2.2.1.trans h.2⟩
      have hw : ∀ w tp, Unblocked w → Unblocked ((setFanTarget 0 w).onBs fun b => { b with retry := false, tPchk := tp }) := fun _ _ h => h
      rw [toPreCheck, relayCheck]
      split
      · exact preCheckRelay_unblocked (preCheckRelay_unblocked (hw _ _ hm))
      · exact hw _ _ hm
    · exact h
  rw [settle]
  generalize leaveStandby s = v at *
  rw [startWrite_eq, idleSync]
  split <;> exact hl

/-- Settles O38. -/
theorem blockingTimerRemovesItsRecord : Obligations.BlockingTimerRemovesItsRecord := by
  unfold Obligations.BlockingTimerRemovesItsRecord
  intro s src d hp hd
  have hgas : src ≠ .gasRelay := by rintro rfl; cases hd
  have hnum : Source.ofNum src.num = some src := by cases src <;> rfl
  have heff : effect (.blockingTimerExpiry src.num) s s = s.due (s.fm.blockTimer src) (blockingExpired src) := by
    simp only [effect, hnum]
  have hexec : exec (.blockingTimerExpiry src.num) s = .next (settle (effect (.blockingTimerExpiry src.num) s s)) :=
    exec_on (c := .blockingTimerExpiry src.num) nofun hp
  rw [heff, hd] at hexec
  refine ⟨fun hdue => ?_, fun hdue hm => ?_⟩
  · let v := s.onFm fun f => f.setBlockTimer src none
    have hv : v.fm.blockTimer src = none := by cases src <;> rfl
    have hact : v.fm.active = s.fm.active := by cases src <;> rfl
    have hrec : v.record src = s.record src := by rw [State.record, hact]; rfl
    have hdue : s.due (some d) (blockingExpired src) = removeRecord src v := if_pos hdue
    rw [hdue] at hexec
    have hremoved := removeRecord_active src v
    have htimer : (removeRecord src v).fm.blockTimer src = v.fm.blockTimer src := by
      have hfm : (removeRecord src v).fm = { v.fm with active := (removeRecord src v).fm.active } := by
        have h := congrArg State.fm (removeRecord_still src v)
        exact h
      rw [hfm]
      cases src <;> rfl
    rw [hrec] at hremoved
    refine ⟨_, hexec, ?_, fun r hr hc => ⟨?_, fun hn => ?_⟩, fun r hr hc hm => ?_⟩
    · have h := congrArg Prod.snd (settle_about (s := removeRecord src v) hgas)
      exact h.trans (htimer.trans hv)
    · rw [record_of_about (settle_about hgas), State.record, hremoved, hr]
      simp [hc]
    · have hrem : removeRecord src v = fmLead (fmSync (v.onFm fun f => { f with active := f.active.filter fun x => x.source != src })) := by
        simp only [removeRecord, hrec, hr, hc, if_false]
      rw [hrem]
      refine (settle_unblocked (s := fmLead _) (fmSync_unblocked fun q hq => ?_)).2
      obtain ⟨hq, hne⟩ := List.mem_filter.1 hq
      exact hn q (hact ▸ hq) (by simpa using hne)
    · have hsame : removeRecord src v = v := by simp only [removeRecord, hrec, hr, hc, if_true]
      rw [hsame]
      exact settle_atEnd v hm
  · have hstay : s.due (some d) (blockingExpired src) = s := if_neg (Nat.not_le.2 hdue)
    rw [hstay] at hexec
    exact ⟨_, hexec, settle_atEnd s hm⟩

end Sys2Proof.Machine

/-! SUPPORT. The phases of a cycle: O34. -/

namespace Sys2Proof.Machine

variable {s u v : State}

/-! ### A burn that ends -/

theorem firing_rest {b : Bs} (h : b.state = .standby ∨ b.state = .postPurge) : firing b = false := by
  rcases h with h | h <;> simp [firing, h]

theorem unsynced_inhibit {a b : Bs} (h : a.unsynced = b.unsynced) : a.inhibit = b.inhibit := by
  have h := congrArg Bs.inhibit h
  exact h

/-- A burn that ends in STANDBY or POST_PURGE: DM's part of the report, then MU's return (R50, R73, R98). -/
theorem bsMove_return {st : BurnerState} (c : Cause) (o : Bool) (hf : firing s.bs = true) (hst : st = .standby ∨ st = .postPurge) :
    ∃ x, bsMove st c o s = muReturn (dmDeparture c o x) ∧ x.dm = s.dm ∧ x.mu = s.mu ∧ x.bs.inhibit = s.bs.inhibit := by
  have hne : ¬(st = .stabilise ∨ st = .run) := by rcases hst with rfl | rfl <;> exact nofun
  let w := (safeOff s).onBs fun b => { stopPhase b with state := st, fanDev := if st = .run then b.fanDev else 0 }
  have hoff : (safeOff s).dm = s.dm ∧ (safeOff s).mu = s.mu ∧ (safeOff s).bs.inhibit = s.bs.inhibit := by
    have hsync : ∀ v : State, v.dm = s.dm → v.mu = s.mu → v.bs.inhibit = s.bs.inhibit →
        (relaySync v).dm = s.dm ∧ (relaySync v).mu = s.mu ∧ (relaySync v).bs.inhibit = s.bs.inhibit := fun v h1 h2 h3 => by
      obtain ⟨h4, h5, h6⟩ := relaySync_unsynced v
      exact ⟨h5.trans h1, h6.trans h2, (unsynced_inhibit h4).trans h3⟩
    rw [safeOff, if_pos hf]
    exact hsync _ rfl rfl rfl
  have hstate : (dmDeparture c o w).bs.state = st := drive_state (dmDeparture_drive c o w)
  have hfw : firing w.bs = false := firing_rest hst
  have hfd : firing (dmDeparture c o w).bs = false := firing_rest (by rwa [hstate])
  refine ⟨w, ?_, hoff⟩
  have hmove : bsMove st c o s = bsReport true c o w := by simp only [bsMove, hf, hne, if_false, w]
  rw [hmove]
  simp only [bsReport, hfw, Bool.not_false, Bool.and_self, if_true, hfd, Bool.false_eq_true, if_false]
  rcases hst with rfl | rfl <;> simp only [hstate]

/-- A departure that is not an ordinary withdrawal starts no anti-cycle (R73). -/
theorem dmDeparture_quiet {c : Cause} {o : Bool} (h : ¬(c = .withdrawal ∧ o = false)) (s : State) :
    (dmDeparture c o s).dm = { s.dm with lastDeparture := some c, pumpOverrun := (dmDeparture c o s).dm.pumpOverrun }
      ∧ (dmDeparture c o s).mu = s.mu ∧ (dmDeparture c o s).bs = s.bs := by
  simp only [dmDeparture, h, if_false]
  split <;> exact ⟨rfl, rfl, rfl⟩

/-- The end of a burn in the OFF_PHASE of a cycle, not by an ordinary withdrawal, keeps the cycling record and the integrator (R73, R98). -/
theorem toPostPurge_cycling {c : Cause} {o : Bool} (r : Bool) (hf : firing s.bs = true) (hq : ¬(c = .withdrawal ∧ o = false))
    (hc : s.mu.cyc.state = .offPhase) : let t := toPostPurge c o r s
    t.mu = { s.mu with uPrev := 0, uOut := 0 } ∧ t.bs.inhibit = s.bs.inhibit
      ∧ t.dm = { s.dm with lastDeparture := some c, pumpOverrun := t.dm.pumpOverrun } := by
  obtain ⟨x, hx, hdm, hmu, hin⟩ := bsMove_return (st := .postPurge) c o hf (.inr rfl)
  obtain ⟨e1, e2, e3⟩ := dmDeparture_quiet hq x
  have hret : muReturn (dmDeparture c o x) = (dmDeparture c o x).onMu fun m => { m with uPrev := 0, uOut := 0 } :=
    if_pos (by rw [e2, hmu]; exact hc)
  intro t
  have ht : t.mu = { (dmDeparture c o x).mu with uPrev := 0, uOut := 0 } ∧ t.bs.inhibit = (dmDeparture c o x).bs.inhibit
      ∧ t.dm = (dmDeparture c o x).dm := by
    simp only [t, toPostPurge, hx, hret]
    exact ⟨rfl, rfl, rfl⟩
  obtain ⟨t1, t2, t3⟩ := ht
  refine ⟨by rw [t1, e2, hmu], by rw [t2, e3, hin], ?_⟩
  rw [t3, ← hdm]
  exact e1

/-- Settles O34. -/
theorem cyclePhasesWithdrawAndReleaseTheRequest : Obligations.CyclePhasesWithdrawAndReleaseTheRequest := by
  unfold Obligations.CyclePhasesWithdrawAndReleaseTheRequest
  intro s hp hch
  refine ⟨fun hc ha hb => ?_, fun hc hr hstop ha ho => ?_⟩
  · let v := (offPhaseStart ((passFrames (s.mu.cyc.remain / 100) s).onCyc fun c => { c with remain := 0 })).onDm
      fun d => { d with offPhase := true }
    let w := (v.onDm fun d => { d with active := activeOf d }).onBs fun b => { b with attempts := 0, recycles := 0, retry := false }
    have hoff : activeOf v.dm = false := by simp [activeOf, v, offPhaseStart, State.onCyc, passFrames, hch]
    have hrun : v.bs.state = .run := hb
    have heff : onPhaseTimeout s = toPostPurge .withdrawal true false w := by
      have h1 : deliverRecord true v = withdraw true (v.onDm fun d => { d with active := activeOf d }) := by
        refine if_pos ?_
        show (s.dm.active && !activeOf v.dm) = true
        rw [ha, hoff]
        rfl
      have h2 : withdraw true (v.onDm fun d => { d with active := activeOf d }) = toPostPurge .withdrawal true false w := by
        simp only [withdraw, State.onDm_bs, hrun, reduceCtorEq, false_and, if_false]
        simp only [w, State.onBs, State.onDm_bs, hrun]
      rw [← h2, ← h1]
      exact if_pos hc
    have hexec : exec .onPhaseExpiry s = .next (settle (toPostPurge .withdrawal true false w)) := by
      rw [← heff]
      exact exec_on (c := .onPhaseExpiry) nofun hp
    obtain ⟨hmu, hin, hdm⟩ := toPostPurge_cycling (s := w) false (by simp [firing, w, hrun, State.onBs, State.onDm]) nofun
      (c := .withdrawal) (o := true) rfl
    have hstate := toPostPurge_state .withdrawal true false w
    have hd := toPostPurge_drive .withdrawal true false w
    generalize toPostPurge .withdrawal true false w = x at *
    obtain ⟨hbs, -⟩ := settle_fields (s := x) (by rw [hstate]; decide)
    obtain ⟨hmu', hdm'⟩ := settle_quiet (s := x) (mayStart_of_state (by rw [hstate]; decide))
    obtain ⟨tp, hd⟩ := hd
    simp only [State.drive, Prod.mk.injEq, Bs.phase, Bs.mk.injEq] at hd
    obtain ⟨⟨-, hg1, hg2, -⟩, -⟩ := hd
    refine ⟨_, hexec, ?_⟩
    rw [hmu', hdm', hbs, hmu, hin, hdm]
    exact ⟨rfl, rfl, rfl, hoff, hstate, hg1, hg2, rfl, rfl, rfl⟩
  · let v := ((passFrames (s.mu.cyc.remain / 100) s).onCyc fun c => { c with remain := 0 }).onDm fun d => { d with offPhase := false }
    let w := v.onDm fun d => { d with active := activeOf d }
    have hact : activeOf v.dm = true := by simp [activeOf, v, State.onCyc, passFrames, hch, hstop]
    have heff : offPhaseTimeout s = w := by
      have h : deliverRecord false v = w := if_neg (by
        have hva : v.dm.active = false := ha
        rw [hva]
        exact nofun)
      rw [← h]
      exact if_pos ⟨hc, hr⟩
    have hexec : exec .offPhaseExpiry s = .next (settle w) := by
      rw [← heff]
      exact exec_on (c := .offPhaseExpiry) nofun hp
    have hstart : w.mayStart = (s.bs.state == .standby && !s.inhibited) := by
      show (s.bs.state == .standby && activeOf v.dm && !s.inhibited) = _
      rw [hact, Bool.and_true]
    have how : RelaysOpen w := ho
    have hwmu : w.mu.cyc = { s.mu.cyc with remain := 0 } := rfl
    have hwdm : w.dm.offPhase = false ∧ w.dm.active = true := ⟨rfl, hact⟩
    have hwbs : w.bs = s.bs := rfl
    clear_value w
    refine ⟨settle w, hexec, ?_⟩
    cases hm : w.mayStart with
    | false =>
      obtain ⟨hmu, hdm⟩ := settle_quiet hm
      obtain ⟨hbs, -⟩ := settle_held hm
      rw [hmu, hdm, hbs]
      refine ⟨hwmu, hwdm.1, hwdm.2, fun h1 h2 => ?_, fun _ => hwbs⟩
      rw [hstart, h1, h2] at hm
      cases hm
    | true =>
      obtain ⟨hbs, -, -, hmu, hdm⟩ := settle_started hm how
      rw [hmu, hdm, hbs]
      refine ⟨hwmu, hwdm.1, hwdm.2, fun _ _ => (toPreCheck_fields how).1, fun h => ?_⟩
      rw [hstart, beq_eq_false_iff_ne.2 h] at hm
      cases hm

end Sys2Proof.Machine

/-! SUPPORT. The end of a page write and its reports (R124, R125, R182, R183, R193): O59, O60. -/

namespace Sys2Proof.Machine

variable {s u v : State}

/-! ### Reports and re-offers -/

/-- Only offers to the store, and FM's re-offer marks and the write-outstanding mark, from `u` to `v`. -/
def Reoffered (u v : State) : Prop :=
  (∃ j l o a b c, v = { u with
    st := { u.st with jobs := j, lockJob := l }, fm := { u.fm with writeOut := o, reLock := a, reHist := b, rePages := c } })
  ∧ (NoCommit u.st → NoCommit v.st)

theorem Reoffered.refl : Reoffered u u := ⟨⟨_, _, _, _, _, _, rfl⟩, id⟩

theorem Reoffered.offer (page : Nat) (h : Reoffered u v) : Reoffered u (v.offer page) := by
  obtain ⟨⟨j, l, o, a, b, c, rfl⟩, hn⟩ := h
  refine ⟨?_, fun hu => offerable_noCommit.1 _ page (hn hu)⟩
  rw [offer_still]
  exact ⟨_, _, _, _, _, _, rfl⟩

theorem Reoffered.marks {o a b : Bool} {c : List Bool} (h : Reoffered u v) :
    Reoffered u (v.onFm fun f => { f with writeOut := o, reLock := a, reHist := b, rePages := c }) := by
  obtain ⟨⟨j, l, o', a', b', c', rfl⟩, hn⟩ := h
  exact ⟨⟨_, _, _, _, _, _, rfl⟩, hn⟩

theorem Reoffered.reofferPage (page : Nat) (h : Reoffered u v) : Reoffered u (Machine.reofferPage v page) := by
  rw [Machine.reofferPage]
  split
  · exact (h.offer page).marks
  · exact h

theorem Reoffered.fmReoffer (h : Reoffered u v) : Reoffered u (Machine.fmReoffer v) := by
  have hfold : ∀ (l : List Nat) (w : State), Reoffered u w → Reoffered u (l.foldl Machine.reofferPage w) := by
    intro l
    induction l with
    | nil => exact fun _ h => h
    | cons p r ih => exact fun w hw => ih _ (hw.reofferPage p)
  rw [Machine.fmReoffer]
  refine hfold _ _ ?_
  split
  · exact (h.offer 9).marks
  · exact h

theorem Reoffered.reofferLockout (page : Nat) (good : Bool) (h : Reoffered u v) : Reoffered u (Machine.reofferLockout page good v) := by
  rw [Machine.reofferLockout]
  split
  · exact (h.marks (o := true) (a := false)).offer 8
  · exact h

theorem Reoffered.fields (h : Reoffered u v) : v.bs = u.bs ∧ v.dm = u.dm ∧ v.lines = u.lines ∧ v.mg = u.mg ∧ v.nv = u.nv
    ∧ v.fm.active = u.fm.active ∧ v.fm.lockout = u.fm.lockout ∧ v.fm.esc = u.fm.esc
    ∧ v.st = { u.st with jobs := v.st.jobs, lockJob := v.st.lockJob } ∧ ∀ src, v.fm.about src = u.fm.about src := by
  obtain ⟨⟨j, l, o, a, b, c, rfl⟩, -⟩ := h
  exact ⟨rfl, rfl, rfl, rfl, rfl, rfl, rfl, rfl, rfl, fun src => by cases src <;> rfl⟩

/-! ### The completion of a lockout reset (R49, R124) -/

theorem resetComplete_fields (s : State) : let t := resetComplete s
    t.fm.lockout = {} ∧ (∀ r ∈ t.fm.active, r.cls ≠ .lockout) ∧ t.fm.esc = List.replicate 26 []
      ∧ t.bs.state = .standby ∧ t.bs.gas1 = false ∧ t.bs.gas2 = false ∧ t.bs.attempts = 0 ∧ t.bs.recycles = 0
      ∧ t.bs.retry = s.bs.retry ∧ t.lines = s.lines ∧ t.st = s.st ∧ t.mg = s.mg := by
  let x := (s.onFm fun f =>
    { f with lockout := {}, active := f.active.filter (fun r => r.cls != .lockout), esc := List.replicate 26 [] }).onBs
      fun b => { b with attempts := 0, recycles := 0 }
  have hstate := toStandby_state .lockout x
  have hmemo := toStandby_memo .lockout x
  have hdrive := toStandby_drive .lockout x
  obtain ⟨-, hlines, -, -, hfm, -, -, hmg, hst, -⟩ := still_fields (toStandby_still .lockout x)
  have ht : resetComplete s = fmLead (fmSync (toStandby .lockout x)) := rfl
  intro t
  have hx : x.fm.lockout = {} ∧ x.fm.active = s.fm.active.filter (fun r => r.cls != .lockout) ∧ x.fm.esc = List.replicate 26 []
      ∧ x.bs.attempts = 0 ∧ x.bs.recycles = 0 ∧ x.bs.retry = s.bs.retry ∧ x.lines = s.lines ∧ x.st = s.st ∧ x.mg = s.mg :=
    ⟨rfl, rfl, rfl, rfl, rfl, rfl, rfl, rfl, rfl⟩
  clear_value x
  obtain ⟨x1, x2, x3, x4, x5, x6, x7, x8, x9⟩ := hx
  generalize toStandby .lockout x = y at *
  have hsync : fmSync y = y.setBlocking y.hasBlocking := fmSync_resting (.inl hstate)
  have htt : t = fmLead (y.setBlocking y.hasBlocking) := by rw [← hsync]; exact ht
  simp only [State.drive, Prod.mk.injEq, Bs.phase, Bs.mk.injEq] at hdrive
  obtain ⟨⟨-, hg1, hg2, -⟩, -⟩ := hdrive
  simp only [Bs.memo, Prod.mk.injEq] at hmemo
  obtain ⟨m1, m2, m3, -⟩ := hmemo
  rw [htt]
  refine ⟨(congrArg Fm.lockout hfm).trans x1, fun r hr => ?_, (congrArg Fm.esc hfm).trans x3, hstate, hg1, hg2, m1.trans x4, m2.trans x5,
    m3.trans x6, hlines.trans x7, hst.trans x8, hmg.trans x9⟩
  have hr : r ∈ y.fm.active := hr
  rw [hfm, x2] at hr
  simpa using (List.mem_filter.1 hr).2

/-- FM's part of a report that completes no lockout reset (R116, R124). -/
theorem fmPage8_quiet {good : Bool} {c : LockState} (h : ¬(good = true ∧ c = .none ∧ s.fm.lockout.state = .resetPending)) :
    Reoffered s (fmPage8 good c s) := by
  have h1 : Reoffered s (if s.st.lockJob then s else s.onFm fun f => { f with writeOut := false }) := by
    split
    · exact .refl
    · exact Reoffered.refl.marks
  have hl := h1.fields.2.2.2.2.2.2.1
  simp only [fmPage8]
  generalize (if s.st.lockJob then s else s.onFm fun f => { f with writeOut := false }) = w at *
  split
  · rename_i hg
    rw [if_neg (by rw [hl]; exact fun hc => h ⟨hg, hc.1, hc.2⟩)]
    exact h1
  · split
    · exact h1.marks
    · exact h1

/-- FM's part of a report that completes a lockout reset (R124). -/
theorem fmPage8_reset (h : s.fm.lockout.state = .resetPending) :
    ∃ x, fmPage8 true .none s = resetComplete x ∧ Reoffered s x := by
  have h1 : Reoffered s (if s.st.lockJob then s else s.onFm fun f => { f with writeOut := false }) := by
    split
    · exact .refl
    · exact Reoffered.refl.marks
  have hl := h1.fields.2.2.2.2.2.2.1
  refine ⟨_, ?_, h1⟩
  simp only [fmPage8, if_true, true_and]
  exact if_pos (by rw [hl]; exact h)

/-- A report to FM leaves the tables, the staging image and a commit's waiting jobs alone. -/
theorem fmReport_store (w : Write) (good : Bool) (s : State) : let t := fmReport w good s
    t.mg = s.mg ∧ t.st = { s.st with jobs := t.st.jobs, lockJob := t.st.lockJob } ∧ (NoCommit s.st → NoCommit t.st) := by
  have hpage : ∃ x, Reoffered s x ∧ (if w.page = 8 then fmPage8 good w.carried s else s).st = x.st
      ∧ (if w.page = 8 then fmPage8 good w.carried s else s).mg = x.mg := by
    split
    · by_cases h : good = true ∧ w.carried = .none ∧ s.fm.lockout.state = .resetPending
      · obtain ⟨rfl, hc, hl⟩ := h
        obtain ⟨x, hx, hr⟩ := fmPage8_reset hl
        obtain ⟨-, -, -, -, -, -, -, -, -, -, hst, hmg⟩ := resetComplete_fields x
        rw [hc, hx]
        exact ⟨x, hr, hst, hmg⟩
      · exact ⟨_, fmPage8_quiet h, rfl, rfl⟩
    · exact ⟨s, .refl, rfl, rfl⟩
  obtain ⟨x, hx, hst, hmg⟩ := hpage
  have hr : Reoffered (if w.page = 8 then fmPage8 good w.carried s else s) (fmReport w good s) :=
    (Reoffered.refl.fmReoffer).reofferLockout _ _
  generalize (if w.page = 8 then fmPage8 good w.carried s else s) = y at *
  obtain ⟨-, -, -, a4, -, -, -, -, a9, -⟩ := hr.fields
  obtain ⟨-, -, -, b4, -, -, -, -, b9, -⟩ := hx.fields
  refine ⟨a4.trans (hmg.trans b4), ?_, fun hn => hr.2 (by rw [hst]; exact hx.2 hn)⟩
  rw [a9, hst, b9]

/-- The counters job offered again touches the queue and the counters-pending mark only (R200). -/
theorem reofferCounters_store (s : State) : ∃ j l c, reofferCounters s = { s with
    st := { s.st with jobs := j, lockJob := l, countersPending := c } } ∧ (NoCommit s.st → NoCommit (reofferCounters s).st) := by
  rw [reofferCounters]
  split
  · refine ⟨(s.offer 10).st.jobs, (s.offer 10).st.lockJob, false, ?_, fun h => offerable_noCommit.1 s 10 h⟩
    exact congrArg (fun v : State => v.onSt fun t => { t with countersPending := false }) (offer_still 10 s)
  · exact ⟨s.st.jobs, s.st.lockJob, s.st.countersPending, rfl, id⟩

/-- MG's re-offer of SETTINGS after its part of a report (R182). -/
theorem mgReport_store (w : Write) (good : Bool) (s : State) :
    let u := if w.commit then (if good then (if w.page = 7 then commitComplete s else s) else commitAbort w.page s) else s
    ∃ j l c, mgReport w good s = { u with st := { u.st with jobs := j, lockJob := l }, mg := { u.mg with reSettings := c } }
      ∧ (NoCommit u.st → NoCommit (mgReport w good s).st) := by
  intro u
  have e : mgReport w good s = if s.mg.reSettings && u.canTake 11 then (u.offer 11).onMg fun m => { m with reSettings := false } else u := rfl
  rw [e]
  clear_value u
  split
  · refine ⟨(u.offer 11).st.jobs, (u.offer 11).st.lockJob, false, ?_, fun h => offerable_noCommit.1 u 11 h⟩
    exact congrArg (fun v : State => v.onMg fun m => { m with reSettings := false }) (offer_still 11 u)
  · exact ⟨u.st.jobs, u.st.lockJob, u.mg.reSettings, rfl, id⟩

/-- A clear report in a burner at rest changes of BS the BLOCKING reason alone (R109, R112). -/
theorem fmClear_bs (src : Source) (h : Resting s) : (fmClear src s).bs = { s.bs with
    inhibit := { s.bs.inhibit with blocking := (fmClear src s).bs.inhibit.blocking } } := by
  simp only [fmClear, removeRecord]
  split
  · rfl
  · split
    · rfl
    · have hr : Resting ((s.clearCond src).onFm fun f => { f with active := f.active.filter fun x => x.source != src }) := h
      rw [fmSync_resting hr]
      rfl

/-- A completed page write, before its reports (R193, R197). -/
theorem writeGood_fields (w : Write) (s : State) : let t := writeGood w s
    t.fm.lockout = s.fm.lockout ∧ t.lines = s.lines ∧ t.mg = s.mg
      ∧ t.st = { s.st with write := none, storeFault := false }
      ∧ (Resting s → t.bs.state = s.bs.state ∧ t.bs.retry = s.bs.retry) := by
  let x := { s with nv := noteSlot w (s.nv.program (physPage w.page w.slotB) w.copy) }.onSt
    fun t => { t with write := none, storeFault := false }
  have ht : writeGood w s = if s.st.storeFault then fmClear .storeFault x else x := rfl
  have hx : x.fm.lockout = s.fm.lockout ∧ x.lines = s.lines ∧ x.mg = s.mg ∧ x.bs = s.bs
      ∧ x.st = { s.st with write := none, storeFault := false } := ⟨rfl, rfl, rfl, rfl, rfl⟩
  clear_value x
  obtain ⟨x1, x2, x3, x4, x5⟩ := hx
  intro t
  simp only [t, ht]
  split
  · obtain ⟨hst, hmg, -⟩ := fmClear_st .storeFault x
    have h := fmClear_still .storeFault x
    have hl := congrArg State.lines h
    have hf := congrArg (fun v => v.fm.lockout) h
    refine ⟨hf.trans x1, hl.trans x2, hmg.trans x3, hst.trans x5, fun hr => ?_⟩
    rw [fmClear_bs .storeFault (by rwa [Resting, x4]), x4]
    exact ⟨rfl, rfl⟩
  · exact ⟨x1, x2, x3, x5, fun _ => by rw [x4]; exact ⟨rfl, rfl⟩⟩

/-- The reports of a good write of page 8 that carried NONE, with a reset pending and no commit: the reset is complete, and the rest of the reports leaves BS, the list and the lockout record alone (R49, R124). -/
theorem writeReports_reset {w : Write} (h8 : w.page = 8) (hcar : w.carried = .none) (hcom : w.commit = false)
    (hpend : s.fm.lockout.state = .resetPending) : let t := writeReports w true s
    t.fm.lockout = {} ∧ (∀ r ∈ t.fm.active, r.cls ≠ .lockout) ∧ t.fm.esc = List.replicate 26 []
      ∧ t.bs.state = .standby ∧ t.bs.gas1 = false ∧ t.bs.gas2 = false ∧ t.bs.attempts = 0 ∧ t.bs.recycles = 0
      ∧ t.bs.retry = s.bs.retry ∧ t.lines = s.lines := by
  obtain ⟨x, hx, hsx⟩ := fmPage8_reset hpend
  have hrep : Reoffered (resetComplete x) (fmReport w true s) := by
    have h : Reoffered (if w.page = 8 then fmPage8 true w.carried s else s) (fmReport w true s) :=
      (Reoffered.refl.fmReoffer).reofferLockout _ _
    rwa [if_pos h8, hcar, hx] at h
  obtain ⟨c1, c2, c3, c4, c5, c6, c7, c8, c9, c10, -⟩ := resetComplete_fields x
  obtain ⟨f1, -, f3, -, -, f6, f7, f8, -⟩ := hrep.fields
  obtain ⟨x1, -, x3, -⟩ := hsx.fields
  obtain ⟨j, l, c, hm, -⟩ := mgReport_store w true (fmReport w true s)
  obtain ⟨j', l', c', hc, -⟩ := reofferCounters_store (mgReport w true (fmReport w true s))
  rw [if_neg (by rw [hcom]; exact nofun)] at hm
  have hend : (writeReports w true s).bs = (fmReport w true s).bs ∧ (writeReports w true s).fm = (fmReport w true s).fm
      ∧ (writeReports w true s).lines = (fmReport w true s).lines := by
    rw [writeReports]
    generalize mgReport w true (fmReport w true s) = m at *
    generalize fmReport w true s = y at *
    have hb := congrArg State.bs hc
    have hf := congrArg State.fm hc
    have hl := congrArg State.lines hc
    refine ⟨hb.trans ?_, hf.trans ?_, hl.trans ?_⟩ <;> rw [hm]
  obtain ⟨e1, e2, e3⟩ := hend
  intro t
  rw [e1, e2, e3, f1, f3, f6, f7, f8]
  exact ⟨c1, c2, c3, c4, c5, c6, c7, c8, by rw [c9, x1], by rw [c10, x3]⟩

/-- Settles O60. -/
theorem resetCompletionLeavesLockout : Obligations.ResetCompletionLeavesLockout := by
  unfold Obligations.ResetCompletionLeavesLockout
  intro s w hp hw h8 hcar hcom hpend hsafe hopen
  have hlock : s.bs.state = .lockout := hsafe.2.1.1 (by rw [hpend]; exact nofun)
  have hexec : exec (.pageWriteEnd true) s = .next (settle (writeReports w true (writeGood w (s.reach w.due)))) := by
    rw [exec_on (c := .pageWriteEnd true) nofun hp]
    have he : writeEnd true s = writeReports w true (writeGood w (s.reach w.due)) := by
      simp only [writeEnd, hw, if_true]
    rw [← he]
    rfl
  obtain ⟨g1, g2, -, -, g5⟩ := writeGood_fields w (s.reach w.due)
  obtain ⟨-, g6⟩ := g5 (.inr (.inr hlock))
  generalize writeGood w (s.reach w.due) = z at *
  obtain ⟨c1, c2, c3, c4, c5, c6, c7, c8, c9, c10⟩ := writeReports_reset (s := z) h8 hcar hcom (by rw [g1]; exact hpend)
  generalize writeReports w true z = r at *
  have hretry : r.bs.retry = s.bs.retry := c9.trans g6
  have hro : RelaysOpen r := by
    rw [RelaysOpen, c10, g2]
    exact hopen
  have hfm := (settle_still_fields (s := r) (.inr hro)).1
  refine ⟨settle r, hexec, by rw [hfm]; exact c1, by rw [hfm]; exact c2, by rw [hfm]; exact c3, ?_⟩
  have hinh : ∀ (d : Dm) (b : Bs), b.inhibit = r.bs.inhibit → d.circuit = r.dm.circuit →
      State.inhibited { settle r with dm := d, bs := { b with retry := s.bs.retry } } = r.inhibited := fun d b hb hd => by
    simp only [State.inhibited, hb, hd, hretry]
  cases hms : r.mayStart with
  | true =>
    obtain ⟨hbs, -, -, -, hdm⟩ := settle_started hms hro
    obtain ⟨p1, -, -, -, p5, p6, -, p8, p9, -, -, p12⟩ := toPreCheck_fields hro
    have hin := hinh (settle r).dm (settle r).bs (by rw [hbs, p12]) (by rw [hdm])
    simp only [State.mayStart, Bool.and_eq_true, Bool.not_eq_true'] at hms
    have hact : (settle r).dm.active = true := by rw [hdm]; exact hms.1.2
    refine ⟨?_, by rw [hbs, p8, c7], by rw [hbs, p9, c8], by rw [hbs, p5], by rw [hbs, p6]⟩
    rw [if_pos ⟨hact, hin.trans hms.2⟩, hbs, p1]
  | false =>
    obtain ⟨hbs, -⟩ := settle_held hms
    obtain ⟨-, hdm⟩ := settle_quiet hms
    have hin := hinh (settle r).dm (settle r).bs (by rw [hbs]) (by rw [hdm])
    have hact : (settle r).dm.active = r.dm.active := by rw [hdm]
    refine ⟨?_, by rw [hbs, c7], by rw [hbs, c8], by rw [hbs, c5], by rw [hbs, c6]⟩
    rw [if_neg, hbs, c4]
    rintro ⟨h1, h2⟩
    have h2' : r.inhibited = false := hin.symm.trans h2
    rw [hact] at h1
    simp only [State.mayStart, c4, h1, h2'] at hms
    cases hms

/-! ### The end of a write attempt -/

theorem commitComplete_fields (s : State) : let t := commitComplete s
    t.st.safety = s.mg.staging ∧ t.mg.commit = .done ∧ t.mg.inconsistent = false ∧ t.mg.modified = false
      ∧ t.bs.inhibit.commitHold = false ∧ t.st.paramFault = false ∧ t.st.storeFault = s.st.storeFault := by
  let x := s.onSt fun t => { t with safety := s.mg.staging, paramFault := false }
  let y := ((lowerCounts (reclampTchMax x)).onMg fun m => { m with commit := .done, inconsistent := false, modified := false }).setCommitHold false
  have hre : (reclampTchMax x).st.safety = x.st.safety ∧ (reclampTchMax x).st.paramFault = x.st.paramFault
      ∧ (reclampTchMax x).st.storeFault = x.st.storeFault := by
    have hcl : (clampTchMax x).st.safety = x.st.safety ∧ (clampTchMax x).st.paramFault = x.st.paramFault
        ∧ (clampTchMax x).st.storeFault = x.st.storeFault := by
      rw [clampTchMax]
      split <;> exact ⟨rfl, rfl, rfl⟩
    rw [reclampTchMax]
    split
    · split
      · rw [offer_still]
        exact hcl
      · exact hcl
    · exact ⟨rfl, rfl, rfl⟩
  have hy : y.st.safety = s.mg.staging ∧ y.mg.commit = .done ∧ y.mg.inconsistent = false ∧ y.mg.modified = false
      ∧ y.bs.inhibit.commitHold = false ∧ y.st.paramFault = false ∧ y.st.storeFault = s.st.storeFault :=
    ⟨hre.1, rfl, rfl, rfl, rfl, hre.2.1, hre.2.2⟩
  have ht : commitComplete s = if s.st.paramFault then fmClear .paramIntegrity y else y := rfl
  clear_value y
  intro t
  simp only [t, ht]
  split
  · obtain ⟨hst, hmg, -⟩ := fmClear_st .paramIntegrity y
    have hacts : Acts false (fun z => z = .clear .paramIntegrity) y (fmClear .paramIntegrity y) := fmClear_acts _ (.inl rfl) .refl
    rw [hst, hmg, hacts.commit.resolve_left nofun]
    exact hy
  · exact hy

/-- The reports of a write's end keep STORE_FAULT's marker and the last drop where no commit completes, and a commit's queue empty. -/
theorem writeReports_marks (w : Write) (good : Bool) (s : State) : let t := writeReports w good s
    t.st.storeFault = s.st.storeFault
      ∧ (good = true → w.commit = true → w.page = 7 → t.st.safety = s.mg.staging ∧ t.mg.commit = .done ∧ t.mg.inconsistent = false
          ∧ t.mg.modified = false ∧ t.bs.inhibit.commitHold = false ∧ t.st.paramFault = false)
      ∧ (good = false → t.st.lastDrop = s.st.lastDrop ∧ t.st.dropAt = s.st.dropAt ∧ (NoCommit s.st → NoCommit t.st)
          ∧ (w.commit = true → t.mg.commit = .failed ∧ t.mg.failedPage = some w.page ∧ t.mg.inconsistent = true
            ∧ t.bs.inhibit.commitHold = false)
          ∧ t.fm.active = s.fm.active) := by
  obtain ⟨f1, f2, f3⟩ := fmReport_store w good s
  have hact : good = false → (fmReport w good s).fm.active = s.fm.active := by
    rintro rfl
    have hr : Reoffered (if w.page = 8 then fmPage8 false w.carried s else s) (fmReport w false s) :=
      (Reoffered.refl.fmReoffer).reofferLockout _ _
    refine hr.fields.2.2.2.2.2.1.trans ?_
    split
    · exact (fmPage8_quiet (s := s) (by exact fun h => nomatch h.1)).fields.2.2.2.2.2.1
    · rfl
  obtain ⟨j, l, c, hm, hmn⟩ := mgReport_store w good (fmReport w good s)
  obtain ⟨j', l', c', hc, hcn⟩ := reofferCounters_store (mgReport w good (fmReport w good s))
  have hk := commitComplete_fields (fmReport w good s)
  intro t
  have ht : t = reofferCounters (mgReport w good (fmReport w good s)) := rfl
  clear_value t
  rw [← ht] at hc hcn
  generalize mgReport w good (fmReport w good s) = m at *
  generalize fmReport w good s = y at *
  have hst : y.st.storeFault = s.st.storeFault ∧ y.st.lastDrop = s.st.lastDrop ∧ y.st.dropAt = s.st.dropAt := by
    rw [f2]
    exact ⟨rfl, rfl, rfl⟩
  obtain ⟨k1, k2, k3, k4, k5, k6, k7⟩ := hk
  refine ⟨?_, fun hg hw h7 => ?_, fun hg => ?_⟩
  · rw [hc, hm]
    refine Eq.trans ?_ hst.1
    show (State.st (if _ then _ else _)).storeFault = _
    repeat' split
    · exact k7
    all_goals rfl
  · rw [if_pos hw, if_pos hg, if_pos h7] at hm
    rw [hc, hm]
    exact ⟨k1.trans (by rw [f1]), k2, k3, k4, k5, k6⟩
  · have hng : ¬good = true := by rw [hg]; exact nofun
    rw [if_neg hng] at hm hmn
    have hu : (if w.commit then commitAbort w.page y else y).st = y.st ∧ (if w.commit then commitAbort w.page y else y).fm = y.fm := by
      split <;> exact ⟨rfl, rfl⟩
    refine ⟨?_, ?_, fun hn => hcn (hmn (by rw [hu.1]; exact f3 hn)), fun hw => ?_, ?_⟩
    · rw [hc, hm]
      exact (congrArg St.lastDrop hu.1).trans hst.2.1
    · rw [hc, hm]
      exact (congrArg St.dropAt hu.1).trans hst.2.2
    · rw [if_pos hw] at hm
      rw [hc, hm]
      exact ⟨rfl, rfl, rfl, rfl⟩
    · rw [hc, hm]
      exact (congrArg Fm.active hu.2).trans (hact hg)

/-- A raising changes of the store the queue and the counters-pending mark only. -/
theorem fmRaise_store (src : Source) (detail : Nat) (s : State) : ∃ j l c,
    (fmRaise src detail s).st = { s.st with jobs := j, lockJob := l, countersPending := c } := by
  obtain ⟨y, p, ⟨f, j, l, c, rfl⟩, ⟨q, -, -, -, -, hcase⟩, -⟩ := fmRaise_cases src detail s
  refine ⟨j, l, c, ?_⟩
  rcases hcase with ⟨e, -⟩ | ⟨e, -⟩
  · rw [e, State.onPe_st, (still_fields (fmSync_still _)).2.2.2.2.2.2.2.2.1]
  · rw [e, State.onPe_st, (still_fields (fmSync_still _)).2.2.2.2.2.2.2.2.1, (still_fields (lockoutEntry_still _ _)).2.2.2.2.2.2.2.2.1]

theorem nv_of_stored (h : u.stored = v.stored) : u.nv = v.nv := by
  simp only [State.stored, Prod.mk.injEq] at h
  exact h.2.2

theorem noteSlot_read (w : Write) (m : Memory) : (∀ a, (noteSlot w m).read a = m.read a)
    ∧ ∀ p, (noteSlot w m).complete p = m.complete p := by
  rw [noteSlot]
  split <;> exact ⟨fun _ => rfl, fun _ => rfl⟩

/-- The end of an event keeps the store memory and the marks of the store's page writes. -/
theorem settle_store (s : State) : (settle s).nv = s.nv ∧ (settle s).mg = s.mg ∧ (settle s).st.storeFault = s.st.storeFault
    ∧ (settle s).st.lastDrop = s.st.lastDrop ∧ (settle s).st.dropAt = s.st.dropAt ∧ (settle s).st.safety = s.st.safety
    ∧ (settle s).st.paramFault = s.st.paramFault ∧ (settle s).bs.inhibit.commitHold = s.bs.inhibit.commitHold := by
  obtain ⟨b1, -, -, -, -, -, b7⟩ := settle_blocks s
  have hacts : Acts false (fun x => x = .raise .gasRelay) s (settle s) := settle_acts (.inl rfl) .refl
  have hc := hacts.commit.resolve_left nofun
  have ht := settle_tables s
  refine ⟨b7, b1, ?_, ?_, ?_, ?_, ?_, hc⟩ <;> rw [ht]

/-- Settles O59. -/
theorem pageWritesEndInTheStore : Obligations.PageWritesEndInTheStore := by
  unfold Obligations.PageWritesEndInTheStore
  intro s w hp hw hwf
  refine ⟨fun hlen => ?_, fun ha hm => ?_, fun ha => ?_⟩
  · have hexec : exec (.pageWriteEnd true) s = .next (settle (writeReports w true (writeGood w (s.reach w.due)))) := by
      rw [exec_on (c := .pageWriteEnd true) nofun hp]
      have he : writeEnd true s = writeReports w true (writeGood w (s.reach w.due)) := by
        simp only [writeEnd, hw, if_true]
      rw [← he]
      rfl
    obtain ⟨-, -, g3, g4, -⟩ := writeGood_fields w (s.reach w.due)
    have hnv : (writeGood w (s.reach w.due)).nv = noteSlot w (s.nv.program (physPage w.page w.slotB) w.copy) := by
      have h := (writeGood_stored w (s.reach w.due)).1
      simp only [State.stored, Prod.mk.injEq] at h
      exact h.2.2
    generalize writeGood w (s.reach w.due) = z at *
    have hrn : (writeReports w true z).nv = z.nv := nv_of_stored (writeReports_stored w true z)
    obtain ⟨r1, r2, -⟩ := writeReports_marks w true z
    generalize writeReports w true z = r at *
    obtain ⟨t1, t2, t3, -, -, t6, t7, t8⟩ := settle_store r
    obtain ⟨n1, n2⟩ := noteSlot_read w (s.nv.program (physPage w.page w.slotB) w.copy)
    rw [hrn, hnv] at t1
    refine ⟨settle r, hexec, fun i hi => ?_, fun a ha => ?_, ?_, ?_, fun hc h7 => ?_⟩
    · rw [t1, n1]
      exact Memory.program_read _ _ _ _ hwf hlen hi
    · rw [t1, n1]
      exact Memory.read_other s.nv _ _ _ _ a hwf (by simp) ha
    · rw [t1, n2, Memory.complete, Memory.program, statusRead_statusWrite_same _ 0 _ _ (Memory.wf_status hwf)]
    · rw [t3, r1, g4]
    · obtain ⟨e1, e2, e3, e4, e5, e6⟩ := r2 rfl hc h7
      rw [t2, t6, t7, t8]
      exact ⟨e1.trans (by rw [g3]; rfl), e2, e3, e4, e5, e6⟩
  · let u := (s.reach w.due).onSt fun t => { t with write := some { w with attempt := 2, due := max s.clock.now w.due + Config.tPage } }
    obtain ⟨t, ht, hend⟩ := exec_atEnd (c := .pageWriteEnd false) (u := u) nofun hp (by
      show writeEnd false s = u
      simp only [writeEnd, hw, ha, if_true, Bool.false_eq_true, if_false]
      rfl) hm
    have hstart : startWrite u = u := if_pos rfl
    have hst : t.st = u.st := by
      rw [hend, hstart]
    refine ⟨t, ht, hend, by rw [hst]; rfl, by rw [hst]; rfl, by rw [hst]; rfl, ?_⟩
    rw [hend]
    rfl
  · let x := ({ s.reach w.due with
        nv := s.nv.spoil (physPage w.page w.slotB) (.dropped s.free), free := s.free + 1 } : State).onSt fun t =>
      { t with
        write := none, storeFault := true, lastDrop := some w.page, dropAt := some s.time
        jobs := if w.commit then t.jobs.filter (fun j => !j.commit) else t.jobs }
    have he : writeEnd false s = writeReports w false (fmRaise .storeFault w.page x) := by
      simp only [writeEnd, hw, Nat.not_lt.2 ha, Bool.false_eq_true, if_false, writeDropped]
      rfl
    have hexec : exec (.pageWriteEnd false) s = .next (settle (writeEnd false s)) := exec_on (c := .pageWriteEnd false) nofun hp
    have hsafety : (writeEnd false s).st.safety = s.st.safety := writeEnd_safety nofun
    have hx : x.nv = s.nv.spoil (physPage w.page w.slotB) (.dropped s.free) ∧ x.st.storeFault = true
        ∧ x.st.lastDrop = some w.page ∧ x.st.dropAt = some s.time := ⟨rfl, rfl, rfl, rfl⟩
    have hxn : w.commit = true → NoCommit x.st := fun hc j hj => by
      have hj : j ∈ (if w.commit then s.st.jobs.filter (fun j => !j.commit) else s.st.jobs) := hj
      rw [if_pos hc] at hj
      simpa using (List.mem_filter.1 hj).2
    rw [he] at hexec hsafety
    clear_value x
    obtain ⟨x1, x2, x3, x4⟩ := hx
    obtain ⟨j, l, c, hst⟩ := fmRaise_store .storeFault w.page x
    have hnv : (fmRaise .storeFault w.page x).nv = x.nv := (base_fields (fmRaise_base .storeFault w.page x)).2.2.1
    have hrec := fmRaise_stands .storeFault w.page x
    have hnc : NoCommit x.st → NoCommit (fmRaise .storeFault w.page x).st := offerable_noCommit.fmRaise _ _
    generalize fmRaise .storeFault w.page x = z at *
    have hrn : (writeReports w false z).nv = z.nv := nv_of_stored (writeReports_stored w false z)
    obtain ⟨r1, -, r3⟩ := writeReports_marks w false z
    obtain ⟨r3, r4, r5, r6, r7⟩ := r3 rfl
    generalize writeReports w false z = r at *
    obtain ⟨t1, t2, t3, t4, t5, t6, t7, t8⟩ := settle_store r
    refine ⟨settle r, hexec, fun a ha => ?_, ?_, ?_, ?_, ?_, fun hc => ?_⟩
    · rw [t1, hrn, hnv, x1]
      exact Memory.spoil_read _ _ hwf ha
    · rw [t3, r1, hst, x2]
    · rw [t4, r3, hst, x3]
    · rw [t5, r4, hst, x4]
    · have h : Stands (settle r) .storeFault w.page := by
        obtain ⟨q, hq, hd⟩ := hrec
        refine ⟨q, ?_, hd⟩
        rw [record_of_about (settle_about (src := .storeFault) nofun), State.record, r7]
        exact hq
      exact h.mem
    · obtain ⟨e1, e2, e3, e4⟩ := r6 hc
      rw [t2, t6, t8]
      exact ⟨e1, e2, e3, e4, offerable_noCommit.settle (fun _ => startWrite_noCommit) (r5 (hnc (hxn hc))), hsafety⟩

end Sys2Proof.Machine

/-! SUPPORT. What a frame completion publishes, and the range check: O15, O16. -/

namespace Sys2Proof.Machine

variable {s u v : State}

/-! ### MP apart from its markers and timers -/

/-- MP's record without the markers and the frame-counted timers of the threshold events (R11, R19, R20). -/
def Mp.published (m : Mp) : Mp := { m with disagree := 0, lowP := false, highP := false, flueHigh := false, circ := 0 }

/-- The outer part of the state, the markers and timers of MP apart. -/
def State.gauge (s : State) : State := { s.outer with mp := s.mp.published }

theorem gauge_of_outer (h : u.outer = v.outer) : u.gauge = v.gauge := by
  rw [State.gauge, State.gauge, h, (outer_fields h).2.2.2.2.2.1]

theorem gauge_fields (h : u.gauge = v.gauge) : u.clock = v.clock ∧ u.lines = v.lines ∧ u.latch = v.latch
    ∧ u.mp.published = v.mp.published := by
  simp only [State.gauge, State.outer, State.mk.injEq] at h
  simp [h]

theorem fmRaise_gauge (src : Source) (detail : Nat) (s : State) : (fmRaise src detail s).gauge = s.gauge :=
  gauge_of_outer (fmRaise_outer src detail s)

theorem fmClear_gauge (src : Source) (s : State) : (fmClear src s).gauge = s.gauge := gauge_of_outer (fmClear_outer src s)

theorem faultStop_gauge (s : State) : (faultStop s).gauge = s.gauge := gauge_of_outer (faultStop_outer s)

theorem channelEvent_gauge (old : Mp) (s : State) (c : Chan) : (channelEvent old s c).gauge = s.gauge := by
  simp only [channelEvent]
  repeat' split
  · exact fmRaise_gauge _ _ _
  · rfl
  · exact fmClear_gauge _ _
  · rfl

theorem disagreeStep_gauge (s : State) : (disagreeStep s).gauge = s.gauge := by
  simp only [disagreeStep]
  repeat' split
  · exact fmRaise_gauge _ _ _
  · rfl
  · rfl
  · exact fmClear_gauge _ _
  · rfl

theorem lowPressureStep_gauge (s : State) : (lowPressureStep s).gauge = s.gauge := by
  simp only [lowPressureStep]
  repeat' split
  · exact fmRaise_gauge _ _ _
  · exact fmClear_gauge _ _
  · rfl

theorem highPressureStep_gauge (s : State) : (highPressureStep s).gauge = s.gauge := by
  simp only [highPressureStep]
  repeat' split
  · exact fmRaise_gauge _ _ _
  · exact fmClear_gauge _ _
  · rfl

theorem flueHighStep_gauge (s : State) : (flueHighStep s).gauge = s.gauge := by
  simp only [flueHighStep]
  repeat' split
  · exact (fmRaise_gauge _ _ _).trans (faultStop_gauge _)
  · exact fmClear_gauge _ _
  · rfl

theorem circulationStep_gauge (s : State) : (circulationStep s).gauge = s.gauge := by
  simp only [circulationStep, circulationReached]
  repeat' split
  · exact (fmRaise_gauge _ _ _).trans (faultStop_gauge _)
  · rfl
  · rfl

theorem measureEvents_gauge (old : Mp) (s : State) : (measureEvents old s).gauge = s.gauge := by
  have hfold : ∀ (l : List Chan) (v : State), (l.foldl (channelEvent old) v).gauge = v.gauge := by
    intro l
    induction l with
    | nil => exact fun _ => rfl
    | cons c r ih => exact fun v => (ih _).trans (channelEvent_gauge old v c)
  rw [measureEvents, circulationStep_gauge, flueHighStep_gauge, highPressureStep_gauge, lowPressureStep_gauge,
    disagreeStep_gauge, hfold]

/-! ### The frame -/

/-- The state in which a frame's samples are taken: the tables, the clock and LIMIT_IN of the frame (R1). -/
def framed (f : Frame) (s : State) : State := (latchTables (frameClock s)).onLines fun l => { l with limitOpen := f.limitOpen }

/-- The state after steps 1 to 4 of a frame completion (R1). -/
def measured (f : Frame) (s : State) : State := (measure f (framed f s)).onMp fun m => { m with firstFrame := true }

theorem frameMeasure_eq (f : Frame) (s : State) : frameMeasure f s = measureEvents s.mp (measured f s) := rfl

theorem exec_frame (f : Frame) (hp : s.power = .on) : exec (.frameCompletion f) s = .next (settle (frameStep f s)) :=
  exec_on (c := .frameCompletion f) nofun hp

/-- A frame completion keeps what MP has published in it, to the end of the event (R1). -/
theorem frame_published (f : Frame) (s : State) : let t := settle (frameStep f s)
    t.clock = (measured f s).clock ∧ t.lines = (measured f s).lines ∧ t.latch = (measured f s).latch
      ∧ t.mp.published = (measured f s).mp.published := by
  have ho : (frameStep f s).outer = (frameMeasure f s).outer := by simp [frameStep]
  have hg : (frameStep f s).gauge = (measured f s).gauge := by
    rw [gauge_of_outer ho, frameMeasure_eq, measureEvents_gauge]
  obtain ⟨h1, h2, h3, h4⟩ := gauge_fields hg
  obtain ⟨-, -, b3, b4, b5, b6, -⟩ := settle_blocks (frameStep f s)
  intro t
  rw [b3, b4, b5, b6]
  exact ⟨h1, h2, h3, h4⟩

theorem chan_of_published {m n : Mp} (h : m.published = n.published) (c : Chan) : m.chan c = n.chan c := by
  simp only [Mp.published, Mp.mk.injEq] at h
  cases c <;> simp [Mp.chan, h]

/-- A channel after a frame completion (R4, R5, R7, R9). -/
theorem frame_chan (f : Frame) (s : State) (c : Chan) : (settle (frameStep f s)).mp.chan c
    = rangeStep c.k (sampleOf f c) ((latchTables s).convert c (sampleOf f c)) (fittedStep (fitted s.st.settings c) (s.mp.chan c)) := by
  rw [chan_of_published (frame_published f s).2.2.2 c]
  cases c <;> rfl

/-- The outdoor value without a wired one: the node's while it is at most 600 s old, else the fixed one (R16). -/
theorem outdoorOf_none (s : State) :
    (∀ x r, s.pe.outdoor = some x → s.pe.outdoorAt = some r → s.time - r ≤ 600 → s.outdoorOf none = (x, .node))
      ∧ ((s.pe.outdoor = none ∨ s.pe.outdoorAt = none ∨ ∃ r, s.pe.outdoorAt = some r ∧ 600 < s.time - r) →
        s.outdoorOf none = (setToutFix s.latch.settings, .fixed)) := by
  simp only [State.outdoorOf]
  cases hx : s.pe.outdoor with
  | none => exact ⟨nofun, fun _ => rfl⟩
  | some y =>
    cases hr : s.pe.outdoorAt with
    | none => exact ⟨nofun, fun _ => rfl⟩
    | some q =>
      refine ⟨?_, ?_⟩
      · rintro x r ⟨⟩ ⟨⟩ hage
        exact if_pos hage
      · rintro (h | h | ⟨r, h, hage⟩)
        · cases h
        · cases h
        · cases h
          exact if_neg (Nat.not_le.2 hage)

/-- Settles O15. -/
theorem frameCompletionPublishesOneFrame : Obligations.FrameCompletionPublishesOneFrame := by
  unfold Obligations.FrameCompletionPublishesOneFrame
  intro f s hp
  obtain ⟨h1, h2, -, h4⟩ := frame_published f s
  have hchan := frame_chan f s
  refine ⟨_, exec_frame f hp, hchan, ?_⟩
  generalize settle (frameStep f s) = t at *
  have hout : t.mp.outdoor = (measured f s).mp.outdoor := chan_of_published h4 .outdoor
  have hA : t.mp.flowA = (measured f s).mp.flowA := chan_of_published h4 .flowA
  have hB : t.mp.flowB = (measured f s).mp.flowB := chan_of_published h4 .flowB
  simp only [Mp.published, Mp.mk.injEq] at h4
  have hpub : t.mp.pub = (measured f s).mp.pub := by simp [h4]
  have hdr : t.mp.dhwRing = (measured f s).mp.dhwRing := by simp [h4]
  have htr : t.mp.tachoRing = (measured f s).mp.tachoRing := by simp [h4]
  have hdc : t.mp.dhwCount = (measured f s).mp.dhwCount := by simp [h4]
  have htc : t.mp.tachoCount = (measured f s).mp.tachoCount := by simp [h4]
  have hfl : t.mp.flame = (measured f s).mp.flame := by simp [h4]
  have hset : (measured f s).mp.pub.outdoor = ((framed f s).outdoorOf (measured f s).mp.outdoor.value).1
      ∧ (measured f s).mp.pub.outdoorSource = ((framed f s).outdoorOf (measured f s).mp.outdoor.value).2 := ⟨rfl, rfl⟩
  obtain ⟨hnode, hfixed⟩ := outdoorOf_none (framed f s)
  rw [hpub, hdr, htr, hdc, htc, hfl, hout, hA, hB, h1, h2]
  refine ⟨rfl, rfl, rfl, rfl, rfl, rfl, fun hk => ?_, rfl, rfl, rfl, fun x hx => ?_, fun hx => ⟨fun x r ho hr hage => ?_, fun ho => ?_⟩, rfl, rfl⟩
  · show min 250 (quotNat _ _) = _
    rw [quotNat]
    exact congrArg (min 250) (if_neg hk)
  · rw [hset.1, hset.2, hx]
    exact ⟨rfl, rfl⟩
  · rw [hset.1, hset.2, hx, hnode x r ho hr hage]
    exact ⟨rfl, rfl⟩
  · rw [hset.1, hset.2, hx, hfixed ho]
    exact ⟨rfl, rfl⟩

/-! ### The range check -/

theorem fittedStep_fitted {r : Channel} (h : r.validity ≠ .notFitted) : fittedStep true r = r := if_neg h

/-- Settles O16: each cell of R4's table is a branch of the channel's step. -/
theorem rangeCheckFollowsTheTable : Obligations.RangeCheckFollowsTheTable := by
  unfold Obligations.RangeCheckFollowsTheTable
  intro f s c hp hfit r x out
  have hchan := frame_chan f s c
  rw [hfit] at hchan
  refine ⟨_, exec_frame f hp, ?_⟩
  rw [hchan]
  have hout : outOfRange (sampleOf f c) = out := rfl
  have hx : (latchTables s).convert c (sampleOf f c) = x := rfl
  have hr : s.mp.chan c = r := rfl
  rw [hx, hr]
  have hraw : (rangeStep c.k (sampleOf f c) x (fittedStep true r)).raw = sampleOf f c := by
    simp only [rangeStep]
    repeat' split
    all_goals rfl
  have hfs : r.validity ≠ .notFitted → fittedStep true r = r := fittedStep_fitted
  clear_value r x out
  refine ⟨hraw, fun hv ho => ?_, fun hv ho hn => ?_, fun hv ho hn => ?_, fun hv hu ho => ?_, fun hv hu ho => ?_,
    fun hv hu ho => ⟨fun hn => ?_, fun hn => ?_⟩, fun hv hu ho => ?_⟩
  all_goals rw [hfs (by rw [hv]; exact nofun)]
  · simp +contextual [rangeStep, Channel.value, filterStep, hv, hout, ho]
  · have hn : ¬2 ≤ r.outRun := Nat.not_le.2 hn
    simp [rangeStep, Channel.value, hv, hout, ho, hn]
  · simp [rangeStep, Channel.value, hv, hout, ho, hn]
  · simp [rangeStep, Channel.value, hv, hu, hout, ho]
  · simp [rangeStep, Channel.value, hv, hu, hout, ho]
  · simp [rangeStep, Channel.value, hv, hu, hout, ho, hn]
  · have hn : ¬2 ≤ r.inRun := Nat.not_le.2 hn
    simp [rangeStep, Channel.value, hv, hu, hout, ho, hn]
  · simp [rangeStep, Channel.value, hv, hu, hout, ho]

end Sys2Proof.Machine

/-! SUPPORT. The threshold and limit markers of a frame completion, and what they raise, stop and lock out (R19, R44, R45): O17. -/

namespace Sys2Proof.Machine

variable {s u v : State} {i : Bool} {p : Touch → Prop}

/-! ### The parts of a frame after a threshold event -/

/-- All that a frame may touch but the records of one source and the gas, which no part of a frame opens. -/
def Without (X : Source) (x : Touch) : Prop := x ≠ .raise X ∧ x ≠ .clear X ∧ x ≠ .unlock ∧ x ≠ .gas

/-- The frame after BS's supervision of LIMIT_IN and of flow_lim, with the end of the event. -/
def frameTail (first : Bool) (s : State) : State :=
  settle (startUpRemoval first (fanDeviationStep (fanControl
    (match s.bs.state with
    | .preCheck => preCheckStep s
    | .prePurge => purgeStep s
    | .standby | .ignition | .stabilise | .run | .postPurge | .lockout => s))))

/-- The frame from DM on. -/
def frameActs (s : State) : State := antiCycleCheck (muFrame (dmFrame s))

theorem frameStep_eq (f : Frame) (s : State) :
    settle (frameStep f s) = frameTail (!s.mp.firstFrame) (overheatStep (limitStep (frameActs (frameMeasure f s)))) := by
  have hbs : ∀ v w, w = overheatStep (limitStep v) → bsFrame v = fanDeviationStep (fanControl
      (match w.bs.state with
      | .preCheck => preCheckStep w
      | .prePurge => purgeStep w
      | .standby | .ignition | .stabilise | .run | .postPurge | .lockout => w)) := by
    rintro v _ rfl
    rfl
  rw [frameStep, hbs _ _ rfl, frameTail, frameActs]

theorem frameTail_acts (first : Bool) (hg : p (.raise .gasRelay)) (hf : p (.raise .fanDeviation)) (hu : p .startUp)
    (h : Acts false p u s) : Acts false p u (frameTail first s) := by
  refine settle_acts (.inl hg) (startUpRemoval_acts _ hu (fanDeviationStep_acts hf (fanControl_acts ?_)))
  split
  · exact preCheckStep_acts hg h
  · exact purgeStep_acts h
  all_goals exact h

theorem frameActs_acts (hd : p .demand) (hc : p .calls) (hw : p .draw) (hs : p .stage) (ho : p .output) (h : Acts false p u s) :
    Acts false p u (frameActs s) := antiCycleCheck_acts (muFrame_acts hs ho (dmFrame_acts hd hc hw h))

/-- The records of a source that no later part of the frame raises or clears stand to the end of the event. -/
theorem Acts.about_kept {X : Source} (h : Acts i (Without X) u v) (hx : X ≠ .zoneValve) : v.fm.about X = u.fm.about X := by
  rcases h.about X with h | h | h | h | h
  · exact absurd rfl h.1
  · exact absurd rfl h.2.1
  · exact absurd h.2 hx
  · exact absurd rfl h.2.2.1
  · exact h

section
variable {X : Source} (first : Bool)

theorem tail_without (h1 : X ≠ .gasRelay) (h2 : X ≠ .fanDeviation) : Acts false (Without X) s (frameTail first s) :=
  frameTail_acts first ⟨by rintro ⟨⟩; exact h1 rfl, nofun, nofun, nofun⟩ ⟨by rintro ⟨⟩; exact h2 rfl, nofun, nofun, nofun⟩
    ⟨nofun, nofun, nofun, nofun⟩ .refl

theorem overheat_without (h1 : X ≠ .gasRelay) (h2 : X ≠ .fanDeviation) (h3 : X ≠ .overheat) :
    Acts false (Without X) s (frameTail first (overheatStep s)) := by
  refine Acts.trans ?_ (tail_without first h1 h2)
  exact overheatStep_acts ⟨nofun, nofun, nofun, nofun⟩ ⟨by rintro ⟨⟩; exact h3 rfl, nofun, nofun, nofun⟩
    ⟨nofun, by rintro ⟨⟩; exact h3 rfl, nofun, nofun⟩ .refl

theorem acts_without (h1 : X ≠ .gasRelay) (h2 : X ≠ .fanDeviation) (h3 : X ≠ .overheat) (h4 : X ≠ .limitStat) :
    Acts false (Without X) s (frameTail first (overheatStep (limitStep (frameActs s)))) := by
  refine Acts.trans ?_ (overheat_without first h1 h2 h3)
  refine limitStep_acts ⟨nofun, nofun, nofun, nofun⟩ ⟨by rintro ⟨⟩; exact h4 rfl, nofun, nofun, nofun⟩
    ⟨nofun, by rintro ⟨⟩; exact h4 rfl, nofun, nofun⟩ ?_
  exact frameActs_acts ⟨nofun, nofun, nofun, nofun⟩ ⟨nofun, nofun, nofun, nofun⟩ ⟨nofun, nofun, nofun, nofun⟩
    ⟨nofun, nofun, nofun, nofun⟩ ⟨nofun, nofun, nofun, nofun⟩ .refl

theorem circulation_without (h1 : X ≠ .gasRelay) (h2 : X ≠ .fanDeviation) (h3 : X ≠ .overheat) (h4 : X ≠ .limitStat)
    (h5 : X ≠ .noCirculation) :
    Acts false (Without X) s (frameTail first (overheatStep (limitStep (frameActs (circulationStep s))))) :=
  (circulationStep_acts ⟨nofun, nofun, nofun, nofun⟩ ⟨by rintro ⟨⟩; exact h5 rfl, nofun, nofun, nofun⟩ .refl).trans
    (acts_without first h1 h2 h3 h4)

theorem flueHigh_without (h1 : X ≠ .gasRelay) (h2 : X ≠ .fanDeviation) (h3 : X ≠ .overheat) (h4 : X ≠ .limitStat)
    (h5 : X ≠ .noCirculation) (h6 : X ≠ .flueHigh) :
    Acts false (Without X) s (frameTail first (overheatStep (limitStep (frameActs (circulationStep (flueHighStep s)))))) :=
  (flueHighStep_acts ⟨nofun, nofun, nofun, nofun⟩ ⟨by rintro ⟨⟩; exact h6 rfl, nofun, nofun, nofun⟩
    ⟨nofun, by rintro ⟨⟩; exact h6 rfl, nofun, nofun⟩ .refl).trans (circulation_without first h1 h2 h3 h4 h5)

theorem highPressure_without (h1 : X ≠ .gasRelay) (h2 : X ≠ .fanDeviation) (h3 : X ≠ .overheat) (h4 : X ≠ .limitStat)
    (h5 : X ≠ .noCirculation) (h6 : X ≠ .flueHigh) (h7 : X ≠ .highPressure) :
    Acts false (Without X) s
      (frameTail first (overheatStep (limitStep (frameActs (circulationStep (flueHighStep (highPressureStep s))))))) :=
  (highPressureStep_acts ⟨nofun, nofun, nofun, nofun⟩ ⟨by rintro ⟨⟩; exact h7 rfl, nofun, nofun, nofun⟩
    ⟨nofun, by rintro ⟨⟩; exact h7 rfl, nofun, nofun⟩ .refl).trans (flueHigh_without first h1 h2 h3 h4 h5 h6)
end

/-! ### The markers -/

/-- The markers of the pressure and the flue. -/
def Mp.markers (m : Mp) : Bool × Bool × Bool := (m.lowP, m.highP, m.flueHigh)

theorem markers_of_outer (h : u.outer = v.outer) : u.mp.markers = v.mp.markers := by rw [(outer_fields h).2.2.2.2.2.1]

theorem fmRaise_markers (src : Source) (detail : Nat) (s : State) : (fmRaise src detail s).mp.markers = s.mp.markers :=
  markers_of_outer (fmRaise_outer src detail s)

theorem fmClear_markers (src : Source) (s : State) : (fmClear src s).mp.markers = s.mp.markers :=
  markers_of_outer (fmClear_outer src s)

theorem faultStop_markers (s : State) : (faultStop s).mp.markers = s.mp.markers := markers_of_outer (faultStop_outer s)

theorem channelEvent_markers (old : Mp) (s : State) (c : Chan) : (channelEvent old s c).mp.markers = s.mp.markers := by
  simp only [channelEvent]
  repeat' split
  · exact fmRaise_markers _ _ _
  · rfl
  · exact fmClear_markers _ _
  · rfl

theorem disagreeStep_markers (s : State) : (disagreeStep s).mp.markers = s.mp.markers := by
  simp only [disagreeStep]
  repeat' split
  · exact fmRaise_markers _ _ _
  · rfl
  · rfl
  · exact fmClear_markers _ _
  · rfl

theorem circulationStep_markers (s : State) : (circulationStep s).mp.markers = s.mp.markers := by
  simp only [circulationStep, circulationReached]
  repeat' split
  · exact (fmRaise_markers _ _ _).trans (faultStop_markers _)
  · rfl
  · rfl

/-- The marker after a look at a raise condition and a clear condition. -/
def markAfter (was raise clear : Bool) : Bool := if was then !clear else raise

theorem lowPressureStep_markers (s : State) : (lowPressureStep s).mp.markers
    = (markAfter s.mp.lowP (Value.lt s.mp.pressure.value s.lowPressure) (Value.ge s.mp.pressure.value s.recoverPressure),
      s.mp.highP, s.mp.flueHigh) := by
  simp only [lowPressureStep, markAfter]
  cases hm : s.mp.lowP <;> simp only [Bool.and_false, Bool.not_false, Bool.and_true, Bool.not_true, if_false, if_true, Bool.false_eq_true]
  all_goals split
  · rename_i h
    rw [fmRaise_markers, h]
    rfl
  · rename_i h
    rw [Bool.eq_false_iff.2 h, Mp.markers, hm]
  · rename_i h
    rw [fmClear_markers, h]
    rfl
  · rename_i h
    rw [Bool.eq_false_iff.2 h, Mp.markers, hm]
    rfl

theorem highPressureStep_markers (s : State) : (highPressureStep s).mp.markers
    = (s.mp.lowP, markAfter s.mp.highP (Value.gt s.mp.pressure.value 280) (Value.lt s.mp.pressure.value 260), s.mp.flueHigh) := by
  simp only [highPressureStep, markAfter]
  cases hm : s.mp.highP <;> simp only [Bool.and_false, Bool.not_false, Bool.and_true, Bool.not_true, if_false, if_true, Bool.false_eq_true]
  all_goals split
  · rename_i h
    rw [fmRaise_markers, h]
    rfl
  · rename_i h
    rw [Bool.eq_false_iff.2 h, Mp.markers, hm]
  · rename_i h
    rw [fmClear_markers, h]
    rfl
  · rename_i h
    rw [Bool.eq_false_iff.2 h, Mp.markers, hm]
    rfl

theorem flueHighStep_markers (s : State) : (flueHighStep s).mp.markers = (s.mp.lowP, s.mp.highP,
    markAfter s.mp.flueHigh (Value.ge s.mp.flue.value s.flueLimit) (Value.lt s.mp.flue.value ((s.flueLimit : Int) - 100))) := by
  simp only [flueHighStep, markAfter]
  cases hm : s.mp.flueHigh <;> simp only [Bool.and_false, Bool.not_false, Bool.and_true, Bool.not_true, if_false, if_true, Bool.false_eq_true]
  all_goals split
  · rename_i h
    rw [fmRaise_markers, faultStop_markers, h]
    rfl
  · rename_i h
    rw [Bool.eq_false_iff.2 h, Mp.markers, hm]
  · rename_i h
    rw [fmClear_markers, h]
    rfl
  · rename_i h
    rw [Bool.eq_false_iff.2 h, Mp.markers, hm]
    rfl

/-! ### The limit and overheat marks -/

/-- Nothing but BS's supervision of LIMIT_IN and of flow_lim touches its two marks (R44, R45). -/
def Markless (x : Touch) : Prop := x ≠ .marks ∧ x ≠ .unlock

theorem marks_kept (h : Acts i Markless u v) : v.bs.limitMark = u.bs.limitMark ∧ v.bs.overheatMark = u.bs.overheatMark := by
  have h := h.marks.resolve_left fun h => h.1 rfl
  simpa using h

theorem limitStep_marks (s : State) : (limitStep s).bs.limitMark = s.lines.limitOpen
    ∧ (limitStep s).bs.overheatMark = s.bs.overheatMark := by
  have hraise : ∀ x : State, Acts false Markless x (fmRaise .limitStat noDetail (faultStop x)) := fun x =>
    fmRaise_acts _ _ ⟨nofun, nofun⟩ (faultStop_acts .refl)
  have hclear : ∀ x : State, Acts false Markless x (fmClear .limitStat x) := fun x => fmClear_acts _ (.inl ⟨nofun, nofun⟩) .refl
  simp only [limitStep]
  split
  · rename_i h
    rw [Bool.and_eq_true] at h
    obtain ⟨h1, h2⟩ := marks_kept (hraise (s.onBs fun b => { b with limitMark := true }))
    rw [h1, h2, h.1]
    exact ⟨rfl, rfl⟩
  · rename_i hn
    split
    · rename_i h
      rw [Bool.and_eq_true, Bool.not_eq_true'] at h
      obtain ⟨h1, h2⟩ := marks_kept (hclear (s.onBs fun b => { b with limitMark := false }))
      rw [h1, h2, h.1]
      exact ⟨rfl, rfl⟩
    · rename_i hn'
      refine ⟨?_, rfl⟩
      cases h1 : s.lines.limitOpen <;> cases h2 : s.bs.limitMark
      · rfl
      · simp [h1, h2] at hn'
      · simp [h1, h2] at hn
      · rfl

theorem overheatStep_marks (s : State) : (overheatStep s).bs.limitMark = s.bs.limitMark
    ∧ (overheatStep s).bs.overheatMark = markAfter s.bs.overheatMark (Value.ge s.mp.pub.flowLim s.tLimit)
      (Value.lt s.mp.pub.flowLim ((s.tLimit : Int) - 150)) := by
  have hraise : ∀ x : State, Acts false Markless x (fmRaise .overheat noDetail (faultStop x)) := fun x =>
    fmRaise_acts _ _ ⟨nofun, nofun⟩ (faultStop_acts .refl)
  have hclear : ∀ x : State, Acts false Markless x (fmClear .overheat x) := fun x => fmClear_acts _ (.inl ⟨nofun, nofun⟩) .refl
  obtain ⟨r1, r2⟩ := marks_kept (hraise (s.onBs fun b => { b with overheatMark := true }))
  obtain ⟨c1, c2⟩ := marks_kept (hclear (s.onBs fun b => { b with overheatMark := false }))
  simp only [overheatStep, markAfter]
  cases hm : s.bs.overheatMark <;> simp only [Bool.and_false, Bool.not_false, Bool.and_true, Bool.not_true, if_false, if_true, Bool.false_eq_true]
  all_goals split
  · rename_i h
    rw [r1, r2, h]
    exact ⟨rfl, rfl⟩
  · rename_i h
    rw [Bool.eq_false_iff.2 h]
    exact ⟨rfl, hm⟩
  · rename_i h
    rw [c1, c2, h]
    exact ⟨rfl, rfl⟩
  · rename_i h
    rw [Bool.eq_false_iff.2 h]
    exact ⟨rfl, hm⟩

/-! ### What a marker that is set or cleared does -/

theorem lowPressureStep_raised (h : s.mp.lowP = false) (ht : (lowPressureStep s).mp.lowP = true) :
    Stands (lowPressureStep s) .lowPressure noDetail := by
  have hm := congrArg Prod.fst (lowPressureStep_markers s)
  have hc : Value.lt s.mp.pressure.value s.lowPressure = true := by simpa [Mp.markers, markAfter, h, ht] using hm.symm
  have he : lowPressureStep s = fmRaise .lowPressure noDetail (s.onMp fun m => { m with lowP := true }) :=
    if_pos (by rw [hc, h]; rfl)
  rw [he]
  exact fmRaise_stands _ _ _

/-- A clear report leaves no record of the source below LOCKOUT (R112). -/
theorem fmClear_locked {src : Source} (hs : ListSound s.fm.active) :
    ∀ r ∈ (fmClear src s).fm.active, r.source = src → r.cls = .lockout := by
  intro r hr hsrc
  have hact := removeRecord_active src (s.clearCond src)
  have hact : (fmClear src s).fm.active = _ := hact
  rw [hact] at hr
  have hrec : (s.clearCond src).record src = s.record src := rfl
  have hlist : (s.clearCond src).fm.active = s.fm.active := rfl
  rw [hrec, hlist] at hr
  cases hq : s.record src with
  | none =>
    rw [hq] at hr
    have hnone : s.fm.active.find? (fun r => r.source == src) = none := hq
    exact absurd hsrc (by simpa using List.find?_eq_none.1 hnone r hr)
  | some q =>
    rw [hq] at hr
    dsimp only at hr
    split at hr
    · rename_i hc
      have hsome : s.fm.active.find? (fun r => r.source == src) = some q := hq
      have hqs : q.source = src := by simpa using List.find?_some hsome
      have heq : r = q := List.inj_on_of_nodup_map hs.1 hr (List.mem_of_find?_eq_some hsome) (hsrc.trans hqs.symm)
      rw [heq, hc]
    · have := (List.mem_filter.1 hr).2
      rw [hsrc] at this
      simp at this

theorem lowPressureStep_cleared (hs : ListSound s.fm.active) (h : s.mp.lowP = true) (ht : (lowPressureStep s).mp.lowP = false) :
    ∀ r ∈ (lowPressureStep s).fm.active, r.source = .lowPressure → r.cls = .lockout := by
  have hm := congrArg Prod.fst (lowPressureStep_markers s)
  have hc : Value.ge s.mp.pressure.value s.recoverPressure = true := by simpa [Mp.markers, markAfter, h, ht] using hm.symm
  have he : lowPressureStep s = fmClear .lowPressure (s.onMp fun m => { m with lowP := false }) := by
    rw [lowPressureStep, if_neg (by rw [h, Bool.not_true, Bool.and_false]; exact nofun)]
    exact if_pos (by rw [hc, h]; rfl)
  rw [he]
  exact fmClear_locked (s := s.onMp fun m => { m with lowP := false }) hs

theorem highPressureStep_raised (h : s.mp.highP = false) (ht : (highPressureStep s).mp.highP = true) :
    Stands (highPressureStep s) .highPressure noDetail := by
  have hm := congrArg (fun m => m.2.1) (highPressureStep_markers s)
  have hc : Value.gt s.mp.pressure.value 280 = true := by simpa [Mp.markers, markAfter, h, ht] using hm.symm
  have he : highPressureStep s = fmRaise .highPressure noDetail (s.onMp fun m => { m with highP := true }) :=
    if_pos (by rw [hc, h]; rfl)
  rw [he]
  exact fmRaise_stands _ _ _

theorem flueHighStep_raised (hs : SafeOn s) (h : s.mp.flueHigh = false) (ht : (flueHighStep s).mp.flueHigh = true) :
    Stands (flueHighStep s) .flueHigh noDetail ∧ (flueHighStep s).bs.gas1 = false ∧ (flueHighStep s).bs.gas2 = false := by
  have hm := congrArg (fun m => m.2.2) (flueHighStep_markers s)
  have hc : Value.ge s.mp.flue.value s.flueLimit = true := by simpa [Mp.markers, markAfter, h, ht] using hm.symm
  let x := s.onMp fun m => { m with flueHigh := true }
  have he : flueHighStep s = fmRaise .flueHigh noDetail (faultStop x) := if_pos (by rw [hc, h]; rfl)
  have hx : SafeOn x := (safeOn_of_drive rfl).2 hs
  obtain ⟨g1, g2⟩ := safe_gas_resting (faultStop_safe x hx) (faultStop_rests x)
  have hacts : Acts false (Without .overheat) (faultStop x) (fmRaise .flueHigh noDetail (faultStop x)) :=
    fmRaise_acts _ _ ⟨nofun, nofun, nofun, nofun⟩ .refl
  rw [he]
  refine ⟨fmRaise_stands _ _ _, ?_, ?_⟩
  · exact Bool.eq_false_iff.2 fun h => absurd (g1.symm.trans (hacts.gas1.resolve_left (fun h => h.2.2.2 rfl) h)) nofun
  · exact Bool.eq_false_iff.2 fun h => absurd (g2.symm.trans (hacts.gas2.resolve_left (fun h => h.2.2.2 rfl) h)) nofun

/-- A raising of a source of the safety set locks out where the list is sound (R108). -/
theorem locksOut_of_sound {src : Source} (hs : ListSound s.fm.active) (h : src.safety = true) : LocksOut s src := by
  refine ⟨h, fun r hr => hs.2 r (List.mem_of_find?_eq_some hr) ?_⟩
  have hsrc : r.source = src := by simpa using List.find?_some hr
  rwa [hsrc]

theorem limitStep_raised (hs : SafeOn s) (hl : ListSound s.fm.active) (h : s.bs.limitMark = false) (ho : s.lines.limitOpen = true) :
    LockedOut (limitStep s) ∧ LockoutRecord (limitStep s) .limitStat noDetail := by
  let x := s.onBs fun b => { b with limitMark := true }
  have he : limitStep s = fmRaise .limitStat noDetail (faultStop x) := if_pos (by rw [h, ho]; rfl)
  rw [he]
  refine fmRaise_lockedOut _ (faultStop_safe x ((safeOn_of_drive rfl).2 hs)) (locksOut_of_sound ?_ rfl)
  rw [(faultStop_fields x).2.1]
  exact hl

theorem overheatStep_raised (hs : SafeOn s) (hl : ListSound s.fm.active) (h : s.bs.overheatMark = false)
    (ht : (overheatStep s).bs.overheatMark = true) :
    LockedOut (overheatStep s) ∧ LockoutRecord (overheatStep s) .overheat noDetail := by
  have hc : Value.ge s.mp.pub.flowLim s.tLimit = true := by
    have hm := (overheatStep_marks s).2
    simpa [markAfter, h, ht] using hm.symm
  let x := s.onBs fun b => { b with overheatMark := true }
  have he : overheatStep s = fmRaise .overheat noDetail (faultStop x) := if_pos (by rw [hc, h]; rfl)
  rw [he]
  refine fmRaise_lockedOut _ (faultStop_safe x ((safeOn_of_drive rfl).2 hs)) (locksOut_of_sound ?_ rfl)
  rw [(faultStop_fields x).2.1]
  exact hl

/-- A lockout and its record stand to the end of an event that does not touch them. -/
theorem lockedOut_kept {src : Source} {detail : Nat} (h : Acts i (Without src) u v) (hx : src ≠ .zoneValve) (hs : SafeOn v)
    (hu : LockedOut u ∧ LockoutRecord u src detail) : LockedOut v ∧ LockoutRecord v src detail := by
  obtain ⟨⟨-, -, -, -, hl⟩, r, hr, hsrc, hd, hc⟩ := hu
  refine ⟨lockedOut_of_safe hs (h.locked.resolve_left (fun h => h.2.2.1 rfl) hl), r, ?_, hsrc, hd, hc⟩
  have ha : (v.fm.active.filter fun r => r.source == src) = u.fm.active.filter fun r => r.source == src :=
    congrArg Prod.fst (h.about_kept hx)
  have hm : r ∈ u.fm.active.filter fun r => r.source == src := List.mem_filter.2 ⟨hr, by simp [hsrc]⟩
  rw [← ha] at hm
  exact (List.mem_filter.1 hm).1

/-! ### The frame as a whole -/

/-- The values that the threshold events look at (R19, R45). -/
theorem looked_of_published (hl : u.latch = v.latch) (hm : u.mp.published = v.mp.published) :
    u.mp.pressure = v.mp.pressure ∧ u.mp.flue = v.mp.flue ∧ u.mp.pub = v.mp.pub ∧ u.lowPressure = v.lowPressure
      ∧ u.recoverPressure = v.recoverPressure ∧ u.flueLimit = v.flueLimit := by
  have hp := chan_of_published hm .pressure
  have hf := chan_of_published hm .flue
  simp only [Mp.published, Mp.mk.injEq] at hm
  refine ⟨hp, hf, by simp [hm], ?_, ?_, ?_⟩ <;> simp only [State.lowPressure, State.recoverPressure, State.flueLimit, hl]

/-- The state after the fault events of the channels and of the two flow sensors. -/
def checked (f : Frame) (s : State) : State := disagreeStep (channels.foldl (channelEvent s.mp) (measured f s))

theorem frameMeasure_checked (f : Frame) (s : State) :
    frameMeasure f s = circulationStep (flueHighStep (highPressureStep (lowPressureStep (checked f s)))) := rfl

theorem measured_safe (f : Frame) (h : SafeOn s) : SafeOn (measured f s) := (safeOn_of_drive rfl).2 h

theorem checked_safe (f : Frame) (h : SafeOn s) : SafeOn (checked f s) :=
  disagreeStep_safe _ (foldl_safe _ (fun v c => channelEvent_safe s.mp v c) _ _ (measured_safe f h))

theorem checked_gauge (f : Frame) (s : State) : (checked f s).gauge = (measured f s).gauge := by
  have hfold : ∀ (l : List Chan) (v : State), (l.foldl (channelEvent s.mp) v).gauge = v.gauge := by
    intro l
    induction l with
    | nil => exact fun _ => rfl
    | cons c r ih => exact fun v => (ih _).trans (channelEvent_gauge s.mp v c)
  exact (disagreeStep_gauge _).trans (hfold _ _)

theorem checked_markers (f : Frame) (s : State) : (checked f s).mp.markers = s.mp.markers := by
  have hfold : ∀ (l : List Chan) (v : State), (l.foldl (channelEvent s.mp) v).mp.markers = v.mp.markers := by
    intro l
    induction l with
    | nil => exact fun _ => rfl
    | cons c r ih => exact fun v => (ih _).trans (channelEvent_markers s.mp v c)
  exact (disagreeStep_markers _).trans (hfold _ _)

theorem checked_sound (f : Frame) (h : ListSound s.fm.active) : ListSound (checked f s).fm.active :=
  have hacts : Acts false (fun _ => True) (measured f s) (checked f s) :=
    disagreeStep_acts trivial trivial trivial (Acts.foldl (fun c h => channelEvent_acts s.mp c trivial trivial h) _ .refl)
  hacts.sound h

theorem frameMeasure_gauge (f : Frame) (s : State) : (frameMeasure f s).gauge = (measured f s).gauge := by
  rw [frameMeasure_eq, measureEvents_gauge]

theorem frameActs_outer (s : State) : (frameActs s).outer = s.outer := by simp [frameActs]

/-- The markers of the pressure and the flue through a frame completion (R19). -/
theorem frame_markers (f : Frame) (s : State) : let t := settle (frameStep f s)
    t.mp.lowP = markAfter s.mp.lowP (Value.lt t.mp.pressure.value t.lowPressure) (Value.ge t.mp.pressure.value t.recoverPressure)
      ∧ t.mp.highP = markAfter s.mp.highP (Value.gt t.mp.pressure.value 280) (Value.lt t.mp.pressure.value 260)
      ∧ t.mp.flueHigh = markAfter s.mp.flueHigh (Value.ge t.mp.flue.value t.flueLimit)
        (Value.lt t.mp.flue.value ((t.flueLimit : Int) - 100)) := by
  intro t
  have hmp : t.mp = (frameMeasure f s).mp := by
    have ho : (frameStep f s).outer = (frameMeasure f s).outer := by simp [frameStep]
    exact (settle_blocks (frameStep f s)).2.2.1.trans (outer_fields ho).2.2.2.2.2.1
  obtain ⟨-, -, htl, htm⟩ := frame_published f s
  have g1 := checked_gauge f s
  have g2 := (lowPressureStep_gauge (checked f s)).trans g1
  have g3 := (highPressureStep_gauge (lowPressureStep (checked f s))).trans g2
  have looked : ∀ v : State, v.gauge = (measured f s).gauge → v.mp.pressure = t.mp.pressure ∧ v.mp.flue = t.mp.flue
      ∧ v.mp.pub = t.mp.pub ∧ v.lowPressure = t.lowPressure ∧ v.recoverPressure = t.recoverPressure
      ∧ v.flueLimit = t.flueLimit := fun v hv =>
    looked_of_published ((gauge_fields hv).2.2.1.trans htl.symm) ((gauge_fields hv).2.2.2.trans htm.symm)
  obtain ⟨p1, -, -, l1, r1, -⟩ := looked _ g1
  obtain ⟨p2, -, -, -, -, -⟩ := looked _ g2
  obtain ⟨-, f3, -, -, -, l3⟩ := looked _ g3
  have m0 := checked_markers f s
  have m1 := lowPressureStep_markers (checked f s)
  have m2 := highPressureStep_markers (lowPressureStep (checked f s))
  have m3 := flueHighStep_markers (highPressureStep (lowPressureStep (checked f s)))
  have m4 := circulationStep_markers (flueHighStep (highPressureStep (lowPressureStep (checked f s))))
  rw [p1, l1, r1] at m1
  rw [p2] at m2
  rw [f3, l3] at m3
  rw [← frameMeasure_checked, ← hmp] at m4
  clear_value t
  simp only [Mp.markers, Prod.mk.injEq] at m0 m1 m2 m3 m4
  simp [m0, m1, m2, m3, m4]

theorem frameActs_kept (f : Frame) (s : State) : (frameActs (frameMeasure f s)).bs.limitMark = s.bs.limitMark
    ∧ (frameActs (frameMeasure f s)).bs.overheatMark = s.bs.overheatMark
    ∧ (frameActs (frameMeasure f s)).gauge = (measured f s).gauge := by
  have h : Acts false Markless (measured f s) (frameActs (frameMeasure f s)) :=
    frameActs_acts ⟨nofun, nofun⟩ ⟨nofun, nofun⟩ ⟨nofun, nofun⟩ ⟨nofun, nofun⟩ ⟨nofun, nofun⟩
      (measureEvents_acts s.mp ⟨nofun, nofun⟩ (fun _ => ⟨nofun, nofun⟩) (fun _ => ⟨nofun, nofun⟩) .refl)
  obtain ⟨h1, h2⟩ := marks_kept h
  exact ⟨h1, h2, (gauge_of_outer (frameActs_outer _)).trans (frameMeasure_gauge f s)⟩

/-- The limit and overheat marks through a frame completion (R44, R45). -/
theorem frame_marks (f : Frame) (s : State) : let t := settle (frameStep f s)
    t.bs.limitMark = f.limitOpen ∧ t.bs.overheatMark = markAfter s.bs.overheatMark (Value.ge t.mp.pub.flowLim s.tLimit)
      (Value.lt t.mp.pub.flowLim ((s.tLimit : Int) - 150)) := by
  intro t
  let a := frameActs (frameMeasure f s)
  have htail : Acts false Markless (overheatStep (limitStep a)) t := by
    rw [show t = frameTail (!s.mp.firstFrame) (overheatStep (limitStep a)) from frameStep_eq f s]
    exact frameTail_acts _ ⟨nofun, nofun⟩ ⟨nofun, nofun⟩ ⟨nofun, nofun⟩ .refl
  obtain ⟨-, a2, ga⟩ := frameActs_kept f s
  obtain ⟨t1, t2⟩ := marks_kept htail
  obtain ⟨o1, o2⟩ := overheatStep_marks (limitStep a)
  obtain ⟨l1, l2⟩ := limitStep_marks a
  have gl : (limitStep a).gauge = (measured f s).gauge := (gauge_of_outer (limitStep_outer a)).trans ga
  have hpub : (limitStep a).mp.pub = t.mp.pub := by
    obtain ⟨-, -, htl, htm⟩ := frame_published f s
    exact (looked_of_published ((gauge_fields gl).2.2.1.trans htl.symm) ((gauge_fields gl).2.2.2.trans htm.symm)).2.2.1
  have hlim : (limitStep a).tLimit = s.tLimit := by
    have hst : (limitStep a).gauge.st = (measured f s).gauge.st := congrArg State.st gl
    simp only [State.gauge, State.outer, St.mk.injEq] at hst
    rw [show s.tLimit = (measured f s).tLimit from rfl]
    simp only [State.tLimit, State.liveValid, hst]
    rfl
  have hopen : a.lines.limitOpen = f.limitOpen := by
    have hlines := (gauge_fields ga).2.1
    rw [hlines]
    rfl
  rw [t1, o1, l1, hopen, t2, o2, l2, a2, hpub, hlim]
  exact ⟨rfl, rfl⟩

theorem stands_of_about {src : Source} {detail : Nat} (h : v.fm.about src = u.fm.about src) (hu : Stands u src detail) :
    Stands v src detail := by
  obtain ⟨r, hr, hd⟩ := hu
  exact ⟨r, (record_of_about h).trans hr, hd⟩

theorem mem_of_about {src : Source} (h : v.fm.about src = u.fm.about src) {r : Record} (hr : r ∈ v.fm.active)
    (hs : r.source = src) : r ∈ u.fm.active := by
  have ha : (v.fm.active.filter fun r => r.source == src) = u.fm.active.filter fun r => r.source == src := congrArg Prod.fst h
  have hm : r ∈ v.fm.active.filter fun r => r.source == src := List.mem_filter.2 ⟨hr, by simp [hs]⟩
  rw [ha] at hm
  exact (List.mem_filter.1 hm).1

theorem pumpEn_of_lowPressure {detail : Nat} (h : Stands s .lowPressure detail) : s.pumpEn = false := by
  obtain ⟨r, hr, -⟩ := h
  simp [State.pumpEn, hr]

/-- What the markers of a frame completion have done by the end of the event (R19, R44, R45). -/
theorem frame_markers_told (f : Frame) (hs : SafeOn s) (hl : ListSound s.fm.active) : let t := settle (frameStep f s)
    (s.mp.lowP = false → t.mp.lowP = true → Stands t .lowPressure noDetail)
      ∧ (s.mp.lowP = true → t.mp.lowP = false → ∀ r ∈ t.fm.active, r.source = .lowPressure → r.cls = .lockout)
      ∧ (s.mp.highP = false → t.mp.highP = true → Stands t .highPressure noDetail)
      ∧ (s.mp.flueHigh = false → t.mp.flueHigh = true →
          Stands t .flueHigh noDetail ∧ t.bs.gas1 = false ∧ t.bs.gas2 = false) := by
  intro t
  have hmp : t.mp = (frameMeasure f s).mp := by
    have ho : (frameStep f s).outer = (frameMeasure f s).outer := by simp [frameStep]
    exact (settle_blocks (frameStep f s)).2.2.1.trans (outer_fields ho).2.2.2.2.2.1
  let c1 := checked f s
  let c2 := lowPressureStep c1
  let c3 := highPressureStep c2
  let c4 := flueHighStep c3
  have ht : t = frameTail (!s.mp.firstFrame) (overheatStep (limitStep (frameActs (circulationStep c4)))) := frameStep_eq f s
  have h2 : Acts false (Without .lowPressure) c2 t := by
    rw [ht]
    exact highPressure_without _ nofun nofun nofun nofun nofun nofun nofun
  have h3 : Acts false (Without .highPressure) c3 t := by
    rw [ht]
    exact flueHigh_without _ nofun nofun nofun nofun nofun nofun
  have h4 : Acts false (Without .flueHigh) c4 t := by
    rw [ht]
    exact circulation_without _ nofun nofun nofun nofun nofun
  have s1 : SafeOn c1 := checked_safe f hs
  have s3 : SafeOn c3 := highPressureStep_safe _ (lowPressureStep_safe _ s1)
  have k1 : ListSound c1.fm.active := checked_sound f hl
  have m0 : c1.mp.markers = s.mp.markers := checked_markers f s
  have m1 := lowPressureStep_markers c1
  have m2 := highPressureStep_markers c2
  have m3 := flueHighStep_markers c3
  have m4 : t.mp.markers = c4.mp.markers := by
    rw [hmp]
    exact circulationStep_markers c4
  have b1 := lowPressureStep_raised (s := c1)
  have b2 := lowPressureStep_cleared k1
  have b3 := highPressureStep_raised (s := c2)
  have b4 := flueHighStep_raised s3
  rw [show lowPressureStep c1 = c2 from rfl] at m1 b1 b2
  rw [show highPressureStep c2 = c3 from rfl] at m2 b3
  rw [show flueHighStep c3 = c4 from rfl] at m3 b4
  clear_value c4 c3 c2 c1 t
  simp only [Mp.markers, Prod.mk.injEq] at m0 m1 m2 m3 m4
  obtain ⟨m01, m02, m03⟩ := m0
  obtain ⟨m41, m42, m43⟩ := m4
  refine ⟨fun h ht => ?_, fun h ht r hr hsrc => ?_, fun h ht => ?_, fun h ht => ?_⟩
  · refine stands_of_about (h2.about_kept nofun) (b1 (m01.trans h) ?_)
    rw [← ht, m41, m3.1, m2.1]
  · refine b2 (m01.trans h) ?_ r (mem_of_about (h2.about_kept nofun) hr hsrc) hsrc
    rw [← ht, m41, m3.1, m2.1]
  · refine stands_of_about (h3.about_kept nofun) (b3 ?_ ?_)
    · rw [m1.2.1, m02, h]
    · rw [← ht, m42, m3.2.1]
  · obtain ⟨hst, g1, g2⟩ := b4 (by rw [m2.2.2, m1.2.2, m03, h]) (by rw [← ht, m43])
    refine ⟨stands_of_about (h4.about_kept nofun) hst, ?_, ?_⟩
    · exact Bool.eq_false_iff.2 fun h => absurd (g1.symm.trans (h4.gas1.resolve_left (fun h => h.2.2.2 rfl) h)) nofun
    · exact Bool.eq_false_iff.2 fun h => absurd (g2.symm.trans (h4.gas2.resolve_left (fun h => h.2.2.2 rfl) h)) nofun

theorem frameActs_safe (f : Frame) (hs : SafeOn s) : SafeOn (frameActs (frameMeasure f s)) := by
  rw [frameActs]
  exact (safeOn_of_drive (antiCycleCheck_drive _)).2 (muFrame_safe _ (dmFrame_safe _ (frameMeasure_safe f s hs)))

theorem frameActs_sound (f : Frame) (hl : ListSound s.fm.active) : ListSound (frameActs (frameMeasure f s)).fm.active := by
  have h1 : Acts false (fun _ => True) (measured f s) (frameMeasure f s) :=
    measureEvents_acts s.mp trivial (fun _ => trivial) (fun _ => trivial) .refl
  have h2 : Acts false (fun _ => True) (frameMeasure f s) (frameActs (frameMeasure f s)) :=
    frameActs_acts trivial trivial trivial trivial trivial .refl
  exact h2.sound (h1.sound hl)

theorem limitStep_sound (hl : ListSound s.fm.active) : ListSound (limitStep s).fm.active :=
  (limitStep_acts (p := fun _ => True) trivial trivial trivial (.refl (s := s))).sound hl

/-- What the supervision of LIMIT_IN and of flow_lim has done by the end of a frame's event (R44, R45). -/
theorem tail_marks_told {first : Bool} (sa : SafeOn u) (ka : ListSound u.fm.active)
    (hv : v = frameTail first (overheatStep (limitStep u))) (hend : SafeOn v) :
    (u.bs.limitMark = false → u.lines.limitOpen = true → LockedOut v ∧ LockoutRecord v .limitStat noDetail)
      ∧ (u.bs.overheatMark = false → v.bs.overheatMark = true → LockedOut v ∧ LockoutRecord v .overheat noDetail) := by
  have hlimit : Acts false (Without .limitStat) (limitStep u) v := by
    rw [hv]
    exact overheat_without _ nofun nofun nofun
  have hover : Acts false (Without .overheat) (overheatStep (limitStep u)) v := by
    rw [hv]
    exact tail_without _ nofun nofun
  have htail : Acts false Markless (overheatStep (limitStep u)) v := by
    rw [hv]
    exact frameTail_acts _ ⟨nofun, nofun⟩ ⟨nofun, nofun⟩ ⟨nofun, nofun⟩ .refl
  refine ⟨fun h ho => lockedOut_kept hlimit nofun hend (limitStep_raised sa ka h ho), fun h hset => ?_⟩
  refine lockedOut_kept hover nofun hend (overheatStep_raised (limitStep_safe _ sa) (limitStep_sound ka) ?_ ?_)
  · exact (limitStep_marks u).2.trans h
  · exact (marks_kept htail).2.symm.trans hset

/-- Settles O17. -/
theorem frameThresholdsSetAndClearTheirMarkers : Obligations.FrameThresholdsSetAndClearTheirMarkers := by
  unfold Obligations.FrameThresholdsSetAndClearTheirMarkers
  intro f s hp hsafe hl
  have hs : SafeOn s := safeOn_of_safeBurner hsafe
  have hexec := exec_frame f hp
  have hend : SafeOn (settle (frameStep f s)) := safeOn_of_safeBurner (exec_safe _ s _ hsafe hexec)
  obtain ⟨m1, m2, m3⟩ := frame_markers f s
  obtain ⟨k1, k2⟩ := frame_marks f s
  obtain ⟨a1, a2, a3, a4⟩ := frame_markers_told f hs hl
  obtain ⟨b1, b2⟩ := tail_marks_told (frameActs_safe f hs) (frameActs_sound f hl) (frameStep_eq f s) hend
  obtain ⟨q1, q2, q3⟩ := frameActs_kept f s
  have q4 : (frameActs (frameMeasure f s)).lines.limitOpen = f.limitOpen := by
    rw [(gauge_fields q3).2.1]
    rfl
  rw [q1, q4] at b1
  rw [q2] at b2
  refine ⟨_, hexec, ?_⟩
  generalize settle (frameStep f s) = t at *
  refine ⟨fun h => ?_, fun h => ?_, fun h => ?_, fun h => ?_, fun h => ?_, fun h => ?_, fun h => ?_, fun h => ?_, k1,
    fun h ht => ⟨(a1 h ht).mem, pumpEn_of_lowPressure (a1 h ht)⟩, a2, fun h ht => ?_, fun h ht => ?_, b1, b2⟩
  · rw [m1, h]; rfl
  · rw [m1, h]; rfl
  · rw [m2, h]; rfl
  · rw [m2, h]; rfl
  · rw [m3, h]; rfl
  · rw [m3, h]; rfl
  · rw [k2, h]; rfl
  · rw [k2, h]; rfl
  · obtain ⟨r, hr, hsrc, -⟩ := (a3 h ht).mem
    exact ⟨r, hr, hsrc⟩
  · exact ⟨(a4 h ht).1.mem, (a4 h ht).2⟩

end Sys2Proof.Machine

/-! SUPPORT. The end of the draw and of the diverter's travel (R67, R68): O32. -/

namespace Sys2Proof.Machine

variable {s u v : State}

/-- Draw, diverter and frost mark stand through the refresh and the end of an event. -/
theorem refresh_settle_draw (s : State) : ((settle (refresh s)).dm.draw, (settle (refresh s)).dm.diverter,
    (settle (refresh s)).dm.frost) = (s.dm.draw, s.dm.diverter, s.dm.frost) := by
  have h : Acts false (· ≠ .draw) s (settle (refresh s)) := settle_acts (.inl nofun) (refresh_acts nofun .refl)
  exact h.draw.resolve_left fun h => h rfl

/-- A diverter at DHW that no draw wants there leaves for CH (R68). -/
theorem divertSync_leaves (hd : s.dm.draw.state = .idle) (h : s.dm.diverter.state = .atDhw) :
    (divertSync s).dm.diverter = { state := .toCh, pos := setTravel s.st.settings * Config.second
                                   travel := setTravel s.st.settings * Config.second, since := s.clock.now } := by
  simp [divertSync, h, hd]

theorem driven_power (h : AtEnd u v) : v.power = u.power ∧ v.dm.diverter = u.dm.diverter := by
  rw [h]
  exact ⟨rfl, rfl⟩

/-- A diverter that stands at an end is not driven (R68). -/
theorem undriven (h : s.dm.diverter.state = .atDhw ∨ s.dm.diverter.state = .atCh) : s.divA = false ∧ s.divB = false := by
  rcases h with h | h <;> simp [State.divA, State.divB, h]

theorem diverterArrived_toDhw {d : Diverter} (h : d.state = .toDhw) :
    diverterArrived d = { d with state := .atDhw, pos := d.travel } := by
  rw [diverterArrived, h]

theorem diverterArrived_toCh {d : Diverter} (h : d.state = .toCh) :
    diverterArrived d = { d with state := .atCh, pos := 0 } := by
  rw [diverterArrived, h]

/-- Settles O32. -/
theorem drawEndsAndTheDiverterTravels : Obligations.DrawEndsAndTheDiverterTravels := by
  unfold Obligations.DrawEndsAndTheDiverterTravels
  intro s d hp
  refine ⟨fun hd => ?_, fun hs hm => ?_, fun hs hm => ?_⟩
  · have hexec : exec .dhwOverrunExpiry s = .next (settle (overrunExpired (s.reach d))) :=
      exec_expire (c := .dhwOverrunExpiry) nofun rfl rfl hp hd
    have hpow : (settle (overrunExpired (s.reach d))).power = .on :=
      ((settle_acts (.inl trivial) (refresh_acts trivial .refl) :
        Acts false (fun _ => True) _ (settle (overrunExpired (s.reach d)))).power).trans hp
    rw [overrunExpired] at hexec hpow
    let w : State := (s.reach d).onDm fun d => { d with draw := { d.draw with state := .idle, startRun := 0, overrun := none } }
    have hdraw := refresh_settle_draw (divertSync w)
    simp only [Prod.mk.injEq] at hdraw
    obtain ⟨h1, h2, -⟩ := hdraw
    refine ⟨_, hexec, ?_⟩
    have hidle : (settle (refresh (divertSync w))).dm.draw.state = .idle := congrArg Draw.state h1
    have hover : (settle (refresh (divertSync w))).dm.draw.overrun = none := congrArg Draw.overrun h1
    have hleave := fun h => divertSync_leaves (s := w) rfl h
    clear hexec
    generalize settle (refresh (divertSync w)) = t at *
    refine ⟨hidle, hover, fun hat => ?_⟩
    have ht := h2.trans (hleave hat)
    refine ⟨ht, ?_, ?_⟩
    · simp [State.divB, hpow, ht]
    · simp [State.divA, ht]
  · obtain ⟨t, ht, ha⟩ := exec_atEnd (c := .diverterEndReached) nofun hp
      (u := (s.reach (s.dm.diverter.since + (s.dm.diverter.travel - s.dm.diverter.pos))).onDm fun m =>
        { m with diverter := { s.dm.diverter with state := .atDhw, pos := s.dm.diverter.travel } })
      (by
        have harr : s.dm.diverter.arrival = some (s.dm.diverter.since + (s.dm.diverter.travel - s.dm.diverter.pos)) := by
          rw [Diverter.arrival, hs]
        refine (State.expire_some harr divertEnded).trans ?_
        exact congrArg (fun q => (s.reach _).onDm fun m => { m with diverter := q }) (diverterArrived_toDhw hs)) hm
    exact ⟨t, ht, ha, undriven (.inl (congrArg Diverter.state (driven_power ha).2))⟩
  · obtain ⟨t, ht, ha⟩ := exec_atEnd (c := .diverterEndReached) nofun hp
      (u := (s.reach (s.dm.diverter.since + s.dm.diverter.pos)).onDm fun m =>
        { m with diverter := { s.dm.diverter with state := .atCh, pos := 0 } })
      (by
        have harr : s.dm.diverter.arrival = some (s.dm.diverter.since + s.dm.diverter.pos) := by
          rw [Diverter.arrival, hs]
        refine (State.expire_some harr divertEnded).trans ?_
        exact congrArg (fun q => (s.reach _).onDm fun m => { m with diverter := q }) (diverterArrived_toCh hs)) hm
    exact ⟨t, ht, ha, undriven (.inr (congrArg Diverter.state (driven_power ha).2))⟩

end Sys2Proof.Machine

/-! SUPPORT. What PE's continuation after an exchange leaves alone, and what a failed exchange leads to (R137, R141, R149). -/

namespace Sys2Proof.Machine

variable {s t u v : State}

/-! ### The poll engine's continuation -/

/-- The outer part of the state with the port's exchange and the poll engine's place in the round blotted out; the round's state, number and period stand. -/
def State.route (s : State) : State :=
  { s.outer with
    zp := { s.zp with exch := none, port := .off }
    pe := { s.outer.pe with
      portReady := false, round := { state := s.pe.round.state, number := s.pe.round.number, period := s.pe.round.period } } }

/-- `State.route` with the whole round blotted out. -/
def State.beyond (s : State) : State := { s.route with pe := { s.route.pe with round := {} } }

theorem route_of_outer (h : u.outer = v.outer) : u.route = v.route := by
  have hz := read_outer State.zp h fun _ => rfl
  have hr := read_outer (fun s => s.pe.round) h fun _ => rfl
  have hs : ∀ s : State, s.route = { s.outer with
      zp := { s.zp with exch := none, port := .off }
      pe := { s.outer.pe with portReady := false, round := { state := s.pe.round.state, number := s.pe.round.number, period := s.pe.round.period } } } := fun _ => rfl
  rw [hs, hs, h, hz, hr]

theorem beyond_of_route (h : u.route = v.route) : u.beyond = v.beyond := by rw [State.beyond, State.beyond, h]

theorem beyond_of_outer (h : u.outer = v.outer) : u.beyond = v.beyond := beyond_of_route (route_of_outer h)

theorem beyond_fields (h : u.beyond = v.beyond) : u.clock = v.clock ∧ u.lines = v.lines ∧ u.latch = v.latch ∧ u.mp = v.mp
    ∧ u.mg = v.mg ∧ u.nv = v.nv ∧ u.power = v.power ∧ u.pe.nodes = v.pe.nodes
    ∧ (u.pe.outdoor, u.pe.outdoorAt) = (v.pe.outdoor, v.pe.outdoorAt)
    ∧ { u.zp with exch := none, port := .off } = { v.zp with exch := none, port := .off } := by
  simp only [State.beyond, State.route, State.outer, State.mk.injEq, Pe.mk.injEq] at h
  simp only [Prod.mk.injEq]
  simp [h]

/-- The round's state, number and period. -/
def Round.beat (r : Round) : RoundState × Nat × Timer := (r.state, r.number, r.period)

theorem beat_of_route (h : u.route = v.route) : u.pe.round.beat = v.pe.round.beat := by
  simp only [State.route, State.mk.injEq, Pe.mk.injEq, Round.mk.injEq] at h
  simp [Round.beat, h]

section
variable (s : State)

@[simp] theorem zpRequest_route (node kind : Nat) (p : List Byte) (r : List Nat) : (zpRequest node kind p r s).route = s.route := by
  simp only [zpRequest]
  split <;> rfl

@[simp] theorem hand_route (f : InFlight) (node kind : Nat) (p : List Byte) (r : List Nat) :
    (hand f node kind p r s).route = s.route := (zpRequest_route _ node kind p r).trans rfl

@[simp] theorem noteOverflow_route (t : Taken) : (noteOverflow t s).route = s.route := by
  simp only [noteOverflow]
  split <;> rfl

@[simp] theorem handEntry_route (t : Taken) : (handEntry t s).route = s.route := by
  rw [handEntry, hand_route]
  exact noteOverflow_route s t

@[simp] theorem handServicePoll_route : (handServicePoll s).route = s.route := hand_route ..

@[simp] theorem valveResult_route (z : Nat) (p : Position) (r : ValveResult) : (valveResult z p r s).route = s.route :=
  route_of_outer (valveResult_outer z p r s)

@[simp] theorem reconcile_route : (reconcile s).route = s.route := route_of_outer (reconcile_outer s)
end

theorem afterService_route (s : State) : (afterService s).route = s.route := by
  simp only [afterService]
  repeat' split
  · exact handServicePoll_route _
  · exact handEntry_route _ _
  · rfl

theorem serveLow_route (low : Bool) (s : State) : (serveLow low s).route = s.route := by
  simp only [serveLow]
  repeat' split
  · exact hand_route ..
  all_goals exact afterService_route s

theorem serveZones_route (low : Bool) (zs : List Nat) (s : State) : (serveZones low zs s).route = s.route := by
  induction zs generalizing s with
  | nil => exact serveLow_route low s
  | cons z r ih =>
    simp only [serveZones]
    repeat' split
    · exact ih s
    · exact (ih _).trans (valveResult_route _ _ _ _)
    · exact hand_route ..

theorem servicePoint_route (s : State) : (servicePoint s).route = s.route := serveZones_route _ _ s

theorem passEnd_route (s : State) : (passEnd s).route = s.route := (servicePoint_route _).trans (reconcile_route _)

theorem takeUp_route (n : Nat) (t : Taken) (s : State) : (takeUp n t s).route = s.route := by
  induction n generalizing t s with
  | zero => rfl
  | succ n ih =>
    simp only [takeUp]
    repeat' split
    · exact servicePoint_route _
    · exact ih _ _
    · exact passEnd_route _

theorem startRound_beyond (s : State) : (startRound s).beyond = s.beyond := by
  simp only [startRound]
  split
  · rfl
  · exact (beyond_of_route (takeUp_route _ _ _)).trans rfl

theorem maybeStart_beyond (s : State) : (maybeStart s).beyond = s.beyond := by
  simp only [maybeStart]
  split
  · exact startRound_beyond s
  · rfl

theorem afterEntry_beyond (s : State) : (afterEntry s).beyond = s.beyond := by
  simp only [afterEntry]
  repeat' split
  · rfl
  · exact beyond_of_route (passEnd_route _)
  · exact beyond_of_route (takeUp_route _ _ _)
  · exact beyond_of_route (passEnd_route _)

/-- What PE does once the port is free touches no more than the exchange, the round, and what DM makes of dropped commands (R153). -/
theorem peContinue_beyond (f : InFlight) (s : State) : (peContinue f s).beyond = s.beyond := by
  have hz : ∀ (low : Bool) (l : List Nat) (u : State), (serveZones low l u).beyond = u.beyond := fun low l u =>
    beyond_of_route (serveZones_route low l u)
  simp only [peContinue]
  repeat' split
  · rfl
  · exact (afterEntry_beyond _).trans rfl
  · exact (maybeStart_beyond _).trans rfl
  · exact (hz _ _ _).trans rfl
  · rfl
  · exact (hz _ _ _).trans rfl
  · rfl

/-! ### The end of an event -/

/-- What the end of an event leaves alone in the port, PE and MG. -/
theorem settle_link (s : State) : (settle s).zp = s.zp ∧ (settle s).mg = s.mg ∧ (settle s).mp = s.mp ∧ (settle s).clock = s.clock
    ∧ (settle s).lines = s.lines ∧ (settle s).pe.round = s.pe.round ∧ (settle s).pe.nodes = s.pe.nodes
    ∧ (settle s).pe.portReady = s.pe.portReady := by
  obtain ⟨h1, h2, h3, h4, h5, -, -⟩ := settle_blocks s
  have h := congrArg State.pe (settle_outer s)
  simp only [State.outer, Pe.mk.injEq] at h
  exact ⟨h2, h1, h3, h4, h5, by simp [h], by simp [h], by simp [h]⟩

/-! ### Failed exchanges -/

theorem recordFailure_of_exch {r : Reason} {x : Exchange} (hx : s.zp.exch = some x) : recordFailure r s
    = exchangeOver (s.onZp fun z => { z with lastFail := some { reason := r, node := x.node, kind := x.kind, time := s.time } }) := by
  rw [recordFailure, hx]

theorem valveResult_link (z : Nat) (p : Position) (r : ValveResult) (s : State) : (valveResult z p r s).zp = s.zp
    ∧ (valveResult z p r s).clock = s.clock ∧ (valveResult z p r s).mg = s.mg ∧ (valveResult z p r s).pe.round = s.pe.round
    ∧ (valveResult z p r s).pe.nodes = s.pe.nodes := by
  have h := valveResult_outer z p r s
  exact ⟨read_outer State.zp h fun _ => rfl, read_outer State.clock h fun _ => rfl, read_outer State.mg h fun _ => rfl,
    read_outer (fun s => s.pe.round) h fun _ => rfl, read_outer (fun s => s.pe.nodes) h fun _ => rfl⟩

theorem fetchResult_pe (r : Result) (d : List Byte) (s : State) : (fetchResult r d s).pe = s.pe ∧ (fetchResult r d s).zp = s.zp
    ∧ (fetchResult r d s).clock = s.clock := by
  rw [fetchResult]
  split <;> exact ⟨rfl, rfl, rfl⟩

/-- A failure taken by PE leaves the port, the clock and the round alone, and of the nodes it touches what the miss touches (R149). -/
theorem takeFailure_link (f : InFlight) (a : Nat) (s : State) : (takeFailure f a s).zp = s.zp ∧ (takeFailure f a s).clock = s.clock
    ∧ (takeFailure f a s).pe.round = s.pe.round ∧ (takeFailure f a s).pe.nodes = (presenceMiss a s).pe.nodes := by
  obtain ⟨h1, h2, -, h4⟩ := presenceMiss_link a s
  cases f with
  | entry => exact ⟨h1, h2, h4, rfl⟩
  | servicePoll => exact ⟨h1, h2, h4, rfl⟩
  | valve z p =>
    obtain ⟨k1, k2, -, k4, k5⟩ := valveResult_link z p .failed (removeInFlight (presenceMiss a s))
    exact ⟨k1.trans h1, k2.trans h2, k4.trans h4, k5⟩
  | proxy =>
    obtain ⟨k1, k2, k3⟩ := fetchResult_pe .noAnswer [] (removeInFlight (presenceMiss a s))
    refine ⟨k2.trans h1, k3.trans h2, ?_, ?_⟩
    · exact (show (fetchResult .noAnswer [] (removeInFlight (presenceMiss a s))).pe.round = _ by rw [k1]; rfl).trans h4
    · exact show (fetchResult .noAnswer [] (removeInFlight (presenceMiss a s))).pe.nodes = _ by rw [k1]; rfl

theorem nodeLive_onNode {a : Nat} {g : NodeLive → NodeLive} (h1 : 1 ≤ a) (h2 : a ≤ s.pe.nodes.length) :
    (s.onNode a g).nodeLive a = g (s.nodeLive a) := by
  have h : (updateAt s.pe.nodes (a - 1) g).getD (a - 1) {} = g (s.pe.nodes.getD (a - 1) {}) :=
    getD_updateAt_same _ _ (by omega)
  exact h

/-- A miss of a node (R149). -/
theorem presenceMiss_nodeLive {a : Nat} (h1 : 1 ≤ a) (h2 : a ≤ s.pe.nodes.length) :
    ((s.nodeLive a).presence = .absent → (presenceMiss a s).nodeLive a = s.nodeLive a)
      ∧ ((s.nodeLive a).presence ≠ .absent → (s.nodeLive a).miss < 2 →
        (presenceMiss a s).nodeLive a = { s.nodeLive a with miss := (s.nodeLive a).miss + 1 })
      ∧ ((s.nodeLive a).presence ≠ .absent → 2 ≤ (s.nodeLive a).miss →
        (presenceMiss a s).nodeLive a = { s.nodeLive a with presence := .absent, miss := 3 }
          ∧ (a ≠ 15 → Stands (presenceMiss a s) .nodeAbsent a)) := by
  refine ⟨fun h => ?_, fun h hm => ?_, fun h hm => ?_⟩
  · rw [presenceMiss, if_pos h]
  · rw [presenceMiss, if_neg h, if_neg (by omega)]
    exact nodeLive_onNode h1 h2
  · let u := s.onNode a fun n => { n with presence := .absent, miss := 3 }
    have hu : u.nodeLive a = { s.nodeLive a with presence := .absent, miss := 3 } := nodeLive_onNode h1 h2
    have he : presenceMiss a s = nodeBecomesAbsent a u := by
      rw [presenceMiss, if_neg h]
      exact if_pos (by omega)
    rw [he, nodeBecomesAbsent]
    have hnodes : ∀ w : State, (roomUnitAbsent a w).pe.nodes = w.pe.nodes := fun w =>
      read_outer (fun s => s.pe.nodes) (roomUnitAbsent_outer a w) fun _ => rfl
    have hraise : (fmRaise .nodeAbsent a u).pe.nodes = u.pe.nodes :=
      read_outer (fun s => s.pe.nodes) (fmRaise_outer .nodeAbsent a u) fun _ => rfl
    refine ⟨?_, fun hn => ?_⟩
    · rw [← hu, State.nodeLive, State.nodeLive, hnodes]
      split
      · rfl
      · rw [hraise]
    · rw [if_neg hn]
      have hacts : Acts false (Without .nodeAbsent) (fmRaise .nodeAbsent a u) (roomUnitAbsent a (fmRaise .nodeAbsent a u)) :=
        roomUnitAbsent_acts a ⟨nofun, nofun, nofun, nofun⟩ ⟨nofun, nofun, nofun, nofun⟩ .refl
      exact stands_of_about (hacts.about_kept nofun) (fmRaise_stands _ _ _)

/-- PE's record of the node's absence stands through what follows the failure. -/
theorem takeFailure_stands {f : InFlight} {a : Nat} (h : Stands (presenceMiss a s) .nodeAbsent a) :
    Stands (takeFailure f a s) .nodeAbsent a := by
  have hacts : Acts false (Without .nodeAbsent) (presenceMiss a s) (takeFailure f a s) := by
    simp only [takeFailure]
    cases f with
    | entry => exact .refl
    | servicePoll => exact .refl
    | valve z p => exact valveResult_acts _ _ _ ⟨nofun, nofun, nofun, nofun⟩ (removeInFlight_acts ⟨nofun, nofun, nofun, nofun⟩ .refl)
    | proxy => exact fetchResult_acts _ _ (.inl ⟨nofun, nofun, nofun, nofun⟩) (removeInFlight_acts ⟨nofun, nofun, nofun, nofun⟩ .refl)
  exact stands_of_about (hacts.about_kept nofun) h

/-- A failed exchange through the end of its event (R141, R149). -/
theorem failExchange_taken {x : Exchange} {f : InFlight} {r : Reason} (hx : s.zp.exch = some x)
    (hf : s.pe.round.inFlight = some f) (h1 : 1 ≤ x.node) (h2 : x.node ≤ s.pe.nodes.length) :
    FailureTaken s (settle (failExchange r s)) x r ∧ (settle (failExchange r s)).clock = s.clock := by
  let w := recordFailure r s
  have hw : w = _ := recordFailure_of_exch hx
  have hwn : w.nodeLive = s.nodeLive := by rw [hw]; rfl
  have hwp : w.pe.nodes = s.pe.nodes := by rw [hw]; rfl
  have he : failExchange r s = peContinue f (takeFailure f x.node w) := by rw [failExchange, hx, hf]
  obtain ⟨k1, k2, -, k4⟩ := takeFailure_link f x.node w
  obtain ⟨b1, -, -, -, -, -, -, b8, -, b10⟩ := beyond_fields (peContinue_beyond f (takeFailure f x.node w))
  have hend : ExchangeEnded (settle (failExchange r s)) := settle_ended (failExchange_ended r hx)
  have hacts : Acts false (Without .nodeAbsent) (takeFailure f x.node w) (settle (peContinue f (takeFailure f x.node w))) :=
    settle_acts (.inl ⟨nofun, nofun, nofun, nofun⟩)
      (peContinue_acts f ⟨nofun, nofun, nofun, nofun⟩ ⟨nofun, nofun, nofun, nofun⟩ ⟨nofun, nofun, nofun, nofun⟩ .refl)
  obtain ⟨m1, m2, m3⟩ := presenceMiss_nodeLive (s := w) h1 (by rw [hwp]; exact h2)
  obtain ⟨e1, -, -, e4, -, -, e7, -⟩ := settle_link (failExchange r s)
  rw [he] at hend e1 e4 e7 ⊢
  have hnode : (settle (peContinue f (takeFailure f x.node w))).nodeLive x.node = (presenceMiss x.node w).nodeLive x.node := by
    rw [State.nodeLive, e7, b8, k4]
    rfl
  have hfail : (settle (peContinue f (takeFailure f x.node w))).zp.lastFail = w.zp.lastFail := by
    have h : (peContinue f (takeFailure f x.node w)).zp.lastFail = (takeFailure f x.node w).zp.lastFail := by
      simp only [Zp.mk.injEq] at b10
      simp [b10]
    rw [e1, h, k1]
  have hclock : (settle (peContinue f (takeFailure f x.node w))).clock = s.clock := by
    rw [e4, b1, k2, hw]
    rfl
  rw [hwn] at m1 m2 m3
  refine ⟨⟨?_, hend, ?_, ?_, ?_⟩, hclock⟩
  · rw [hfail, hw]
    rfl
  · rw [hnode]
    exact m1
  · rw [hnode]
    exact m2
  · rw [hnode]
    intro hp hm
    obtain ⟨ha, hs⟩ := m3 hp hm
    exact ⟨ha, fun hn => (stands_of_about (hacts.about_kept nofun) (takeFailure_stands (hs hn))).mem⟩

theorem onExch_zp {x : Exchange} (hx : s.zp.exch = some x) (g : Exchange → Exchange) :
    (s.onExch g).zp = { s.zp with exch := some (g x) } := by
  have h : (s.onExch g).zp = { s.zp with exch := s.zp.exch.map g } := rfl
  rw [h, hx]
  rfl

theorem requestSent_of_exch {x : Exchange} (hx : s.zp.exch = some x) : requestSent s
    = (lineIdleFor (idleTail (x.out.getLastD 0)) s).onExch fun x =>
      { x with phase := .awaiting, hold := none, reply := s.deadline Config.tReply, replyExpired := false } := by
  rw [requestSent, hx]

/-- Settles O44. -/
theorem requestIsSentOrStretched : Obligations.RequestIsSentOrStretched := by
  unfold Obligations.RequestIsSentOrStretched
  rintro s x f ⟨hp, hx, hf, hph, h1, h2, hn⟩
  refine ⟨fun hh => ?_, fun h hh => ?_⟩
  · let w := s.reach (x.sentAt + (x.length - x.sent))
    let u := (lineIdleFor (idleTail (x.out.getLastD 0)) w).onExch fun x =>
      { x with phase := .awaiting, hold := none, reply := w.deadline Config.tReply, replyExpired := false }
    have hexec : exec .requestSent s = .next (settle (requestEnd s)) := exec_on (c := .requestSent) nofun hp
    have hu : requestEnd s = u := by
      have hsent : x.sentTime = some (x.sentAt + (x.length - x.sent)) := by rw [Exchange.sentTime, hh]
      rw [requestEnd, hx]
      dsimp only
      rw [if_pos hph, hsent]
      exact requestSent_of_exch (s := w) hx
    rw [hu] at hexec
    obtain ⟨e1, e2, e3, e4, -, e6, -, -⟩ := settle_link u
    refine ⟨_, hexec, congrArg Clock.now e4, ?_, e6, e2, e3⟩
    rw [e1, e4]
    exact onExch_zp (s := lineIdleFor (idleTail (x.out.getLastD 0)) w) hx _
  · let u := s.reach (h + Config.tHold)
    have hexec : exec .holdTimeout s = .next (settle (holdReached s)) := exec_on (c := .holdTimeout) nofun hp
    have hu : holdReached s = failExchange .stretch u := by
      rw [holdReached, hx]
      dsimp only
      rw [hh]
      exact if_pos hph
    rw [hu] at hexec
    obtain ⟨hfail, hclock⟩ := failExchange_taken (s := u) (r := .stretch) hx hf h1 (by rw [show u.pe.nodes.length = 15 from hn]; exact h2)
    exact ⟨_, hexec, congrArg Clock.now hclock, hfail⟩

end Sys2Proof.Machine

/-! SUPPORT. Replies as they are received: the start mark, the bytes, and what breaks them (R134, R138, R139): O45, O46. -/

namespace Sys2Proof.Machine

variable {s t u v : State} {x : Exchange} {f : InFlight}

theorem inPhase_of_exch {ph : Phase} (hx : s.zp.exch = some x) (hph : x.phase = ph) : s.inPhase ph = true := by
  rw [State.inPhase, hx]
  exact beq_iff_eq.2 hph

/-- A failure's event from a state that differs from the one the command came in by clock and line only (R141). -/
theorem fails_of {c : Instr} {r : Reason} (hexec : exec c s = .next (settle (failExchange r u))) (hx : u.zp.exch = some x)
    (hf : u.pe.round.inFlight = some f) (h1 : 1 ≤ x.node) (h2 : x.node ≤ u.pe.nodes.length) (ht : u.time = s.time)
    (hn : u.nodeLive x.node = s.nodeLive x.node) : ∃ t, exec c s = .next t ∧ FailureTaken s t x r := by
  refine ⟨_, hexec, ?_⟩
  have h := (failExchange_taken (r := r) hx hf h1 h2).1
  rwa [FailureTaken, ht, hn] at h

theorem startReceiving_zp (hx : s.zp.exch = some x) (edge : Nat) : (startReceiving edge s).zp = { s.zp with
    rx := [], rxCheck := 0
    exch := some { x with
      phase := .receiving, reply := none, replyExpired := false, rxMax := some (edge + Config.tRxmax)
      gap := s.deadline (10 * Config.tBit) } } := onExch_zp (s := s.onZp rxEmpty) hx _

theorem rxByte_zp (hx : s.zp.exch = some x) (b : Byte) : (rxByte b s).zp = { s.zp with
    rx := s.zp.rx ++ [b], rxCheck := crc8Byte s.zp.rxCheck b
    exch := some { x with gap := s.deadline (10 * Config.tBit) } } :=
  onExch_zp (s := s.onZp fun z => { z with rx := z.rx ++ [b], rxCheck := crc8Byte z.rxCheck b }) hx _

/-- Settles O45. -/
theorem repliesAreAssembledByteByByte : Obligations.RepliesAreAssembledByteByByte := by
  unfold Obligations.RepliesAreAssembledByteByByte
  intro s x f dt
  refine ⟨?_, fun b => ?_⟩
  · rintro run ⟨hp, hx, -, hph, -, -, -⟩ h10 h14 hwin hlate
    let w := lineIdleFor 0 (s.advance dt)
    have hexec : exec (.replyStartMark run dt) s = .next (settle (markSeen run (s.advance dt))) :=
      exec_on (c := .replyStartMark run dt) nofun hp
    have hin : x.inWindow (s.clock.now + dt - run * Config.tBit) = true := by
      rw [Exchange.inWindow]
      cases hr : x.reply with
      | some e => exact decide_eq_true (hwin e hr)
      | none => exact hlate hr
    have hu : markSeen run (s.advance dt) = startReceiving (s.clock.now + dt - run * Config.tBit) w := by
      have hx' : (s.advance dt).zp.exch = some x := hx
      rw [markSeen, hx']
      exact if_pos ⟨hph, decide_eq_true ⟨h10, h14⟩, hin⟩
    rw [hu] at hexec
    obtain ⟨e1, -, -, e4, -, e6, e7, -⟩ := settle_link (startReceiving (s.clock.now + dt - run * Config.tBit) w)
    exact ⟨_, hexec, congrArg Clock.now e4, e1.trans (startReceiving_zp (s := w) hx _), e6, e7⟩
  · rintro ⟨hp, hx, hf, hph, h1, h2, hn⟩ hdue
    let w := lineIdleFor (idleTail b) (s.advance dt)
    let y : Exchange := { x with gap := w.deadline (10 * Config.tBit) }
    have hexec : exec (.replyByteReceived b dt) s = .next (settle (replyByte b (s.advance dt))) :=
      exec_on (c := .replyByteReceived b dt) nofun hp
    have hz : (rxByte b w).zp = { s.zp with
        rx := s.zp.rx ++ [b], rxCheck := crc8Byte s.zp.rxCheck b, exch := some y } := rxByte_zp (s := w) hx b
    have hlen : (rxByte b w).zp.rx.length = s.zp.rx.length + 1 := by simp [hz]
    have hu : replyByte b (s.advance dt) = if (rxByte b w).zp.rx.length = 4 ∧ 16 < b.toNat then failExchange .framing (rxByte b w)
        else rxByte b w := by
      have hin : (s.advance dt).inPhase .receiving = true := inPhase_of_exch (s := s.advance dt) hx hph
      have hdue' : (s.advance dt).zp.checkDue = false := hdue
      rw [replyByte, hin, hdue']
      rfl
    refine ⟨fun hok => ?_, fun hl hb => ?_⟩
    · rw [hu, if_neg (by rw [hlen]; omega)] at hexec
      obtain ⟨e1, -, -, e4, -, e6, e7, -⟩ := settle_link (rxByte b w)
      exact ⟨_, hexec, congrArg Clock.now e4, e1.trans hz, e6, e7⟩
    · rw [hu, if_pos ⟨by rw [hlen, hl], hb⟩] at hexec
      exact fails_of (x := y) (u := rxByte b w) hexec (by rw [hz]) hf h1 (Nat.le_trans h2 (Nat.le_of_eq hn.symm)) rfl rfl

/-- A complete reply is judged in the order of R139. -/
theorem judge_broken {rx : List Byte} {computed check : Byte} (h : computed ≠ check) : judge x rx computed check = some .check :=
  if_pos h

theorem judge_mismatched {rx : List Byte} {check : Byte}
    (h : u8 rx 0 ≠ 0 ∨ u8 rx 1 ≠ x.node ∨ x.replies.contains (u8 rx 2) = false) :
    judge x rx check check = some .mismatch := by
  rw [judge, if_neg (by simp)]
  split
  · rfl
  · rename_i hn
    rw [not_or, not_not, not_not] at hn
    obtain h | h | h := h
    · exact absurd hn.1 h
    · exact absurd hn.2 h
    · rw [if_neg (by rw [h]; exact nofun)]

theorem replyCheck_judged {r : Reason} {b : Byte} (hx : s.zp.exch = some x) (hph : x.phase = .receiving)
    (hdue : s.zp.checkDue = true) (hf : s.pe.round.inFlight = some f) (h : judge x s.zp.rx s.zp.rxCheck b = some r) :
    replyCheck b s = failExchange r (lineIdleFor (idleTail b) s) := by
  rw [replyCheck, inPhase_of_exch hx hph, hdue]
  show replyComplete b (lineIdleFor (idleTail b) s) = _
  have hx' : (lineIdleFor (idleTail b) s).zp.exch = some x := hx
  have hf' : (lineIdleFor (idleTail b) s).pe.round.inFlight = some f := hf
  have h' : judge x (lineIdleFor (idleTail b) s).zp.rx (lineIdleFor (idleTail b) s).zp.rxCheck b = some r := h
  rw [replyComplete, hx', hf']
  dsimp only
  rw [h']

/-- Settles O46. -/
theorem brokenRepliesFailTheExchange : Obligations.BrokenRepliesFailTheExchange := by
  unfold Obligations.BrokenRepliesFailTheExchange
  intro s x f dt
  refine ⟨?_, ?_, ?_, ?_, fun b => ?_⟩
  · rintro d ⟨hp, hx, hf, hph, h1, h2, hn⟩ hd
    have hexec : exec .treplyExpiry s = .next (settle (replyWindowEnds (s.reach d))) :=
      exec_expire (c := .treplyExpiry) (t := s.zp.exch.bind fun x => x.reply) nofun rfl rfl hp (by rw [hx]; exact hd)
    refine ⟨fun hb => ?_, fun hb => ?_⟩
    · have hu : replyWindowEnds (s.reach d) = failExchange .noReply (s.reach d) := if_neg (by rw [show (s.reach d).lines = s.lines from rfl, hb]; exact nofun)
      rw [hu] at hexec
      exact fails_of (u := s.reach d) hexec hx hf h1 (Nat.le_trans h2 (Nat.le_of_eq hn.symm)) rfl rfl
    · have hu : replyWindowEnds (s.reach d) = (s.reach d).onExch fun x => { x with reply := none, replyExpired := true } := if_pos hb
      rw [hu] at hexec
      refine ⟨_, hexec, (settle_link _).1.trans ?_⟩
      exact onExch_zp (s := s.reach d) hx _
  · rintro ⟨hp, hx, hf, hph, h1, h2, hn⟩
    have hexec : exec (.replyFraming .overlongRun dt) s = .next (settle (framingBroken .overlongRun (s.advance dt))) :=
      exec_on (c := .replyFraming .overlongRun dt) nofun hp
    have hu : framingBroken .overlongRun (s.advance dt) = failExchange .framing (lineDominant (s.advance dt)) := by
      have hx' : (s.advance dt).zp.exch = some x := hx
      rw [framingBroken, hx']
      exact if_pos ⟨hph, rfl⟩
    rw [hu] at hexec
    exact fails_of (u := lineDominant (s.advance dt)) hexec hx hf h1 (Nat.le_trans h2 (Nat.le_of_eq hn.symm)) rfl rfl
  · rintro d ⟨hp, hx, hf, hph, h1, h2, hn⟩ hd
    have hexec : exec .trxmaxExpiry s = .next (settle (rxTooLong (s.reach d))) :=
      exec_expire (c := .trxmaxExpiry) (t := s.zp.exch.bind fun x => x.rxMax) nofun rfl rfl hp (by rw [hx]; exact hd)
    rw [rxTooLong] at hexec
    exact fails_of (u := s.reach d) hexec hx hf h1 (Nat.le_trans h2 (Nat.le_of_eq hn.symm)) rfl rfl
  · rintro c hc ⟨hp, hx, hf, hph, h1, h2, hn⟩
    have hexec : exec (.replyFraming c dt) s = .next (settle (framingBroken c (s.advance dt))) :=
      exec_on (c := .replyFraming c dt) nofun hp
    have hu : ∃ l, framingBroken c (s.advance dt) = failExchange .framing ((s.advance dt).onLines l) := by
      have hx' : (s.advance dt).zp.exch = some x := hx
      unfold framingBroken
      rw [hx']
      dsimp only
      rw [if_neg (by rw [hph]; exact nofun), if_pos ⟨hph, hc⟩]
      cases c <;> exact ⟨_, rfl⟩
    obtain ⟨l, hu⟩ := hu
    rw [hu] at hexec
    exact fails_of (u := (s.advance dt).onLines l) hexec hx hf h1 (Nat.le_trans h2 (Nat.le_of_eq hn.symm)) rfl rfl
  · rintro ⟨hp, hx, hf, hph, h1, h2, hn⟩ hdue
    have hexec : exec (.replyReceived b dt) s = .next (settle (replyCheck b (s.advance dt))) :=
      exec_on (c := .replyReceived b dt) nofun hp
    have judged : ∀ r, judge x s.zp.rx s.zp.rxCheck b = some r → ∃ t, exec (.replyReceived b dt) s = .next t ∧ FailureTaken s t x r := by
      intro r hr
      rw [replyCheck_judged (s := s.advance dt) hx hph hdue hf hr] at hexec
      exact fails_of (u := lineIdleFor (idleTail b) (s.advance dt)) hexec hx hf h1 (Nat.le_trans h2 (Nat.le_of_eq hn.symm)) rfl rfl
    refine ⟨fun h => judged _ (judge_broken h.symm), fun h hm => judged _ ?_⟩
    rw [h]
    exact judge_mismatched hm

end Sys2Proof.Machine

/-! SUPPORT. The closing outcome (R140, R141, R172, R186): O49. -/

namespace Sys2Proof.Machine

variable {s t u v : State} {x : Exchange} {f : InFlight}

theorem mgClosing_sent (s : State) : (mgClosing true s).mg = { s.mg with slot := if s.mg.slot.delivering then {} else s.mg.slot } := by
  have h : (mgClosing true s).mg = if (s.mg.slot.delivering && true) = true then { s.mg with slot := {} }
      else { s.mg with slot := { s.mg.slot with delivering := false } } := rfl
  rw [h, Bool.and_true]
  cases hd : s.mg.slot.delivering with
  | true => rfl
  | false =>
    have hs : { s.mg.slot with delivering := false } = s.mg.slot := by rw [← hd]
    show { s.mg with slot := { s.mg.slot with delivering := false } } = { s.mg with slot := s.mg.slot }
    rw [hs]

theorem mgClosing_stretch (s : State) : (mgClosing false s).mg = { s.mg with slot := { s.mg.slot with delivering := false } } := by
  have h : (mgClosing false s).mg = if (s.mg.slot.delivering && false) = true then { s.mg with slot := {} }
      else { s.mg with slot := { s.mg.slot with delivering := false } } := rfl
  rw [h, Bool.and_false]
  rfl

/-- PE hands nothing on while a RESTART is accepted (R189). -/
theorem peContinue_restart (h : s.mg.restart = true) : (peContinue f s).zp = s.zp := by
  have he : peContinue f s = s.onPe fun p => { p with portReady := true, round := { p.round with inFlight := none } } := by
    unfold peContinue
    exact if_pos h
  rw [he]
  rfl

/-- What a closing outcome leads to, from the state `u` in which ZP has ended the exchange (R140, R141, R172). -/
theorem peContinue_closed (hc : u.zp.exch = none) (hp : u.zp.port = .ready) :
    let t := settle (peContinue f u)
    t.clock = u.clock ∧ t.mg = u.mg ∧ t.zp.lastFail = u.zp.lastFail ∧ t.pe.nodes = u.pe.nodes ∧ ExchangeEnded t
      ∧ (u.mg.restart = true → t.zp.exch = none ∧ t.zp.port = .ready) := by
  intro t
  obtain ⟨e1, e2, -, e4, -, -, e7, -⟩ := settle_link (peContinue f u)
  obtain ⟨b1, -, -, -, b5, -, -, b8, -, b10⟩ := beyond_fields (peContinue_beyond f u)
  simp only [Zp.mk.injEq] at b10
  refine ⟨e4.trans b1, e2.trans b5, ?_, e7.trans b8, settle_ended (peContinue_ended (.inl ⟨hc, hp⟩) f), fun h => ?_⟩
  · rw [e1]
    simp [b10]
  · rw [e1, peContinue_restart h]
    exact ⟨hc, hp⟩

/-- Settles O49. -/
theorem closingOutcomeEndsTheExchange : Obligations.ClosingOutcomeEndsTheExchange := by
  unfold Obligations.ClosingOutcomeEndsTheExchange
  rintro s x f ⟨hp, hx, hf, hph, -, -, -⟩
  refine ⟨fun hh => ?_, fun h hh => ?_⟩
  · let w := lineIdleFor (idleTail (x.out.getLastD 0)) (s.reach (x.sentAt + (x.length - x.sent)))
    let u := mgClosing true (exchangeOver w)
    have hexec : exec .closingSent s = .next (settle (closingEnd s)) := exec_on (c := .closingSent) nofun hp
    have hu : closingEnd s = peContinue f u := by
      have hsent : x.sentTime = some (x.sentAt + (x.length - x.sent)) := by rw [Exchange.sentTime, hh]
      have hw : closingEnd s = closingOutcome true w := by
        rw [closingEnd, hx]
        dsimp only
        rw [if_pos hph, hsent]
      have hf' : u.pe.round.inFlight = some f := hf
      rw [hw, closingOutcome]
      show (match u.pe.round.inFlight with | some f => peContinue f u | none => u) = _
      rw [hf']
    rw [hu] at hexec
    obtain ⟨h1, h2, h3, h4, h5, h6⟩ := peContinue_closed (f := f) (u := u) rfl rfl
    refine ⟨_, hexec, congrArg Clock.now h1, h2.trans (mgClosing_sent _), h3, h4, h5, fun hr => h6 ?_⟩
    exact (congrArg Mg.restart (mgClosing_sent (exchangeOver w))).trans hr
  · let w := s.reach (h + Config.tHold)
    let u := mgClosing false (recordFailure .stretch w)
    have hexec : exec .holdTimeout s = .next (settle (holdReached s)) := exec_on (c := .holdTimeout) nofun hp
    have hrec := recordFailure_of_exch (r := .stretch) (s := w) hx
    have hu : holdReached s = peContinue f u := by
      have hw : holdReached s = closingOutcome false w := by
        rw [holdReached, hx]
        dsimp only
        rw [hh]
        dsimp only
        rw [if_neg (by rw [hph]; exact nofun), if_pos hph]
      have hf' : u.pe.round.inFlight = some f := by
        show (recordFailure .stretch w).pe.round.inFlight = _
        rw [hrec]
        exact hf
      rw [hw, closingOutcome]
      show (match u.pe.round.inFlight with | some f => peContinue f u | none => u) = _
      rw [hf']
    rw [hu] at hexec
    have hz : u.zp = (recordFailure .stretch w).zp := rfl
    have hmg : u.mg = _ := mgClosing_stretch (recordFailure .stretch w)
    rw [hrec] at hz hmg
    obtain ⟨h1, h2, h3, h4, h5, h6⟩ := peContinue_closed (f := f) (u := u) (by rw [hz]; rfl) (by rw [hz]; rfl)
    refine ⟨_, hexec, ?_, h2.trans hmg, ?_, ?_, h5, fun hr => h6 ?_⟩
    · rw [h1]
      show (recordFailure .stretch w).clock.now = _
      rw [hrec]
      rfl
    · rw [h3, hz]
      rfl
    · rw [h4]
      show (recordFailure .stretch w).pe.nodes = _
      rw [hrec]
      rfl
    · rw [hmg]
      exact hr

end Sys2Proof.Machine

/-! SUPPORT. The start of a round with the port ready (R132, R153, R159): O42. -/

namespace Sys2Proof.Machine

variable {s t u v : State}

/-- A round that starts has the next number and a new period from the POLL header (R153). -/
theorem startRound_beat (h : s.mg.restart = false) : (startRound s).pe.round.beat
    = (.running, (s.pe.round.number + 1) % 4294967296, s.deadline (pollPeriod s.st.poll * Config.tenth)) := by
  rw [startRound, if_neg (by rw [h]; exact nofun)]
  exact (beat_of_route (takeUp_route _ _ _)).trans rfl

theorem maybeStart_starts (hi : s.pe.round.state = .idle) (hp : s.pe.round.period = none) (hr : s.pe.portReady = true) :
    maybeStart s = startRound s := if_pos ⟨hi, hp, hr⟩

theorem maybeStart_waits (h : s.pe.round.state ≠ .idle ∨ s.pe.round.period ≠ none ∨ s.pe.portReady = false) :
    maybeStart s = s := by
  refine if_neg fun ⟨hi, hp, hr⟩ => ?_
  rcases h with h | h | h
  · exact h hi
  · exact h hp
  · rw [h] at hr
    cases hr

/-- The beat of a started round at the end of its event. -/
theorem settle_started_beat (h : s.mg.restart = false) : let t := settle (startRound s)
    t.pe.round.state = .running ∧ t.pe.round.number = (s.pe.round.number + 1) % 4294967296
      ∧ t.pe.round.period = some (s.clock.now + pollPeriod s.st.poll * Config.tenth) := by
  intro t
  have hb := startRound_beat h
  simp only [Round.beat, Prod.mk.injEq] at hb
  have hr : t.pe.round = (startRound s).pe.round := (settle_link _).2.2.2.2.2.1
  rw [hr]
  exact hb

/-- Settles O42. -/
theorem roundsStartWithThePortReady : Obligations.RoundsStartWithThePortReady := by
  unfold Obligations.RoundsStartWithThePortReady
  intro s d hp
  refine ⟨fun hs hi hper => ?_, fun hs hw hr => ?_, fun hper hi hready hr => ?_, fun hper hn hm => ?_⟩
  · let u := ((s.reach d).onZp fun z => { z with port := .ready, settle := none }).onPe fun p => { p with portReady := true }
    have hexec : exec .tsettleExpiry s = .next (settle (settleExpired (s.reach d))) :=
      exec_expire (c := .tsettleExpiry) nofun rfl rfl hp hs
    have hu : settleExpired (s.reach d) = u := by
      rw [settleExpired, readyReport]
      show (if u.pe.round.state = .waitingPort then startRound u else maybeStart u) = u
      rw [if_neg (by rw [show u.pe.round.state = s.pe.round.state from rfl, hi]; exact nofun)]
      exact maybeStart_waits (.inr (.inl hper))
    rw [hu] at hexec
    obtain ⟨e1, -, -, -, -, e6, -, e8⟩ := settle_link u
    exact ⟨_, hexec, e1, e8, e6⟩
  · let u := ((s.reach d).onZp fun z => { z with port := .ready, settle := none }).onPe fun p => { p with portReady := true }
    have hexec : exec .tsettleExpiry s = .next (settle (settleExpired (s.reach d))) :=
      exec_expire (c := .tsettleExpiry) nofun rfl rfl hp hs
    have hu : settleExpired (s.reach d) = startRound u := by
      rw [settleExpired, readyReport]
      show (if u.pe.round.state = .waitingPort then startRound u else maybeStart u) = _
      rcases hw with hw | ⟨hi, hper⟩
      · exact if_pos hw
      · rw [if_neg (by rw [show u.pe.round.state = s.pe.round.state from rfl, hi]; exact nofun)]
        exact maybeStart_starts hi hper rfl
    rw [hu] at hexec
    exact ⟨_, hexec, settle_started_beat (s := u) hr⟩
  · let u := (s.reach d).onRound fun r => { r with period := none }
    have hexec : exec .periodTimerExpiry s = .next (settle (periodExpired (s.reach d))) :=
      exec_expire (c := .periodTimerExpiry) nofun rfl rfl hp hper
    have hu : periodExpired (s.reach d) = startRound u := maybeStart_starts (s := u) hi rfl hready
    rw [hu] at hexec
    exact ⟨_, hexec, settle_started_beat (s := u) hr⟩
  · refine exec_atEnd (c := .periodTimerExpiry) nofun hp ((State.expire_some hper periodExpired).trans ?_) hm
    refine maybeStart_waits (s := (s.reach d).onRound fun r => { r with period := none }) ?_
    rcases hn with h | h
    · exact .inl h
    · exact .inr (.inr h)

end Sys2Proof.Machine

/-! SUPPORT. The zone records through DM's operations: what a refresh does to a zone (R59 to R62, R69). -/

namespace Sys2Proof.Machine

variable {s t u v : State}

/-! ### A zone's record -/

theorem zone_onZone_same {z : Nat} {g : Zone → Zone} (h : z < s.dm.zones.length) : (s.onZone z g).zone z = g (s.zone z) :=
  getD_updateAt_same g {} h

theorem zone_onZone_ne {y z : Nat} {g : Zone → Zone} (h : y ≠ z) : (s.onZone z g).zone y = s.zone y :=
  getD_updateAt_ne s.dm.zones g {} h

theorem zone_of_zones (h : u.dm.zones = v.dm.zones) (z : Nat) : u.zone z = v.zone z := by rw [State.zone, State.zone, h]

theorem calling_of_map (h : u.dm.zones.map Zone.calling = v.dm.zones.map Zone.calling) (z : Nat) :
    (u.zone z).calling = (v.zone z).calling := by
  have hd : ∀ l : List Zone, (l.getD z {}).calling = (l.map Zone.calling).getD z (Zone.calling {}) := by
    intro l
    simp only [List.getD, List.getElem?_map]
    cases l[z]? <;> rfl
  rw [State.zone, State.zone, hd, hd, h]

/-! ### Circuit selection -/

/-- What stands through the selection of a circuit and the clearing of overrun marks: all of DM that demands, draws and commands touch, with PE and the tables. -/
def State.plumbing (s : State) : List Zone × Circuit × Draw × Diverter × Bool × List Urgent :=
  (s.dm.zones, s.dm.circuit, s.dm.draw, s.dm.diverter, s.dm.frost, s.pe.urgent)

theorem plumbing_of_acts {i : Bool} {p : Touch → Prop} (hd : ¬p .demand) (hw : ¬p .draw) (hp : ¬p .poll) (h : Acts i p u v) :
    v.plumbing = u.plumbing := by
  have h1 := h.demand.resolve_left hd
  have h2 := h.draw.resolve_left hw
  have h3 := (h.urgent.resolve_left hp).resolve_left hd
  simp only [Prod.mk.injEq] at h1 h2
  simp [State.plumbing, h1, h2, h3]

theorem fmClear_plumbing (src : Source) (s : State) : (fmClear src s).plumbing = s.plumbing :=
  plumbing_of_acts nofun nofun nofun (fmClear_acts src (.inl rfl) .refl : Acts false (· = .clear src) s _)

theorem muCircuit_plumbing (old : Circuit) (s : State) : (muCircuit old s).plumbing = s.plumbing := by
  have hpre : ∀ (n : Nat) (w : State), (muPreset n w).plumbing = w.plumbing := by
    intro n w
    rw [muPreset]
    split <;> rfl
  have hstage : ∀ w : State, (muStage1 w).plumbing = w.plumbing := by
    intro w
    simp only [muStage1]
    split <;> rfl
  simp only [muCircuit]
  repeat' split
  any_goals rfl
  all_goals exact (hpre _ _).trans (hstage _)

/-- The circuit changed: the record carries it, and the rest of the plumbing stands (R71). -/
theorem changeCircuit_plumbing (new : Circuit) (s : State) : (changeCircuit new s).plumbing
    = (s.dm.zones, new, s.dm.draw, s.dm.diverter, s.dm.frost, s.pe.urgent) := by
  simp only [changeCircuit]
  split
  · rename_i h
    rw [h]
    rfl
  · have hdel : ∀ w : State, (deliverRecord false w).plumbing = w.plumbing := fun w =>
      plumbing_of_acts (i := false) (p := fun _ => False) id id id (deliverRecord_acts false .refl)
    have hfire : ∀ w : State, (if firing w.bs = true then dmFiring w else w).plumbing = w.plumbing := by
      intro w
      split
      · rw [dmFiring]
        split <;> rfl
      · rfl
    rw [hdel, muCircuit_plumbing, hfire]
    cases hc : s.dm.circuit <;> rfl

theorem select_plumbing (s : State) : (select s).plumbing
    = (s.dm.zones, s.selected, s.dm.draw, s.dm.diverter, s.dm.frost, s.pe.urgent) := changeCircuit_plumbing _ s

theorem select_zone (s : State) (z : Nat) : (select s).zone z = s.zone z := zone_of_zones (congrArg Prod.fst (select_plumbing s)) z

theorem select_circuit (s : State) : (select s).dm.circuit = s.selected := congrArg (fun q => q.2.1) (select_plumbing s)

/-! ### Valve records -/

theorem plumbing_zone (h : u.plumbing = v.plumbing) (z : Nat) : u.zone z = v.zone z := zone_of_zones (congrArg Prod.fst h) z

theorem plumbing_circuit (h : u.plumbing = v.plumbing) : u.dm.circuit = v.dm.circuit := congrArg (fun q => q.2.1) h

theorem clearOverrun_cases (z : Nat) (s : State) : (clearOverrun z s).plumbing = (s.onZone z fun r => { r with overrun := false }).plumbing
    ∨ ((s.zone z).overrun = false ∧ clearOverrun z s = s) := by
  simp only [clearOverrun]
  split
  · left
    split
    · rfl
    · exact fmClear_plumbing _ _
  · rename_i h
    exact .inr ⟨Bool.eq_false_iff.2 h, rfl⟩

theorem clearOverrun_circuit (z : Nat) (s : State) : (clearOverrun z s).dm.circuit = s.dm.circuit := by
  rcases clearOverrun_cases z s with h | ⟨-, h⟩
  · exact (plumbing_circuit h).trans rfl
  · rw [h]

theorem clearOverrun_zone_same {z : Nat} (h : z < s.dm.zones.length) :
    (clearOverrun z s).zone z = { s.zone z with overrun := false } := by
  rcases clearOverrun_cases z s with hc | ⟨ho, hc⟩
  · rw [plumbing_zone hc, zone_onZone_same h]
  · rw [hc, ← ho]

theorem clearOverrun_zone_ne {y z : Nat} (h : y ≠ z) : (clearOverrun z s).zone y = s.zone y := by
  rcases clearOverrun_cases z s with hc | ⟨-, hc⟩
  · rw [plumbing_zone hc, zone_onZone_ne h]
  · rw [hc]

theorem setValve_circuit (z : Nat) (w : ValveState) (s : State) : (setValve z w s).dm.circuit = s.dm.circuit := clearOverrun_circuit z _

theorem onZone_length (z : Nat) (g : Zone → Zone) (s : State) : (s.onZone z g).dm.zones.length = s.dm.zones.length :=
  updateAt_length s.dm.zones z g

theorem setValve_zone_same {z : Nat} {w : ValveState} (h : z < s.dm.zones.length) :
    (setValve z w s).zone z = { s.zone z with valve := w, travel := none, ack := false, overrun := false } := by
  rw [setValve, clearOverrun_zone_same (by rwa [onZone_length]), zone_onZone_same h]

theorem setValve_zone_ne {y z : Nat} {w : ValveState} (h : y ≠ z) : (setValve z w s).zone y = s.zone y := by
  rw [setValve, clearOverrun_zone_ne h, zone_onZone_ne h]

theorem commandValve_circuit (z : Nat) (p : Position) (s : State) : (commandValve z p s).dm.circuit = s.dm.circuit := by
  simp only [commandValve]
  split
  · rfl
  · exact setValve_circuit z _ _

theorem commandValve_zone_ne {y z : Nat} {p : Position} (h : y ≠ z) : (commandValve z p s).zone y = s.zone y := by
  simp only [commandValve]
  split
  · rfl
  · exact setValve_zone_ne h

/-- A position commanded to an open or shut valve leaves it travelling, or as it was while a command is in flight (R60). -/
theorem commandValve_valve {z : Nat} {p : Position} : ((commandValve z p s).zone z).valve = (s.zone z).valve
    ∨ ((commandValve z p s).zone z).valve = .opening ∨ ((commandValve z p s).zone z).valve = .closing := by
  simp only [commandValve]
  split
  · exact .inl rfl
  · by_cases hz : z < s.dm.zones.length
    · rw [setValve_zone_same (s := placeValve z p s) hz]
      cases p
      · exact .inr (.inl rfl)
      · exact .inr (.inr rfl)
    · left
      have hout : ∀ w : State, w.dm.zones.length = s.dm.zones.length → w.zone z = {} := fun w hw =>
        List.getD_eq_default _ _ (by omega)
      rw [hout s rfl, hout]
      exact (setValve_acts (p := fun _ => True) z _ trivial (placeValve_acts z p trivial .refl)).zonesLength

/-- Where R60's comparison calls for no command. -/
def State.atRest (s : State) (z : Nat) : Prop := s.hasValve z = false ∨ (s.zone z).valve = .unknown
    ∨ ((s.zone z).desired = .opened ∧ ((s.zone z).valve = .opened ∨ (s.zone z).valve = .opening))
    ∨ ((s.zone z).desired = .closed ∧ ((s.zone z).valve = .closed ∨ (s.zone z).valve = .closing))

theorem compareValve_rest {z : Nat} (h : s.atRest z) : compareValve z s = s := by
  rw [compareValve]
  rcases h with h | h | ⟨hd, h | h⟩ | ⟨hd, h | h⟩
  · rw [h]
    rfl
  all_goals simp [*]

theorem compareValve_circuit (z : Nat) (s : State) : (compareValve z s).dm.circuit = s.dm.circuit := by
  simp only [compareValve]
  repeat' split
  any_goals rfl
  all_goals exact commandValve_circuit z _ s

theorem compareValve_zone_ne {y z : Nat} (h : y ≠ z) : (compareValve z s).zone y = s.zone y := by
  simp only [compareValve]
  repeat' split
  any_goals rfl
  all_goals exact commandValve_zone_ne h

/-! ### The evaluation of a zone (R59) -/

/-- Where the evaluation of a zone's desired position changes nothing. -/
def State.settled (s : State) (z : Nat) : Prop := s.dm.circuit = .dhw ∨ (s.zone z).desired = s.desiredOf z

theorem evaluateZone_settled {z : Nat} (h : s.settled z) : evaluateZone s z = s := if_pos h

theorem evaluateZone_circuit (s : State) (z : Nat) : (evaluateZone s z).dm.circuit = s.dm.circuit := by
  rw [evaluateZone]
  split
  · rfl
  · exact compareValve_circuit z _

theorem evaluateZone_zone_ne {y z : Nat} (h : y ≠ z) : (evaluateZone s z).zone y = s.zone y := by
  rw [evaluateZone]
  split
  · rfl
  · rw [compareValve_zone_ne h, zone_onZone_ne h]

/-- What a zone's evaluation reads besides the zone's own record is the same in two states. -/
def Alike (u v : State) : Prop := u.dm.circuit = v.dm.circuit ∧ u.st.zones = v.st.zones ∧ u.latch = v.latch

theorem evaluateZone_alike (s : State) (z : Nat) : Alike (evaluateZone s z) s :=
  ⟨evaluateZone_circuit s z, read_outer (fun s => s.st.zones) (evaluateZone_outer s z) fun _ => rfl,
    read_outer State.latch (evaluateZone_outer s z) fun _ => rfl⟩

theorem Alike.desiredOf {z : Nat} (h : Alike u v) (hz : (u.zone z).call = (v.zone z).call) : u.desiredOf z = v.desiredOf z := by
  obtain ⟨h1, h2, h3⟩ := h
  simp only [State.desiredOf, h1, h2, h3, hz]

theorem Alike.settled {z : Nat} (h : Alike u v) (hz : u.zone z = v.zone z) (hs : v.settled z) : u.settled z := by
  rw [State.settled, h.1, hz, h.desiredOf (by rw [hz])]
  exact hs

/-- A settled zone's record stands through the evaluation of all zones. -/
theorem evaluateZones_settled {z : Nat} (l : List Nat) (h : s.settled z) : (l.foldl evaluateZone s).zone z = s.zone z := by
  induction l generalizing s with
  | nil => rfl
  | cons y r ih =>
    have hy : (evaluateZone s y).zone z = s.zone z := by
      by_cases hyz : z = y
      · rw [← hyz, evaluateZone_settled h]
      · exact evaluateZone_zone_ne hyz
    exact (ih ((evaluateZone_alike s y).settled hy h)).trans hy

/-- A zone that the selected circuit leaves where it is keeps its record through a refresh (R59). -/
theorem refresh_settled {z : Nat} (h : (select s).settled z) : (refresh s).zone z = s.zone z :=
  (evaluateZones_settled zoneNumbers h).trans (select_zone s z)

/-- The record of a zone but for its desired position. -/
def Zone.works (r : Zone) : Zone := { r with desired := .closed }

theorem onZone_works {y z : Nat} (d : Position) (s : State) :
    ((s.onZone y fun r => { r with desired := d }).zone z).works = (s.zone z).works := by
  by_cases h : z = y
  · subst h
    by_cases hz : z < s.dm.zones.length
    · rw [zone_onZone_same hz]
      rfl
    · have hout : ∀ w : State, w.dm.zones.length = s.dm.zones.length → w.zone z = {} := fun w hw =>
        List.getD_eq_default _ _ (by omega)
      rw [hout _ (onZone_length z _ s), hout s rfl]
  · rw [zone_onZone_ne h]

/-- A zone without a known valve state is not commanded: its record stands but for the desired position (R59, R60). -/
theorem evaluateZone_unknown {z : Nat} (h : s.hasValve z = false ∨ (s.zone z).valve = .unknown) :
    ((evaluateZone s z).zone z).works = (s.zone z).works ∧ (evaluateZone s z).pe = s.pe := by
  rw [evaluateZone]
  split
  · exact ⟨rfl, rfl⟩
  · have hw := onZone_works (y := z) (z := z) (s.desiredOf z) s
    have hv := congrArg Zone.valve hw
    rw [compareValve_rest (h.imp id fun h => .inl (hv.trans h))]
    exact ⟨hw, rfl⟩

theorem evaluateZones_unknown {z : Nat} (l : List Nat) (h : (s.zone z).valve = .unknown) :
    ((l.foldl evaluateZone s).zone z).works = (s.zone z).works := by
  induction l generalizing s with
  | nil => rfl
  | cons y r ih =>
    have hy : ((evaluateZone s y).zone z).works = (s.zone z).works := by
      by_cases hyz : z = y
      · rw [← hyz]
        exact (evaluateZone_unknown (.inr h)).1
      · rw [evaluateZone_zone_ne hyz]
    exact (ih ((congrArg Zone.valve hy).trans h)).trans hy

theorem refresh_unknown {z : Nat} (h : (s.zone z).valve = .unknown) : ((refresh s).zone z).works = (s.zone z).works := by
  have hs := select_zone s z
  have hu : ((select s).zone z).valve = .unknown := by rw [hs, h]
  have hf : ∀ l : List Nat, ((l.foldl evaluateZone (select s)).zone z).works = ((select s).zone z).works := fun l =>
    evaluateZones_unknown l hu
  exact (hf zoneNumbers).trans (congrArg Zone.works hs)

theorem refresh_circuit (s : State) : (refresh s).dm.circuit = s.selected := by
  have hfold : ∀ (l : List Nat) (w : State), (l.foldl evaluateZone w).dm.circuit = w.dm.circuit := by
    intro l
    induction l with
    | nil => exact fun _ => rfl
    | cons y r ih => exact fun w => (ih _).trans (evaluateZone_circuit w y)
  rw [refresh, hfold, select_circuit]

end Sys2Proof.Machine

/-! SUPPORT. A zone's travel that ends while the list of faults is out of step with the start-inhibit set (R60, R65, R109): O30 fails. -/

namespace Sys2Proof.Machine

/-- A burn in RUN with circuit FROST, the valve of zone 0 opening with its overrun marked; a BLOCKING record stands in the list whose reason the start-inhibit set does not hold. -/
def unsynced : State := { State.reset with
  power := .on
  mp := { firstFrame := true }
  bs := { state := .run, gas1 := true, gas2 := true }
  dm := {
    zones := { valve := .opening, travel := some 9, desired := .opened, call := .call, overrun := true } :: List.replicate 7 {}
    circuit := .frost }
  fm := { active := [
    { source := .zoneValve, detail := 0, cls := .warning, count := 1, first := 0, last := 0 },
    { source := .fanNoSpeed, detail := 0, cls := .blocking, count := 1, first := 0, last := 0 }] } }

theorem exec_travelEnds {s : State} {z d : Nat} (hp : s.power = .on) (h : (s.zone z).travel = some d) :
    exec (.valveTravelExpiry z) s = .next (settle (travelExpired z (s.reach d))) :=
  exec_expire (c := .valveTravelExpiry z) nofun rfl rfl hp h

/-- The clear of ZONE_VALVE brings BLOCKING into step, which ends the burn before the circuit is selected: MU forms no flow target. -/
theorem unsynced_unformed : (settle (travelExpired 0 (unsynced.reach 9))).mu.tz.getD 0 none = none := by decide +kernel

/-- Refutes O30: of any state the statement asks that Tz be formed at once where the circuit leaves FROST with the burner in RUN as the travel's expiry finds it. In `unsynced` the expiry also clears ZONE_VALVE, whose removal brings the BLOCKING reason into step with the list (R109): the burn ends in the same event, before the circuit changes to CH. The state is none that the part reaches, but the statement has no premise that keeps it out. -/
theorem not_zoneTimersEnd : ¬ Obligations.ZoneTimersEnd := by
  unfold Obligations.ZoneTimersEnd
  intro h
  obtain ⟨-, h⟩ := h unsynced 0 rfl (by decide) rfl
  obtain ⟨hopen, -, -⟩ := h 9 rfl
  obtain ⟨t, hexec, -, -, -, -, -, htz⟩ := hopen (by decide +kernel) rfl rfl (by decide +kernel) rfl (by decide +kernel) rfl rfl
  have ht : settle (travelExpired 0 (unsynced.reach 9)) = t := by
    rw [exec_travelEnds (d := 9) rfl rfl] at hexec
    injection hexec
  have hnone := unsynced_unformed
  rw [ht, htz rfl rfl] at hnone
  cases hnone

end Sys2Proof.Machine

/-! SUPPORT. DM at a frame: the draw, the frost mark, the fallbacks, the circuit and the diverter (R56, R67 to R70): O31. -/

namespace Sys2Proof.Machine

variable {s t u v : State}

/-! ### Contributing zones through a refresh (R69) -/

theorem compareValve_valve (z : Nat) (s : State) : ((compareValve z s).zone z).valve = (s.zone z).valve
    ∨ ((compareValve z s).zone z).valve = .opening ∨ ((compareValve z s).zone z).valve = .closing := by
  simp only [compareValve]
  repeat' split
  any_goals exact .inl rfl
  all_goals exact commandValve_valve

theorem evaluateZone_calling (s : State) (y z : Nat) : ((evaluateZone s y).zone z).calling = (s.zone z).calling := by
  have h : Acts false (· = .demand) s (evaluateZone s y) := evaluateZone_acts y rfl .refl
  exact calling_of_map (h.calls.resolve_left nofun) z

theorem contributes_iff {z : Nat} : s.contributes z = true
    ↔ zoneEnabled s.st.zones z = true ∧ (s.zone z).call = .call ∧ (s.zone z).valve = .opened := by
  simp [State.contributes, and_assoc]

/-- In WINTER a zone's evaluation neither shuts the valve of a contributing zone nor opens another's (R59, R60). -/
theorem evaluateZone_contributes (hw : setMode s.latch.settings = .winter) (y z : Nat) :
    (evaluateZone s y).contributes z = s.contributes z := by
  have hen : (evaluateZone s y).st.zones = s.st.zones := (evaluateZone_alike s y).2.1
  have hcall : ((evaluateZone s y).zone z).call = (s.zone z).call := congrArg (fun q => q.2.2.1) (evaluateZone_calling s y z)
  have hvalve : s.contributes z = true → ((evaluateZone s y).zone z).valve = .opened := by
    rw [contributes_iff]
    rintro ⟨he, hc, hv⟩
    by_cases hyz : z = y
    · subst hyz
      rw [evaluateZone]
      split
      · exact hv
      · have hd : s.desiredOf z = .opened := by simp [State.desiredOf, he, hc, hw]
        have hz : z < s.dm.zones.length := by
          by_contra hn
          have hdef : s.zone z = {} := List.getD_eq_default _ _ (by omega)
          rw [hdef] at hc
          cases hc
        have hsame := zone_onZone_same (g := fun r => { r with desired := s.desiredOf z }) hz
        rw [compareValve_rest]
        · rw [hsame]
          exact hv
        · refine .inr (.inr (.inl ⟨?_, .inl ?_⟩))
          · rw [hsame]
            exact hd
          · rw [hsame]
            exact hv
    · rw [evaluateZone_zone_ne hyz]
      exact hv
  have hback : ((evaluateZone s y).zone z).valve = .opened → (s.zone z).valve = .opened := by
    by_cases hyz : z = y
    · subst hyz
      rw [evaluateZone]
      split
      · exact id
      · have hworks := congrArg Zone.valve (onZone_works (y := z) (z := z) (s.desiredOf z) s)
        rcases compareValve_valve z (s.onZone z fun r => { r with desired := s.desiredOf z }) with h | h | h
        · rw [h]
          exact fun ho => hworks.symm.trans ho
        all_goals
          rw [h]
          exact nofun
    · rw [evaluateZone_zone_ne hyz]
      exact id
  rw [Bool.eq_iff_iff]
  refine ⟨fun h => ?_, fun h => ?_⟩
  · rw [contributes_iff, hen, hcall] at h
    exact contributes_iff.2 ⟨h.1, h.2.1, hback h.2.2⟩
  · have hv := hvalve h
    rw [contributes_iff] at h ⊢
    rw [hen, hcall]
    exact ⟨h.1, h.2.1, hv⟩

theorem refresh_contributes (hw : setMode s.latch.settings = .winter) (z : Nat) : (refresh s).contributes z = s.contributes z := by
  have hfold : ∀ (l : List Nat) (w : State), setMode w.latch.settings = .winter →
      (l.foldl evaluateZone w).contributes z = w.contributes z := by
    intro l
    induction l with
    | nil => exact fun _ _ => rfl
    | cons y r ih =>
      intro w hw
      refine (ih _ ?_).trans (evaluateZone_contributes hw y z)
      rw [(evaluateZone_alike w y).2.2]
      exact hw
  have hsel : (select s).outer = s.outer := select_outer s
  have hl : (select s).latch = s.latch := read_outer State.latch hsel fun _ => rfl
  have hz : (select s).st.zones = s.st.zones := read_outer (fun s => s.st.zones) hsel fun _ => rfl
  rw [refresh, hfold _ _ (by rw [hl]; exact hw), State.contributes, State.contributes, select_zone, hz]

/-! ### Fallbacks at a frame (R56) -/

/-- A zone in fallback: the mark, no room temperature, and the call of the zone's fallback. -/
def Fallen (s : State) (z : Nat) : Prop :=
  (s.zone z).fallback = true ∧ (s.zone z).temp = none ∧ (s.zone z).call = s.fallbackCall z

theorem frameFallback_zone_ne {y z : Nat} (h : z ≠ y) : (frameFallback s y).zone z = s.zone z := by
  rw [frameFallback]
  split
  · exact zone_onZone_ne h
  · rfl

theorem fallbackCall_of_outer (h : u.outer = v.outer) (z : Nat) : u.fallbackCall z = v.fallbackCall z := by
  have hz : u.st.zones = v.st.zones := read_outer (fun s => s.st.zones) h fun _ => rfl
  rw [State.fallbackCall, State.fallbackCall, hz]

theorem enterFallback_fallen {z : Nat} (h : z < s.dm.zones.length) : Fallen (enterFallback z s) z := by
  have hz := zone_onZone_same (g := fun r => { r with fallback := true, temp := none, call := s.fallbackCall z }) h
  exact ⟨congrArg Zone.fallback hz, congrArg Zone.temp hz, congrArg Zone.call hz⟩

theorem frameFallback_st (s : State) (y : Nat) : (frameFallback s y).st = s.st := by
  rw [frameFallback]
  split <;> rfl

theorem Fallen.kept {z : Nat} (h : Fallen s z) (y : Nat) : Fallen (frameFallback s y) z := by
  have hst := frameFallback_st s y
  have hz : (frameFallback s y).zone z = s.zone z := by
    by_cases hyz : z = y
    · subst hyz
      have hnot : s.fallbackDue z = false := by simp [State.fallbackDue, h.1]
      rw [frameFallback, hnot]
      rfl
    · exact frameFallback_zone_ne hyz
  rw [Fallen, hz, State.fallbackCall, hst]
  exact h

theorem frameFallbacks_kept {z : Nat} (l : List Nat) (h : Fallen s z) : Fallen (l.foldl frameFallback s) z := by
  induction l generalizing s with
  | nil => exact h
  | cons y r ih => exact ih (h.kept y)

/-- Every zone whose room unit has been silent for 600 s enters fallback at the frame (R56). -/
theorem frameFallbacks_fallen {z : Nat} {l : List Nat} (hm : z ∈ l) (hz : z < s.dm.zones.length) (hd : s.fallbackDue z = true) :
    Fallen (l.foldl frameFallback s) z := by
  induction l generalizing s with
  | nil => cases hm
  | cons y r ih =>
    by_cases hyz : z = y
    · subst hyz
      refine frameFallbacks_kept r ?_
      rw [frameFallback, if_pos hd]
      exact enterFallback_fallen hz
    · refine ih ((List.mem_cons.1 hm).resolve_left hyz) ?_ ?_
      · rw [frameFallback]
        split
        · exact Nat.lt_of_lt_of_eq hz (onZone_length y _ s).symm
        · exact hz
      · rw [← hd, State.fallbackDue, State.fallbackDue, State.time, State.time, frameFallback_st, frameFallback_zone_ne hyz]

/-! ### The draw's table and the diverter -/

/-- The diverter stands at, or drives towards, the end that the draw wants (R68). -/
theorem divertSync_towards (s : State) :
    (s.dm.draw.state = .idle → (divertSync s).dm.diverter.state = .toCh ∨ (divertSync s).dm.diverter.state = .atCh)
      ∧ (s.dm.draw.state ≠ .idle → (divertSync s).dm.diverter.state = .toDhw ∨ (divertSync s).dm.diverter.state = .atDhw) := by
  refine ⟨fun h => ?_, fun h => ?_⟩ <;> cases hd : s.dm.diverter.state <;> simp [divertSync, hd, h]

theorem drawStep_idle {on : Bool} {q n : Nat} {start : Timer} {d : Draw} (h : d.state = .idle) : drawStep on q n start d
    = if 20 ≤ q ∧ on = true then (if 3 ≤ d.startRun + 1 then { d with state := .active, startRun := 0, endRun := 0 }
        else { d with startRun := d.startRun + 1 }) else { d with startRun := 0 } := by
  rw [drawStep, h]

theorem drawStep_active {on : Bool} {q n : Nat} {start : Timer} {d : Draw} (h : d.state = .active) : drawStep on q n start d
    = if !on then { d with state := .idle, startRun := 0, endRun := 0 }
      else if q < 15 then (if 5 ≤ d.endRun + 1 then
        (if n = 0 then { d with state := .idle, endRun := 0, overrun := none }
          else { d with state := .overrun, endRun := 0, overrun := start })
        else { d with endRun := d.endRun + 1 })
      else { d with endRun := 0 } := by
  rw [drawStep, h]

theorem drawStep_overrun {on : Bool} {q n : Nat} {start : Timer} {d : Draw} (h : d.state = .overrun) : drawStep on q n start d
    = if !on then { state := .idle, startRun := 0, endRun := 0, overrun := none }
      else if 20 ≤ q then (if 3 ≤ d.startRun + 1 then { state := .active, startRun := 0, endRun := 0, overrun := none }
        else { d with startRun := d.startRun + 1 })
      else { d with startRun := 0 } := by
  rw [drawStep, h]

/-! ### The frame -/

/-- What no part of a frame after DM touches. -/
def AfterDm (x : Touch) : Prop := x ≠ .demand ∧ x ≠ .draw ∧ x ≠ .calls ∧ x ≠ .poll

theorem frame_afterDm (f : Frame) (s : State) : Acts false AfterDm (dmFrame (frameMeasure f s)) (settle (frameStep f s)) := by
  rw [frameStep_eq]
  refine frameTail_acts _ ⟨nofun, nofun, nofun, nofun⟩ ⟨nofun, nofun, nofun, nofun⟩ ⟨nofun, nofun, nofun, nofun⟩ ?_
  refine overheatStep_acts ⟨nofun, nofun, nofun, nofun⟩ ⟨nofun, nofun, nofun, nofun⟩ ⟨nofun, nofun, nofun, nofun⟩ ?_
  refine limitStep_acts ⟨nofun, nofun, nofun, nofun⟩ ⟨nofun, nofun, nofun, nofun⟩ ⟨nofun, nofun, nofun, nofun⟩ ?_
  exact antiCycleCheck_acts (muFrame_acts ⟨nofun, nofun, nofun, nofun⟩ ⟨nofun, nofun, nofun, nofun⟩ .refl)

/-- What MP's part of a frame leaves alone in DM and the tables. -/
theorem frameMeasure_kept (f : Frame) (s : State) : (frameMeasure f s).plumbing = s.plumbing
    ∧ (frameMeasure f s).st.zones = s.st.zones ∧ (frameMeasure f s).st.nodes = s.st.nodes
    ∧ (frameMeasure f s).st.settings = s.st.settings ∧ (frameMeasure f s).latch.settings = s.st.settings
    ∧ (frameMeasure f s).mp.firstFrame = true ∧ (frameMeasure f s).time = s.time := by
  have hacts : Acts false AfterDm (measured f s) (frameMeasure f s) :=
    measureEvents_acts s.mp ⟨nofun, nofun, nofun, nofun⟩ (fun _ => ⟨nofun, nofun, nofun, nofun⟩)
      (fun _ => ⟨nofun, nofun, nofun, nofun⟩) .refl
  have hcounts : Acts false (· ≠ .counts) (measured f s) (frameMeasure f s) :=
    measureEvents_acts s.mp nofun (fun _ => nofun) (fun _ => nofun) .refl
  have hg := frameMeasure_gauge f s
  have hst := congrArg State.st hg
  have hmp := (gauge_fields hg).2.2.2
  have hl := (gauge_fields hg).2.2.1
  have hp := plumbing_of_acts (fun h => h.1 rfl) (fun h => h.2.1 rfl) (fun h => h.2.2.2 rfl) hacts
  have hc := hcounts.counters.resolve_left fun h => h rfl
  simp only [State.gauge, State.outer, St.mk.injEq] at hst
  simp only [Mp.published, Mp.mk.injEq] at hmp
  refine ⟨hp.trans rfl, by rw [hst.2.2.2.1]; rfl, by rw [hst.2.2.2.2.1]; rfl, by rw [hst.2.1]; rfl, by rw [hl]; rfl, ?_, ?_⟩
  · simp only [hmp]
    rfl
  · rw [State.time, hc]
    rfl

/-- DM at a frame before its zones and the circuit: fallbacks taken, draw and frost mark stepped, the diverter driven. -/
def drawn (s : State) : State :=
  let w := zoneNumbers.foldl frameFallback s
  divertSync (w.onDm fun d =>
    { d with
      draw := drawStep (setDhwEnabled s.latch.settings && setMode s.latch.settings != .off) s.mp.pub.q (setDhwOverrun s.st.settings)
        (s.deadline (setDhwOverrun s.st.settings * Config.second)) s.dm.draw
      frost := frostStep (setFrostEnabled s.latch.settings) s.mp.pub.flowCtl s.mp.ret.value s.dm.frost })

theorem frameFallbacks_outer (l : List Nat) (s : State) : (l.foldl frameFallback s).outer = s.outer :=
  foldl_outer frameFallback frameFallback_outer l s

theorem frameFallbacks_dm (l : List Nat) (s : State) : (l.foldl frameFallback s).dm = { s.dm with zones := (l.foldl frameFallback s).dm.zones }
    ∧ (l.foldl frameFallback s).st = s.st := by
  induction l generalizing s with
  | nil => exact ⟨rfl, rfl⟩
  | cons y r ih =>
    obtain ⟨h1, h2⟩ := ih (frameFallback s y)
    have hy : (frameFallback s y).dm = { s.dm with zones := (frameFallback s y).dm.zones } := by
      rw [frameFallback]
      split <;> rfl
    refine ⟨?_, h2.trans (frameFallback_st s y)⟩
    rw [List.foldl_cons, h1, hy]

theorem dmFrame_eq (s : State) : dmFrame s = refresh (drawn s) := by
  have ho := frameFallbacks_outer zoneNumbers s
  obtain ⟨hd, hs⟩ := frameFallbacks_dm zoneNumbers s
  have hm : (zoneNumbers.foldl frameFallback s).mp = s.mp := read_outer State.mp ho fun _ => rfl
  have hl : (zoneNumbers.foldl frameFallback s).latch = s.latch := read_outer State.latch ho fun _ => rfl
  have hc : (zoneNumbers.foldl frameFallback s).clock = s.clock := read_outer State.clock ho fun _ => rfl
  have h1 : (zoneNumbers.foldl frameFallback s).dm.draw = s.dm.draw := by rw [hd]
  have h2 : (zoneNumbers.foldl frameFallback s).dm.frost = s.dm.frost := by rw [hd]
  simp only [dmFrame, drawn, State.deadline, State.onDm, hm, hl, hc, hs, h1, h2]

theorem drawn_zone (s : State) (z : Nat) : (drawn s).zone z = (zoneNumbers.foldl frameFallback s).zone z := rfl

theorem drawn_draw (s : State) : (drawn s).dm.draw = drawStep (setDhwEnabled s.latch.settings && setMode s.latch.settings != .off)
    s.mp.pub.q (setDhwOverrun s.st.settings) (s.deadline (setDhwOverrun s.st.settings * Config.second)) s.dm.draw := rfl

theorem drawn_frost (s : State) : (drawn s).dm.frost
    = frostStep (setFrostEnabled s.latch.settings) s.mp.pub.flowCtl s.mp.ret.value s.dm.frost := rfl

theorem drawn_outer (s : State) : (drawn s).outer = s.outer := (frameFallbacks_outer zoneNumbers s)

theorem selected_cases (hf : s.mp.firstFrame = true) : (s.dm.draw.state = .active → s.selected = .dhw)
    ∧ (s.dm.draw.state ≠ .active →
      (setMode s.latch.settings = .winter ∧ s.dm.draw.state ≠ .overrun ∧ zoneNumbers.any s.contributes = true) → s.selected = .ch)
    ∧ (s.dm.draw.state ≠ .active →
      ¬(setMode s.latch.settings = .winter ∧ s.dm.draw.state ≠ .overrun ∧ zoneNumbers.any s.contributes = true) →
        s.selected = if s.dm.frost then .frost else .none) := by
  refine ⟨fun h => ?_, fun h h' => ?_, fun h h' => ?_⟩
  · simp [State.selected, hf, h]
  · rw [State.selected, if_neg (by rw [hf]; exact nofun), if_neg h, if_pos h']
  · rw [State.selected, if_neg (by rw [hf]; exact nofun), if_neg h, if_neg h']

theorem any_zone {g : Nat → Bool} : zoneNumbers.any g = true ↔ ∃ z < 8, g z = true := by
  have hm : ∀ z, z ∈ zoneNumbers ↔ z < 8 := by
    intro z
    simp only [zoneNumbers, List.mem_cons, List.not_mem_nil, or_false]
    omega
  simp [List.any_eq_true, hm]

/-- The rows of the draw's table (R67), `on` telling that draws may be detected. -/
theorem drawStep_rows {on : Prop} {b : Bool} (hb : b = true ↔ on) {q n : Nat} {start : Timer} {d e : Draw}
    (he : e = drawStep b q n start d) :
    (d.state = .idle → on → 20 ≤ q → (2 ≤ d.startRun → e = { d with state := .active, startRun := 0, endRun := 0 })
        ∧ (d.startRun < 2 → e = { d with startRun := d.startRun + 1 }))
      ∧ (d.state = .idle → (¬on ∨ q < 20) → e = { d with startRun := 0 })
      ∧ (d.state = .active → ¬on → e = { d with state := .idle, startRun := 0, endRun := 0 })
      ∧ (d.state = .active → on → q < 15 →
          (4 ≤ d.endRun → e.endRun = 0 ∧ (n = 0 → e.state = .idle ∧ e.overrun = none)
            ∧ (n ≠ 0 → e.state = .overrun ∧ e.overrun = start))
          ∧ (d.endRun < 4 → e = { d with endRun := d.endRun + 1 }))
      ∧ (d.state = .active → on → 15 ≤ q → e = { d with endRun := 0 })
      ∧ (d.state = .overrun → ¬on → e = { state := .idle, startRun := 0, endRun := 0, overrun := none })
      ∧ (d.state = .overrun → on → 20 ≤ q →
          (2 ≤ d.startRun → e = { state := .active, startRun := 0, endRun := 0, overrun := none })
          ∧ (d.startRun < 2 → e = { d with startRun := d.startRun + 1 }))
      ∧ (d.state = .overrun → on → q < 20 → e = { d with startRun := 0 }) := by
  have hoff : ¬on → b = false := fun h => Bool.eq_false_iff.2 fun hb' => h (hb.1 hb')
  refine ⟨fun h ho hq => ?_, fun h ho => ?_, fun h ho => ?_, fun h ho hq => ?_, fun h ho hq => ?_, fun h ho => ?_,
    fun h ho hq => ?_, fun h ho hq => ?_⟩
  · rw [he, drawStep_idle h, if_pos ⟨hq, hb.2 ho⟩]
    exact ⟨fun hr => if_pos (by omega), fun hr => if_neg (by omega)⟩
  · rw [he, drawStep_idle h]
    refine if_neg fun ⟨hq, hon⟩ => ?_
    rcases ho with ho | ho
    · exact ho (hb.1 hon)
    · omega
  · rw [he, drawStep_active h, hoff ho]
    rfl
  · rw [he, drawStep_active h, hb.2 ho, if_neg (by decide), if_pos hq]
    refine ⟨fun hr => ?_, fun hr => if_neg (by omega)⟩
    rw [if_pos (by omega)]
    refine ⟨?_, fun hn => ?_, fun hn => ?_⟩
    · split <;> rfl
    · rw [if_pos hn]
      exact ⟨rfl, rfl⟩
    · rw [if_neg hn]
      exact ⟨rfl, rfl⟩
  · rw [he, drawStep_active h, hb.2 ho, if_neg (by decide), if_neg (by omega)]
  · rw [he, drawStep_overrun h, hoff ho]
    rfl
  · rw [he, drawStep_overrun h, hb.2 ho, if_neg (by decide), if_pos hq]
    exact ⟨fun hr => if_pos (by omega), fun hr => if_neg (by omega)⟩
  · rw [he, drawStep_overrun h, hb.2 ho, if_neg (by decide), if_neg (by omega)]

/-- The two sides of the frost mark's table (R70). -/
theorem frostStep_rows {b : Bool} {flow ret : Value} {was now : Bool} (h : now = frostStep b flow ret was) :
    (was = false → (now = true ↔ b = true ∧ (Value.lt flow 70 = true ∨ Value.lt ret 70 = true)))
      ∧ (was = true → (now = false ↔ Value.ge flow 150 = true ∨ b = false)) := by
  refine ⟨fun hw => ?_, fun hw => ?_⟩ <;> rw [h, hw] <;> cases b <;> simp [frostStep]

/-- A frame's zones, circuit, draw, diverter and frost mark, from the state in which DM has taken the frame's measurements. -/
theorem frame_demand (f : Frame) (s : State) : let t := settle (frameStep f s)
    let w := drawn (frameMeasure f s)
    (t.dm.draw, t.dm.diverter, t.dm.frost) = (w.dm.draw, w.dm.diverter, w.dm.frost) ∧ t.dm.circuit = w.selected
      ∧ (∀ z, (t.zone z).calling = (w.zone z).calling) ∧ (∀ z, t.zone z = (refresh w).zone z) := by
  intro t w
  have hrest := frame_afterDm f s
  rw [dmFrame_eq] at hrest
  have hplumb : t.plumbing = (refresh w).plumbing :=
    plumbing_of_acts (fun h => h.1 rfl) (fun h => h.2.1 rfl) (fun h => h.2.2.2 rfl) hrest
  have hrefresh : Acts false (· = .demand) w (refresh w) := refresh_acts rfl .refl
  have hdraw := hrefresh.draw.resolve_left nofun
  have hcalls := hrefresh.calls.resolve_left nofun
  have hzone := plumbing_zone hplumb
  have hcirc := (plumbing_circuit hplumb).trans (refresh_circuit w)
  refine ⟨?_, hcirc, fun z => ?_, hzone⟩
  · rw [← hdraw]
    simp only [State.plumbing, Prod.mk.injEq] at hplumb
    simp [hplumb]
  · rw [hzone]
    exact calling_of_map hcalls z

/-- Settles O31. -/
theorem drawFrostAndCircuitFollowTheFrame : Obligations.DrawFrostAndCircuitFollowTheFrame := by
  unfold Obligations.DrawFrostAndCircuitFollowTheFrame
  intro f s hp set on len d
  obtain ⟨p1, -, -, p4⟩ := frame_published f s
  have hgauge := gauge_fields (frameMeasure_gauge f s)
  have hpub : (settle (frameStep f s)).mp.published = (frameMeasure f s).mp.published := p4.trans hgauge.2.2.2.symm
  have hclock : (settle (frameStep f s)).clock = (frameMeasure f s).clock := p1.trans hgauge.1.symm
  obtain ⟨k1, k2, k3, k4, k5, k6, k7⟩ := frameMeasure_kept f s
  obtain ⟨h1, h2, h3, h4⟩ := frame_demand f s
  refine ⟨_, exec_frame f hp, ?_⟩
  have hret : (settle (frameStep f s)).mp.ret = (frameMeasure f s).mp.ret := chan_of_published hpub .ret
  have hpub : (settle (frameStep f s)).mp.pub = (frameMeasure f s).mp.pub := by
    simp only [Mp.published, Mp.mk.injEq] at hpub
    simp [hpub]
  generalize settle (frameStep f s) = t at *
  generalize frameMeasure f s = u at *
  simp only [Prod.mk.injEq] at h1
  obtain ⟨hdraw, hdiv, hfrost⟩ := h1
  have kd : u.dm.draw = d := congrArg (fun q => q.2.2.1) k1
  have kf : u.dm.frost = s.dm.frost := congrArg (fun q => q.2.2.2.2.1) k1
  have kz : u.dm.zones = s.dm.zones := congrArg Prod.fst k1
  have hon : (setDhwEnabled u.latch.settings && setMode u.latch.settings != .off) = true ↔ on := by
    rw [k5]
    simp [on, set]
  have hrows := drawStep_rows hon (hdraw.trans (drawn_draw u))
  rw [← hpub, kd, k4, State.deadline, ← hclock] at hrows
  obtain ⟨r1, r2, r3, r4, r5, r6, r7, r8⟩ := hrows
  have hfrows := frostStep_rows (hfrost.trans (drawn_frost u))
  rw [← hpub, ← hret, kf, k5] at hfrows
  refine ⟨r1, r2, r3, r4, r5, r6, r7, r8, hfrows.1, hfrows.2, fun z hz hlen hroom hfall hage => ?_, ?_, fun h => ?_, fun h => ?_⟩
  · have hdue : u.fallbackDue z = true := by
      rw [State.fallbackDue, k2, k3, k7, zone_of_zones kz z, hroom, hfall]
      exact decide_eq_true hage
    have hfallen : Fallen (drawn u) z := by
      have hf := frameFallbacks_fallen (l := zoneNumbers) (by
        simp only [zoneNumbers, List.mem_cons, List.not_mem_nil, or_false]
        omega) (by rw [kz, hlen]; exact hz) hdue
      obtain ⟨f1, f2, f3⟩ := hf
      have hcall := fallbackCall_of_outer (frameFallbacks_outer zoneNumbers u) z
      exact ⟨f1, f2, f3.trans (hcall.trans (fallbackCall_of_outer (drawn_outer u) z).symm)⟩
    obtain ⟨f1, f2, f3⟩ := hfallen
    have hc := h3 z
    simp only [Zone.calling, Prod.mk.injEq] at hc
    obtain ⟨-, c2, c3, c4, -⟩ := hc
    refine ⟨c4.trans f1, c2.trans f2, (c3.trans f3).trans ?_⟩
    have hz' : (drawn u).st.zones = s.st.zones := (read_outer (fun s => s.st.zones) (drawn_outer u) fun _ => rfl).trans k2
    rw [State.fallbackCall, hz']
  · have hl : (drawn u).latch.settings = set := (read_outer (fun s => s.latch.settings) (drawn_outer u) fun _ => rfl).trans k5
    have hz' : (drawn u).st.zones = s.st.zones := (read_outer (fun s => s.st.zones) (drawn_outer u) fun _ => rfl).trans k2
    have hrz : (refresh (drawn u)).st.zones = s.st.zones :=
      (read_outer (fun s => s.st.zones) (refresh_outer (drawn u)) fun _ => rfl).trans hz'
    have hff : (drawn u).mp.firstFrame = true := (read_outer (fun s => s.mp.firstFrame) (drawn_outer u) fun _ => rfl).trans k6
    have hcontrib : ∀ z, setMode set = .winter → ((drawn u).contributes z = true
        ↔ zoneEnabled s.st.zones z = true ∧ (t.zone z).call = .call ∧ (t.zone z).valve = .opened) := by
      intro z hw
      rw [← refresh_contributes (by rw [hl]; exact hw) z, contributes_iff, hrz, h4]
    obtain ⟨s1, s2, s3⟩ := selected_cases hff
    rw [← h2, ← hdraw] at s1
    rw [hl, ← h2, ← hdraw] at s2 s3
    have hheats : ∀ P : Prop, ((setMode set = .winter ∧ P ∧ zoneNumbers.any (drawn u).contributes = true)
        ↔ (setMode set = .winter ∧ P ∧ ∃ z < 8, zoneEnabled s.st.zones z = true ∧ (t.zone z).call = .call ∧ (t.zone z).valve = .opened)) := by
      intro P
      refine and_congr_right fun hw => and_congr_right fun _ => any_zone.trans (exists_congr fun z => and_congr_right fun _ => hcontrib z hw)
    rw [hheats] at s2 s3
    rw [← hfrost] at s3
    exact ⟨s1, s2, s3⟩
  · rw [hdiv]
    rw [hdraw] at h
    exact (divertSync_towards _).1 h
  · rw [hdiv]
    rw [hdraw] at h
    exact (divertSync_towards _).2 h

end Sys2Proof.Machine

/-! SUPPORT. What a frame leaves alone while the burner stays in RUN, and the output that it delivers (R91, R94, R102): O37. -/

namespace Sys2Proof.Machine

variable {s t u v w : State}

/-! ### A burn that goes on -/

/-- The heat request record's active field and its withholding marks (R71). -/
def Dm.heat (d : Dm) : Bool × Bool × Bool × Bool := (d.active, d.chStop, d.offPhase, d.dhwStop)

/-- Where the burner is in RUN after a step, it has been so before, and MU, the heat request and the fan target stand. -/
def Burning (u v : State) : Prop :=
  v.bs.state = .run → u.bs.state = .run ∧ v.mu = u.mu ∧ v.dm.heat = u.dm.heat ∧ v.bs.fanTarget = u.bs.fanTarget

theorem Burning.refl : Burning s s := fun h => ⟨h, rfl, rfl, rfl⟩

theorem Burning.trans (h1 : Burning u v) (h2 : Burning v w) : Burning u w := fun h => by
  obtain ⟨a1, a2, a3, a4⟩ := h2 h
  obtain ⟨b1, b2, b3, b4⟩ := h1 a1
  exact ⟨b1, a2.trans b2, a3.trans b3, a4.trans b4⟩

theorem Burning.of_not (h : v.bs.state ≠ .run) : Burning u v := fun hr => absurd hr h

theorem Burning.of_eq (h1 : v.bs.state = u.bs.state) (h2 : v.mu = u.mu) (h3 : v.dm.heat = u.dm.heat)
    (h4 : v.bs.fanTarget = u.bs.fanTarget) : Burning u v := fun h => ⟨h1.symm.trans h, h2, h3, h4⟩

theorem Resting.not_run (h : Resting s) : s.bs.state ≠ .run := by
  rcases h with h | h | h <;> simp [h]

theorem faultStop_burning (s : State) : Burning u (faultStop s) := .of_not (faultStop_rests s).not_run

theorem fmSync_burning (s : State) : Burning s (fmSync s) := by
  simp only [fmSync]
  split
  · split
    · exact .refl
    · exact faultStop_burning _
  · exact .of_eq rfl rfl rfl rfl

theorem lockoutEntry_burning (src : Source) (s : State) : Burning s (lockoutEntry src s) := by
  by_cases h : s.bs.state = .lockout
  · rw [lockoutEntry, if_pos h]
    exact .refl
  · obtain ⟨tp, hd⟩ := lockoutEntry_drive src s h
    have hst : (lockoutEntry src s).bs.state = .lockout := congrArg (fun q => q.1.state) hd
    exact .of_not (by rw [hst]; exact nofun)

theorem fmRaise_burning (src : Source) (detail : Nat) (s : State) : Burning s (fmRaise src detail s) := by
  obtain ⟨y, p, hy, ⟨q, -, -, -, -, hcase⟩, -⟩ := fmRaise_cases src detail s
  obtain ⟨-, -, -, -, hbs, hdm, hmu, -⟩ := hy.fields
  have hy : Burning s y := .of_eq (by rw [hbs]) hmu (by rw [hdm]) (by rw [hbs])
  rcases hcase with ⟨e, -⟩ | ⟨e, -⟩
  · rw [e]
    exact hy.trans (fmSync_burning y)
  · rw [e]
    exact (hy.trans (lockoutEntry_burning src y)).trans (fmSync_burning _)

theorem Burning.raise (src : Source) (detail : Nat) (h : Burning u v) : Burning u (fmRaise src detail v) :=
  h.trans (fmRaise_burning src detail v)

theorem fmLead_burning (s : State) : Burning s (fmLead s) := .of_eq rfl rfl rfl rfl

theorem Burning.clear (src : Source) (h : Burning u v) : Burning u (fmClear src v) := by
  have hc : Burning u (v.clearCond src) := h.trans (.of_eq rfl rfl rfl rfl)
  simp only [fmClear, removeRecord]
  split
  · exact hc
  · split
    · exact hc
    · refine (Burning.trans ?_ (fmSync_burning _)).trans (fmLead_burning _)
      exact hc.trans (.of_eq rfl rfl rfl rfl)

theorem channelEvent_burning (old : Mp) (s : State) (c : Chan) : Burning s (channelEvent old s c) := by
  simp only [channelEvent]
  repeat' split
  · exact fmRaise_burning _ _ _
  · exact .refl
  · exact .clear _ .refl
  · exact .refl

theorem disagreeStep_burning (s : State) : Burning s (disagreeStep s) := by
  simp only [disagreeStep, disagreeReached]
  repeat' split
  · exact .raise _ _ (.of_eq rfl rfl rfl rfl)
  · exact .refl
  · exact .of_eq rfl rfl rfl rfl
  · exact .clear _ (.of_eq rfl rfl rfl rfl)
  · exact .of_eq rfl rfl rfl rfl

theorem stopRaise_burning (src : Source) (detail : Nat) (s : State) : Burning u (fmRaise src detail (faultStop s)) :=
  (faultStop_burning s).trans (fmRaise_burning _ _ _)

theorem measureEvents_burning (old : Mp) (s : State) : Burning s (measureEvents old s) := by
  have hfold : ∀ (l : List Chan) (v : State), Burning v (l.foldl (channelEvent old) v) := by
    intro l
    induction l with
    | nil => exact fun _ => .refl
    | cons c r ih => exact fun v => (channelEvent_burning old v c).trans (ih _)
  have hlow : ∀ v : State, Burning v (lowPressureStep v) := by
    intro v
    simp only [lowPressureStep]
    repeat' split
    · exact .raise _ _ (.of_eq rfl rfl rfl rfl)
    · exact .clear _ (.of_eq rfl rfl rfl rfl)
    · exact .refl
  have hhigh : ∀ v : State, Burning v (highPressureStep v) := by
    intro v
    simp only [highPressureStep]
    repeat' split
    · exact .raise _ _ (.of_eq rfl rfl rfl rfl)
    · exact .clear _ (.of_eq rfl rfl rfl rfl)
    · exact .refl
  have hflue : ∀ v : State, Burning v (flueHighStep v) := by
    intro v
    simp only [flueHighStep]
    repeat' split
    · exact stopRaise_burning _ _ _
    · exact .clear _ (.of_eq rfl rfl rfl rfl)
    · exact .refl
  have hcirc : ∀ v : State, Burning v (circulationStep v) := by
    intro v
    simp only [circulationStep, circulationReached]
    repeat' split
    · exact stopRaise_burning _ _ _
    · exact .of_eq rfl rfl rfl rfl
    · exact .of_eq rfl rfl rfl rfl
  exact (((((hfold channels s).trans (disagreeStep_burning _)).trans (hlow _)).trans (hhigh _)).trans (hflue _)).trans (hcirc _)

theorem antiCycleCheck_burning (s : State) : Burning s (antiCycleCheck s) := by
  simp only [antiCycleCheck, antiCycleEnd]
  repeat' split
  all_goals exact .of_eq rfl rfl rfl rfl

theorem limitStep_burning (s : State) : Burning s (limitStep s) := by
  simp only [limitStep]
  repeat' split
  · exact stopRaise_burning _ _ _
  · exact .clear _ (.of_eq rfl rfl rfl rfl)
  · exact .refl

theorem overheatStep_burning (s : State) : Burning s (overheatStep s) := by
  simp only [overheatStep]
  repeat' split
  · exact stopRaise_burning _ _ _
  · exact .clear _ (.of_eq rfl rfl rfl rfl)
  · exact .refl

theorem fanDeviationStep_burning (s : State) : Burning s (fanDeviationStep s) := by
  have hraise : ∀ v : State, v.bs.state ≠ .run → Burning s (fmRaise .fanDeviation noDetail (v.onBs fun b => { b with fanDev := 0 })) :=
    fun v hv => Burning.trans (v := v.onBs fun b => { b with fanDev := 0 }) (.of_not hv) (fmRaise_burning _ _ _)
  simp only [fanDeviationStep, fanDeviationReached]
  repeat' split
  · refine hraise _ ?_
    obtain ⟨tp, hd⟩ := toPostPurge_drive .fanDeviation false false s
    have hst : (toPostPurge .fanDeviation false false s).bs.state = .postPurge := congrArg (fun q => q.1.state) hd
    rw [hst]
    exact nofun
  · refine hraise _ ?_
    have hst : (toStandby .fanDeviation s).bs.state = .standby := congrArg (fun q => q.1.state) (toStandby_drive .fanDeviation s)
    rw [hst]
    exact nofun
  all_goals exact .of_eq rfl rfl rfl rfl

/-- Nothing that enters no RUN comes into it. -/
theorem run_of_acts {i : Bool} {p : Touch → Prop} (h : Acts i p u v) (he : ¬p .enter) (hr : v.bs.state = .run) : u.bs.state = .run :=
  h.enter.resolve_left he hr

theorem settle_burning (s : State) : Burning s (settle s) := by
  intro hr
  have hs : s.bs.state = .run :=
    run_of_acts (settle_acts (.inl rfl) .refl : Acts false (· = .raise .gasRelay) s (settle s)) nofun hr
  have hm : s.mayStart = false := mayStart_of_state (by rw [hs]; exact nofun)
  have hq := settle_atEnd s hm
  rw [hq]
  exact ⟨hs, rfl, rfl, rfl⟩

/-- The parts of a frame after DM and MU, while the burner stays in RUN. -/
theorem frameRest_burning (first : Bool) (s : State) : Burning s (frameTail first (overheatStep (limitStep (antiCycleCheck s)))) := by
  have htail : ∀ v : State, Burning v (frameTail first v) := by
    intro v hr
    have hv : v.bs.state = .run :=
      run_of_acts (frameTail_acts first nofun nofun nofun .refl : Acts false (· ≠ .enter) v _) (fun h => h rfl) hr
    revert hr
    have he : frameTail first v = settle (startUpRemoval first (fanDeviationStep (fanControl v))) := by
      rw [frameTail, hv]
    rw [he]
    refine Burning.trans (v := startUpRemoval first (fanDeviationStep (fanControl v))) ?_ (settle_burning _)
    refine Burning.trans (v := fanDeviationStep (fanControl v)) ?_ ?_
    · exact Burning.trans (v := fanControl v) (.of_eq rfl rfl rfl rfl) (fanDeviationStep_burning _)
    · rw [startUpRemoval]
      split
      · exact .of_eq rfl rfl rfl rfl
      · exact .refl
  exact ((antiCycleCheck_burning s).trans ((limitStep_burning _).trans (overheatStep_burning _))).trans (htail _)

/-! ### The cycling record and the stops of a frame -/

/-- A delivery of the heat request record after which the burner is in RUN has withdrawn nothing (R71, R30). -/
theorem deliverRecord_run {o : Bool} (h : (deliverRecord o s).bs.state = .run) :
    deliverRecord o s = s.onDm fun d => { d with active := activeOf d } := by
  let x := s.onDm fun d => { d with active := activeOf d }
  have hx : deliverRecord o s = if (s.dm.active && !x.dm.active) = true then withdraw o x else x := rfl
  rw [hx] at h ⊢
  split
  · rename_i hw
    rw [if_pos hw] at h
    have hrun : x.bs.state = .run := run_of_acts (withdraw_acts o .refl : Acts false (· ≠ .enter) x _) (fun h => h rfl) h
    let y := x.onBs fun b => { b with attempts := 0, recycles := 0, retry := false }
    have hwith : withdraw o x = toPostPurge .withdrawal o false y := by
      rw [withdraw, if_neg (by rw [hrun]; exact fun h => nomatch h.1)]
      show (match y.bs.state with
        | .preCheck => toStandby .withdrawal y
        | .prePurge => toStandby .withdrawal y
        | .ignition => if firing y.bs then toPostPurge .withdrawal o false y else toStandby .withdrawal y
        | .stabilise => toPostPurge .withdrawal o false y
        | .run => toPostPurge .withdrawal o false y
        | .standby => y
        | .postPurge => y
        | .lockout => y) = _
      rw [show y.bs.state = .run from hrun]
    obtain ⟨tp, hd⟩ := toPostPurge_drive .withdrawal o false y
    have hst : (withdraw o x).bs.state = .postPurge := by
      rw [hwith]
      exact congrArg (fun q => q.1.state) hd
    rw [hst] at h
    cases h
  · rfl

/-- `v` is `u` but for the cycling record. -/
def Paced (u v : State) : Prop := v.dm = u.dm ∧ ∃ c, v.mu = { u.mu with cyc := c }

theorem Paced.onCyc (h : Paced u v) (g : Cycle → Cycle) : Paced u (v.onCyc g) := by
  obtain ⟨h1, c, h2⟩ := h
  have hm : (v.onCyc g).mu = { v.mu with cyc := g v.mu.cyc } := rfl
  exact ⟨h1, g v.mu.cyc, by rw [hm, h2]⟩

/-- Where the burner stays in RUN through a frame's cycling step, MU stands but for the cycling record, and a withholding mark that was set has withdrawn the request (R71, R96, R99, R100). -/
def Cycled (u v : State) : Prop := v.bs.state = .run →
  (∃ c, v.mu = { u.mu with cyc := c }) ∧ (marksSet u.dm v.dm = true → v.dm.active = false)

theorem marksSet_same (d : Dm) : marksSet d d = false := by
  cases h1 : d.chStop <;> cases h2 : d.offPhase <;> cases h3 : d.dhwStop <;> simp [marksSet, h1, h2, h3]

theorem Paced.cycled (h : Paced u v) : Cycled u v := by
  obtain ⟨h1, h2⟩ := h
  refine fun _ => ⟨h2, fun hm => ?_⟩
  rw [h1, marksSet_same] at hm
  cases hm

/-- A mark changed and the record delivered: either no mark has been set, or the request is not active. -/
theorem Paced.delivered {o : Bool} {g : Dm → Dm} (h : Paced u v)
    (hg : marksSet u.dm (g u.dm) = false ∨ activeOf (g u.dm) = false) : Cycled u (deliverRecord o (v.onDm g)) := by
  intro hr
  obtain ⟨h1, h2⟩ := h
  rw [deliverRecord_run hr]
  refine ⟨h2, fun hm => ?_⟩
  show activeOf (g v.dm) = false
  have hm' : marksSet u.dm (g v.dm) = true := hm
  rw [h1] at hm' ⊢
  exact hg.resolve_left (by rw [hm']; exact nofun)

theorem chCycleFrame_cycled (hc : s.dm.circuit = .ch) : Cycled s (chCycleFrame s) := by
  have hsame : Paced s s := ⟨rfl, s.mu.cyc, rfl⟩
  have hpend : Paced s (muPending s) := hsame.onCyc _
  have hend : ∀ v, Paced s v → Cycled s (endOnPhase v) := fun v hv =>
    (hv.onCyc _).delivered (.inr (by simp [activeOf, hc]))
  have hrelease : ∀ v, Paced s v → Cycled s (endOffPhase v) := fun v hv =>
    hv.delivered (.inl (by cases h1 : s.dm.chStop <;> cases h3 : s.dm.dhwStop <;> simp [marksSet, h1, h3]))
  have hon : ∀ b v, Paced s v → Cycled s (onPhaseFrame b v) := by
    intro b v hv
    simp only [onPhaseFrame]
    repeat' split
    · exact hend _ (hv.onCyc _)
    · exact (hv.onCyc _).cycled
    · exact hend _ hv
    · exact hv.cycled
  have hoff : ∀ v, Paced s v → Cycled s (offPhaseFrame v) := by
    intro v hv
    simp only [offPhaseFrame]
    repeat' split
    · exact hv.cycled
    · exact hrelease _ (hv.onCyc _)
    · exact (hv.onCyc _).cycled
  have hstop : ∀ v, Paced s v → Cycled s (chStopFrame v) := by
    intro v hv
    simp only [chStopFrame]
    repeat' split
    · exact hv.delivered (.inl (by cases h2 : s.dm.offPhase <;> cases h3 : s.dm.dhwStop <;> simp [marksSet, h2, h3]))
    · exact hv.cycled
    · exact hv.delivered (.inr (by simp [activeOf, hc]))
    · exact hv.cycled
  simp only [chCycleFrame]
  repeat' split
  · exact hon _ _ hpend
  · exact hoff _ hpend
  · exact hon _ _ (hpend.onCyc _)
  · exact hstop _ hpend

theorem dhwStopFrame_cycled (hc : s.dm.circuit = .dhw) : Cycled s (dhwStopFrame s) := by
  have hv : Paced s s := ⟨rfl, s.mu.cyc, rfl⟩
  simp only [dhwStopFrame]
  repeat' split
  · exact hv.delivered (.inl (by cases h1 : s.dm.chStop <;> cases h2 : s.dm.offPhase <;> simp [marksSet, h1, h2]))
  · exact hv.cycled
  · exact hv.delivered (.inr (by simp [activeOf, hc]))
  · exact hv.cycled

/-! ### MU's computation -/

theorem muStage1_rest (s : State) : (muStage1 s).bs = s.bs ∧ (muStage1 s).dm = s.dm ∧ (muStage1 s).mp = s.mp
    ∧ (muStage1 s).latch = s.latch ∧ (muStage1 s).mu.uPrev = s.mu.uPrev := by
  simp only [muStage1]
  split <;> exact ⟨rfl, rfl, rfl, rfl, rfl⟩

theorem muCompute_rest (s : State) : (muCompute s).bs = s.bs ∧ (muCompute s).dm = s.dm ∧ (muCompute s).mp = s.mp
    ∧ (muCompute s).latch = s.latch := by
  obtain ⟨h1, h2, h3, h4, -⟩ := muStage1_rest s
  exact ⟨h1, h2, h3, h4⟩

theorem ceilingOf_congr (h1 : u.dm.circuit = v.dm.circuit) (h2 : u.latch = v.latch) (h3 : u.mp.flue = v.mp.flue)
    (h4 : u.mp.pub = v.mp.pub) (h5 : u.dm.diverter = v.dm.diverter) :
    u.ceilingItems = v.ceilingItems ∧ u.mMin = v.mMin ∧ u.ceilingOf = v.ceilingOf := by
  have hm : u.mMin = v.mMin := by simp only [State.mMin, h2]
  have hi : u.ceilingItems = v.ceilingItems := by
    simp only [State.ceilingItems, State.flueItem, State.fs, State.fe, h1, h2, h3, h4, h5, hm]
    rfl
  exact ⟨hi, hm, by simp only [State.ceilingOf, hi, hm]⟩

/-- The smallest of the items, with its number. -/
theorem smallestItem_least (n : Nat) (l : List Int) {x : Int} {k : Nat} (h : smallestItem n l = some (x, k)) :
    x ∈ l ∧ ∀ y ∈ l, x ≤ y := by
  induction l generalizing n x k with
  | nil => cases h
  | cons a r ih =>
    simp only [smallestItem] at h
    split at h
    · rename_i y j hy
      obtain ⟨hm, hl⟩ := ih _ hy
      split at h
      · rename_i hlt
        cases h
        exact ⟨List.mem_cons_of_mem _ hm, List.forall_mem_cons.2 ⟨Int.le_of_lt hlt, hl⟩⟩
      · rename_i hge
        cases h
        exact ⟨List.mem_cons_self, List.forall_mem_cons.2 ⟨Int.le_refl _, fun z hz => Int.le_trans (Int.not_lt.1 hge) (hl z hz)⟩⟩
    · rename_i hnone
      cases h
      cases r with
      | nil => exact ⟨List.mem_cons_self, List.forall_mem_cons.2 ⟨Int.le_refl _, nofun⟩⟩
      | cons b r =>
        simp only [smallestItem] at hnone
        repeat' split at hnone
        all_goals cases hnone

/-- The ceiling is the smallest of its four limits, but never below m_min (R91). -/
theorem ceilingOf_least (s : State) : (∀ x ∈ s.ceilingItems, (s.ceilingOf.1 : Int) ≤ max (s.mMin : Int) x)
    ∧ (∃ x ∈ s.ceilingItems, (s.ceilingOf.1 : Int) = max (s.mMin : Int) x) ∧ s.mMin ≤ s.ceilingOf.1 := by
  have hsome : ∃ q, smallestItem 1 s.ceilingItems = some q := by
    simp only [State.ceilingItems, smallestItem]
    repeat' split
    all_goals exact ⟨_, rfl⟩
  obtain ⟨⟨x, k⟩, hq⟩ := hsome
  obtain ⟨hm, hl⟩ := smallestItem_least 1 _ hq
  have hc : s.ceilingOf = (max s.mMin x.toNat, k) := by rw [State.ceilingOf, hq]
  rw [hc]
  refine ⟨fun y hy => ?_, ⟨x, hm, ?_⟩, Nat.le_max_left _ _⟩
  · have := hl y hy
    show ((max s.mMin x.toNat : Nat) : Int) ≤ _
    omega
  · show ((max s.mMin x.toNat : Nat) : Int) = _
    omega

/-- The ceiling and the output of stage 4 as a frame in RUN forms them (R91, R92). -/
theorem muCompute_ceiling (s : State) : (muCompute s).mu.ceiling = some s.ceilingOf.1
    ∧ (s.bs.state = .run → ∃ n, (muCompute s).mu.uS = some n ∧ n ≤ s.ceilingOf.1) := by
  obtain ⟨h1, h2, h3, h4, -⟩ := muStage1_rest s
  have hc : (muStage1 s).ceilingOf = s.ceilingOf :=
    (ceilingOf_congr (congrArg Dm.circuit h2) h4 (congrArg Mp.flue h3) (congrArg Mp.pub h3) (congrArg Dm.diverter h2)).2.2
  have hcm : (muCompute s).mu.ceiling = some (muStage1 s).ceilingOf.1 := rfl
  refine ⟨by rw [hcm, hc], fun hr => ?_⟩
  have hus : ∃ raw, (muCompute s).mu.uS = if (muStage1 s).bs.state = .run
      then some (min (min raw (muStage1 s).ceilingOf.1) ((muStage1 s).mu.uPrev + 20)) else (muStage1 s).mu.uS := ⟨_, rfl⟩
  obtain ⟨raw, hus⟩ := hus
  rw [h1, if_pos hr, hc] at hus
  exact ⟨_, hus, by omega⟩

/-! ### The output delivered -/

/-- The cycling record and the stops of a frame, by the selected circuit (R95 to R100). -/
def muCycle (s : State) : State :=
  match s.dm.circuit with
  | .ch => chCycleFrame s
  | .dhw => dhwStopFrame s
  | .frost => s
  | .none => s

theorem muCycle_cycled (s : State) : Cycled s (muCycle s) := by
  have hsame : Paced s s := ⟨rfl, s.mu.cyc, rfl⟩
  rw [muCycle]
  split
  · exact chCycleFrame_cycled ‹_›
  · exact dhwStopFrame_cycled ‹_›
  · exact hsame.cycled
  · exact hsame.cycled

theorem muCycle_acts {i : Bool} {p : Touch → Prop} (h : Acts i p u s) : Acts i p u (muCycle s) := by
  rw [muCycle]
  split
  · exact chCycleFrame_acts h
  · exact dhwStopFrame_acts h
  · exact h
  · exact h

theorem muFrame_eq (h : s.dm.circuit ≠ .none) : muFrame s = if (muCycle (muCompute s)).bs.state = .run
    ∧ marksSet s.dm (muCycle (muCompute s)).dm = false then deliverOutput (muCycle (muCompute s)) else muCycle (muCompute s) :=
  if_neg h

/-- The output that MU delivers in RUN (R94, R102). -/
theorem muFrame_delivers (hc : s.dm.circuit ≠ .none) (hr : (muFrame s).bs.state = .run) (ha : (muFrame s).dm.active = true) :
    (muFrame s).mu.ceiling = some s.ceilingOf.1 ∧ s.mMin ≤ (muFrame s).mu.uOut ∧ (muFrame s).mu.uOut ≤ s.ceilingOf.1
      ∧ (muFrame s).mu.uPrev = (muFrame s).mu.uOut
      ∧ (muFrame s).mu.fanOut = fanMap s.fanMapPoints (muFrame s).mu.uOut
      ∧ (muFrame s).bs.fanTarget = (muFrame s).mu.fanOut := by
  obtain ⟨c1, c2, -, c4⟩ := muCompute_rest s
  obtain ⟨k1, k2⟩ := muCompute_ceiling s
  have hcyc := muCycle_cycled (muCompute s)
  have hacts : Acts false (· ≠ .enter) (muCompute s) (muCycle (muCompute s)) := muCycle_acts .refl
  have hkeep : Acts false (fun _ => False) (muCompute s) (muCycle (muCompute s)) := muCycle_acts .refl
  have hlatch : (muCycle (muCompute s)).latch = s.latch := by
    have h := hkeep.frame.resolve_left id
    simp only [Prod.mk.injEq] at h
    rw [h.1, c4]
  rw [muFrame_eq hc] at hr ha ⊢
  rw [← c2] at hr ha ⊢
  generalize muCycle (muCompute s) = r at *
  by_cases hgo : r.bs.state = .run ∧ marksSet (muCompute s).dm r.dm = false
  · rw [if_pos hgo]
    obtain ⟨hrun, -⟩ := hgo
    obtain ⟨⟨cyc, hmu⟩, -⟩ := hcyc hrun
    have hstart : s.bs.state = .run := c1 ▸ run_of_acts hacts (fun h => h rfl) hrun
    obtain ⟨n, hn, hle⟩ := k2 hstart
    have hm : r.mMin = s.mMin := by simp only [State.mMin, hlatch]
    have hpts : r.fanMapPoints = s.fanMapPoints := by simp only [State.fanMapPoints, hlatch]
    have hus : r.mu.uS = some n := by rw [hmu, ← hn]
    have hfloor := (ceilingOf_least s).2.2
    have hout : s.mMin ≤ r.finalOutput ∧ r.finalOutput ≤ s.ceilingOf.1 := by
      rw [State.finalOutput, hus, hm]
      split
      · exact ⟨Nat.le_refl _, hfloor⟩
      · exact ⟨Nat.le_max_right _ _, Nat.max_le.2 ⟨hle, hfloor⟩⟩
    refine ⟨?_, hout.1, hout.2, rfl, ?_, rfl⟩
    · show r.mu.ceiling = _
      rw [hmu]
      exact k1
    · show fanMap r.fanMapPoints r.finalOutput = _
      rw [hpts]
      rfl
  · rw [if_neg hgo] at hr ha
    obtain ⟨-, hmarks⟩ := hcyc hr
    have hset : marksSet (muCompute s).dm r.dm = true := Bool.eq_true_of_not_eq_false fun h => hgo ⟨hr, h⟩
    rw [hmarks hset] at ha
    cases ha

/-- What the ceiling's limits and the fan map read is alike after DM's part of a frame and at its end. -/
theorem frame_limits (f : Frame) (s : State) :
    (settle (frameStep f s)).dm.circuit = (dmFrame (frameMeasure f s)).dm.circuit
      ∧ (settle (frameStep f s)).latch = (dmFrame (frameMeasure f s)).latch
      ∧ (settle (frameStep f s)).mp.flue = (dmFrame (frameMeasure f s)).mp.flue
      ∧ (settle (frameStep f s)).mp.pub = (dmFrame (frameMeasure f s)).mp.pub
      ∧ (settle (frameStep f s)).dm.diverter = (dmFrame (frameMeasure f s)).dm.diverter := by
  have hplumb : (settle (frameStep f s)).plumbing = (dmFrame (frameMeasure f s)).plumbing :=
    plumbing_of_acts (fun h => h.1 rfl) (fun h => h.2.1 rfl) (fun h => h.2.2.2 rfl) (frame_afterDm f s)
  obtain ⟨-, -, p3, p4⟩ := frame_published f s
  have hg := gauge_fields ((gauge_of_outer (dmFrame_outer (frameMeasure f s))).trans (frameMeasure_gauge f s))
  generalize settle (frameStep f s) = t at *
  generalize dmFrame (frameMeasure f s) = w at *
  generalize measured f s = m at *
  obtain ⟨-, -, g3, g4⟩ := hg
  have hpub : t.mp.published = w.mp.published := p4.trans g4.symm
  have hflue : t.mp.flue = w.mp.flue := chan_of_published hpub .flue
  simp only [Mp.published, Mp.mk.injEq] at hpub
  simp only [State.plumbing, Prod.mk.injEq] at hplumb
  exact ⟨hplumb.2.1, p3.trans g3.symm, hflue, by simp [hpub], hplumb.2.2.2.1⟩

/-- Settles O37. -/
theorem deliveredOutputKeepsFloorAndCeiling : Obligations.DeliveredOutputKeepsFloorAndCeiling := by
  unfold Obligations.DeliveredOutputKeepsFloorAndCeiling
  intro f s hp
  obtain ⟨l1, l2, l3, l4, l5⟩ := frame_limits f s
  obtain ⟨i1, i2, -⟩ := ceilingOf_congr l1 l2 l3 l4 l5
  refine ⟨_, exec_frame f hp, fun hr ha hc => ?_⟩
  have hburn : Burning (muFrame (dmFrame (frameMeasure f s))) (settle (frameStep f s)) := by
    rw [frameStep_eq]
    exact frameRest_burning _ _
  generalize settle (frameStep f s) = t at *
  generalize dmFrame (frameMeasure f s) = w at *
  obtain ⟨hrun, hmu, hheat, hfan⟩ := hburn hr
  have hact : (muFrame w).dm.active = true := by
    have h := congrArg Prod.fst hheat
    exact h.symm.trans ha
  obtain ⟨d1, d2, d3, d4, d5, d6⟩ := muFrame_delivers (by rwa [← l1]) hrun hact
  obtain ⟨c1, c2, -⟩ := ceilingOf_least w
  have hpts : t.fanMapPoints = w.fanMapPoints := by simp only [State.fanMapPoints, l2]
  rw [i1, i2, hmu, hpts, hfan]
  exact ⟨_, d1, c1, c2, d2, d3, d4, d5, d6⟩

end Sys2Proof.Machine

/-! SUPPORT. MU's flow target, control error, integrator and raw output at a frame (R82 to R87, R89): O35. -/

namespace Sys2Proof.Machine

variable {s t u v w : State}

/-! ### MU through DM's part of a frame -/

theorem clearOverrun_burning (z : Nat) (s : State) : Burning s (clearOverrun z s) := by
  simp only [clearOverrun]
  repeat' split
  · exact .of_eq rfl rfl rfl rfl
  · exact .clear _ (.of_eq rfl rfl rfl rfl)
  · exact .refl

theorem commandValve_burning (z : Nat) (p : Position) (s : State) : Burning s (commandValve z p s) := by
  simp only [commandValve, setValve]
  split
  · exact .refl
  · exact Burning.trans (.of_eq rfl rfl rfl rfl) (clearOverrun_burning z _)

theorem evaluateZone_burning (s : State) (z : Nat) : Burning s (evaluateZone s z) := by
  have hcompare : ∀ v, Burning v (compareValve z v) := by
    intro v
    simp only [compareValve]
    repeat' split
    all_goals with_reducible first | exact .refl | exact commandValve_burning _ _ _
  simp only [evaluateZone]
  split
  · exact .refl
  · exact Burning.trans (.of_eq rfl rfl rfl rfl) (hcompare _)

theorem evaluateZones_burning (l : List Nat) (s : State) : Burning s (l.foldl evaluateZone s) := by
  induction l generalizing s with
  | nil => exact .refl
  | cons y r ih => exact (evaluateZone_burning s y).trans (ih _)

/-- A refresh that selects the circuit it finds leaves MU alone while the burner stays in RUN. -/
theorem refresh_burning (h : s.selected = s.dm.circuit) : Burning s (refresh s) := by
  have hsel : select s = s := if_pos h
  rw [refresh, hsel]
  exact evaluateZones_burning zoneNumbers s

theorem stages_of_acts {i : Bool} {p : Touch → Prop} (h1 : ¬p .stage) (h2 : ¬p .demand) (h : Acts i p u v) :
    v.mu.stages = u.mu.stages := (h.stage.resolve_left h1).resolve_left h2

theorem clearOverrun_stages (z : Nat) (s : State) : (clearOverrun z s).mu.stages = s.mu.stages := by
  have hc : ∀ v : State, (fmClear .zoneValve v).mu.stages = v.mu.stages := fun v =>
    stages_of_acts nofun nofun (fmClear_acts .zoneValve (.inl rfl) .refl : Acts false (· = .clear .zoneValve) v _)
  simp only [clearOverrun]
  repeat' split
  · rfl
  · exact hc _
  · rfl

theorem evaluateZone_stages (s : State) (z : Nat) : (evaluateZone s z).mu.stages = s.mu.stages := by
  have hcommand : ∀ p v, (commandValve z p v).mu.stages = v.mu.stages := by
    intro p v
    simp only [commandValve, setValve]
    split
    · rfl
    · exact clearOverrun_stages z _
  have hcompare : ∀ v, (compareValve z v).mu.stages = v.mu.stages := by
    intro v
    simp only [compareValve]
    repeat' split
    all_goals with_reducible first | rfl | exact hcommand _ _
  simp only [evaluateZone]
  split
  · rfl
  · exact hcompare _

/-- A change to another circuit than CH forms no stage value (R88, R98). -/
theorem changeCircuit_stages {new : Circuit} (hn : new ≠ .ch) : (changeCircuit new s).mu.stages = s.mu.stages := by
  simp only [changeCircuit]
  split
  · rfl
  · have hdel : ∀ v : State, (deliverRecord false v).mu.stages = v.mu.stages := fun v =>
      stages_of_acts (i := false) (p := fun _ => False) id id (deliverRecord_acts false .refl)
    have hcirc : ∀ v : State, v.dm.circuit ≠ .ch → (muCircuit s.dm.circuit v).mu.stages = v.mu.stages := by
      intro v hv
      simp only [muCircuit]
      cases ho : s.dm.circuit <;> cases hc : v.dm.circuit <;> dsimp only <;> first | exact absurd hc hv | (split <;> rfl)
    rw [hdel]
    split
    · rw [dmFiring]
      split
      · exact hcirc _ hn
      · exact hcirc _ hn
    · exact hcirc _ hn

theorem refresh_stages (h : s.selected ≠ .ch) : (refresh s).mu.stages = s.mu.stages := by
  have hfold : ∀ (l : List Nat) (v : State), (l.foldl evaluateZone v).mu.stages = v.mu.stages := by
    intro l
    induction l with
    | nil => exact fun _ => rfl
    | cons y r ih => exact fun v => (ih _).trans (evaluateZone_stages v y)
  rw [refresh, hfold]
  exact changeCircuit_stages h

theorem drawn_mu (s : State) : (drawn s).mu = s.mu ∧ (drawn s).bs = s.bs ∧ (drawn s).dm.circuit = s.dm.circuit
    ∧ (drawn s).dm.heat = s.dm.heat := by
  have hfold : ∀ (l : List Nat) (v : State), (l.foldl frameFallback v).mu = v.mu ∧ (l.foldl frameFallback v).bs = v.bs := by
    intro l
    induction l with
    | nil => exact fun _ => ⟨rfl, rfl⟩
    | cons y r ih =>
      intro v
      obtain ⟨h1, h2⟩ := ih (frameFallback v y)
      have hy : (frameFallback v y).mu = v.mu ∧ (frameFallback v y).bs = v.bs := by
        rw [frameFallback]
        split <;> exact ⟨rfl, rfl⟩
      exact ⟨h1.trans hy.1, h2.trans hy.2⟩
  obtain ⟨h1, h2⟩ := hfold zoneNumbers s
  have hd := (frameFallbacks_dm zoneNumbers s).1
  refine ⟨h1, h2, ?_, ?_⟩
  · show (zoneNumbers.foldl frameFallback s).dm.circuit = _
    rw [hd]
  · show (zoneNumbers.foldl frameFallback s).dm.heat = _
    rw [hd]
    rfl

/-! ### The stages of a frame -/

theorem largest_spec (l : List Value) {m : Int} (h : some m ∈ l) : ∃ x, largest l = some x ∧ some x ∈ l ∧ ∀ y, some y ∈ l → y ≤ x := by
  induction l generalizing m with
  | nil => cases h
  | cons a r ih =>
    by_cases hr : ∃ y, some y ∈ r
    · obtain ⟨y, hy⟩ := hr
      obtain ⟨x, hx, hm, hall⟩ := ih hy
      cases a with
      | none =>
        refine ⟨x, hx, List.mem_cons_of_mem _ hm, fun z hz => ?_⟩
        exact hall z ((List.mem_cons.1 hz).resolve_left nofun)
      | some b =>
        refine ⟨max b x, by simp only [largest, hx], ?_, fun z hz => ?_⟩
        · rcases Int.le_total b x with hle | hle
          · rw [Int.max_eq_right hle]
            exact List.mem_cons_of_mem _ hm
          · rw [Int.max_eq_left hle]
            exact List.mem_cons_self
        · rcases List.mem_cons.1 hz with hz | hz
          · cases hz
            exact Int.le_max_left _ _
          · exact Int.le_trans (hall z hz) (Int.le_max_right _ _)
    · have hnone : largest r = none := by
        clear ih h
        induction r with
        | nil => rfl
        | cons b q ih =>
          cases b with
          | none => exact ih fun ⟨y, hy⟩ => hr ⟨y, List.mem_cons_of_mem _ hy⟩
          | some b => exact absurd ⟨b, List.mem_cons_self⟩ hr
      rcases List.mem_cons.1 h with h | h
      · subst h
        refine ⟨m, by simp only [largest, hnone], List.mem_cons_self, fun z hz => ?_⟩
        rcases List.mem_cons.1 hz with hz | hz
        · cases hz
          exact Int.le_refl _
        · exact absurd ⟨z, hz⟩ hr
      · exact absurd ⟨m, h⟩ hr

/-- Stage 1 with circuit CH (R82 to R84). -/
theorem muStage1_ch (h : s.dm.circuit = .ch) : muStage1 s = s.onMu fun m =>
    { m with
      tz := zoneNumbers.map s.zoneTarget
      ts := match largest (zoneNumbers.map s.zoneTarget) with
        | some t => some (clamp (setTchMin s.latch.settings) (setTchMax s.latch.settings) t)
        | none => m.ts } := by
  simp only [muStage1, h] <;> rfl

theorem muStage1_frost (h : s.dm.circuit = .frost) : muStage1 s = s.onMu fun m =>
    { m with tz := zoneNumbers.map s.zoneTarget, ts := some 300 } := by
  simp only [muStage1, h]

theorem muStage1_dhw (h : s.dm.circuit = .dhw) : muStage1 s = s := by
  simp only [muStage1, h]

/-- Stages 2 and 3 with circuit CH, in terms of the state after stage 1 (R86, R87, R91). -/
theorem muCompute_ch (h : s.dm.circuit = .ch) (hx : muStage1 s = u) : (muCompute s).mu.tz = u.mu.tz
    ∧ (muCompute s).mu.ts = u.mu.ts ∧ (muCompute s).mu.e = u.errorOf ∧ (muCompute s).mu.p = u.errorOf.map u.proportional
    ∧ (muCompute s).mu.ceiling = some u.ceilingOf.1
    ∧ (u.errorOf = none → (muCompute s).mu.iAcc = u.mu.iAcc ∧ (muCompute s).mu.uRaw = some u.mMin)
    ∧ ∀ e, u.errorOf = some e → (muCompute s).mu.iAcc = u.integrate e u.ceilingOf.1
      ∧ (muCompute s).mu.uRaw = some (clamp 0 1000 (u.proportional e + quot (muCompute s).mu.iAcc 100)).toNat := by
  have hc : u.dm.circuit = .ch := by rw [← hx, (muStage1_rest s).2.1, h]
  refine ⟨?_, ?_, ?_, ?_, ?_, fun he => ?_, fun e he => ?_⟩
  all_goals simp only [muCompute, hx, hc, if_true, State.onMu_mu]
  · rw [he]
    exact ⟨rfl, rfl⟩
  · rw [he]
    exact ⟨rfl, rfl⟩

theorem muCompute_frost (h : s.dm.circuit = .frost) : (muCompute s).mu.ts = some 300 ∧ (muCompute s).mu.uRaw = some s.mMin := by
  have hx := muStage1_frost h
  refine ⟨by simp only [muCompute, hx, State.onMu_mu], ?_⟩
  simp only [muCompute, hx, State.onMu_mu, State.onMu_dm, h]
  rfl

theorem muCompute_dhw (h : s.dm.circuit = .dhw) : (muCompute s).mu.ts = s.mu.ts ∧ (muCompute s).mu.uRaw = some s.dhwOutput := by
  have hx := muStage1_dhw h
  refine ⟨?_, ?_⟩ <;> simp only [muCompute, hx, State.onMu_mu, h]

/-- What no part of a frame after MU's computation touches. -/
def AfterMu (x : Touch) : Prop := x ≠ .stage ∧ x ≠ .demand ∧ x ≠ .enter

theorem frame_afterMu (f : Frame) (s : State) (h : (dmFrame (frameMeasure f s)).dm.circuit ≠ .none) :
    Acts false AfterMu (muCompute (dmFrame (frameMeasure f s))) (settle (frameStep f s)) := by
  rw [frameStep_eq, frameActs, muFrame_eq h]
  refine frameTail_acts _ ⟨nofun, nofun, nofun⟩ ⟨nofun, nofun, nofun⟩ ⟨nofun, nofun, nofun⟩ ?_
  refine overheatStep_acts ⟨nofun, nofun, nofun⟩ ⟨nofun, nofun, nofun⟩ ⟨nofun, nofun, nofun⟩ ?_
  refine limitStep_acts ⟨nofun, nofun, nofun⟩ ⟨nofun, nofun, nofun⟩ ⟨nofun, nofun, nofun⟩ (antiCycleCheck_acts ?_)
  split
  · exact deliverOutput_acts ⟨nofun, nofun, nofun⟩ (muCycle_acts .refl)
  · exact muCycle_acts .refl

end Sys2Proof.Machine

/-! SUPPORT. The flow target and the raw output a frame leaves (R82 to R87, R89): O35. -/

namespace Sys2Proof.Machine

variable {s t u v w : State}

/-- The state in which MU computes the stages of a frame. -/
def demanded (f : Frame) (s : State) : State := dmFrame (frameMeasure f s)

theorem demanded_eq (f : Frame) (s : State) : demanded f s = refresh (drawn (frameMeasure f s)) := dmFrame_eq _

/-- The tables a frame latches are the stored ones (R81). -/
theorem frame_latched (f : Frame) (s : State) : let t := settle (frameStep f s)
    t.latch.settings = s.st.settings ∧ t.latch.curve = s.st.curve ∧ t.latch.zones = s.st.zones := by
  intro t
  rw [show t.latch = _ from (frame_published f s).2.2.1]
  exact ⟨rfl, rfl, rfl⟩

/-- What the stages of a frame read is what the frame leaves (R1, R80). -/
theorem frame_demanded (f : Frame) (s : State) : let t := settle (frameStep f s)
    t.dm.circuit = (demanded f s).dm.circuit ∧ t.latch = (demanded f s).latch ∧ t.mp.published = (demanded f s).mp.published
      ∧ (∀ z, t.zone z = (demanded f s).zone z) ∧ (demanded f s).st.zones = s.st.zones := by
  intro t
  have hzone : ∀ z, t.zone z = (demanded f s).zone z := by
    rw [demanded_eq]
    exact (frame_demand f s).2.2.2
  obtain ⟨l1, l2, -⟩ := frame_limits f s
  have ho := dmFrame_outer (frameMeasure f s)
  have hpub := (frame_published f s).2.2.2
  have hm := (frameMeasure_kept f s).2.1
  have hg := frameMeasure_gauge f s
  rw [← demanded] at l1 l2 ho
  generalize demanded f s = w at *
  generalize frameMeasure f s = u at *
  have hst : w.st.zones = u.st.zones := read_outer (fun v : State => v.st.zones) ho fun _ => rfl
  exact ⟨l1, l2, hpub.trans (gauge_fields ((gauge_of_outer ho).trans hg)).2.2.2.symm, hzone, hst.trans hm⟩

/-- A frame leaves the stages MU forms in it, and in RUN their integrator (R80, R104). -/
theorem frame_stages (f : Frame) (s : State) (h : (demanded f s).dm.circuit ≠ .none) : let t := settle (frameStep f s)
    t.mu.stages = (muCompute (demanded f s)).mu.stages
      ∧ (t.bs.state = .run → (demanded f s).bs.state = .run ∧ t.mu.iAcc = (muCompute (demanded f s)).mu.iAcc) := by
  intro t
  rw [demanded] at h
  have ha : Acts false AfterMu (muCompute (demanded f s)) t := frame_afterMu f s h
  generalize demanded f s = w at *
  clear_value t
  have hst : t.mu.stages = (muCompute w).mu.stages := stages_of_acts (fun h => h.1 rfl) (fun h => h.2.1 rfl) ha
  refine ⟨hst, fun hr => ?_⟩
  have hrun := run_of_acts ha (fun h => h.2.2 rfl) hr
  rw [(muCompute_rest _).1] at hrun
  have hi := ((ha.integral.resolve_left fun h => h.2.2 rfl).resolve_left fun h => h.2.1 rfl).resolve_left fun h => h.1 rfl
  exact ⟨hrun, hi hr⟩

/-- MU's stages through the measurements and DM's part of a frame (R88). -/
theorem demanded_stages (f : Frame) (s : State) (h : (demanded f s).dm.circuit ≠ .ch) :
    (demanded f s).mu.stages = s.mu.stages := by
  rw [demanded_eq, refresh_circuit] at h
  have ha : Acts false (fun x => x ≠ .stage ∧ x ≠ .demand) (measured f s) (frameMeasure f s) :=
    measureEvents_acts s.mp ⟨nofun, nofun⟩ (fun _ => ⟨nofun, nofun⟩) (fun _ => ⟨nofun, nofun⟩) .refl
  have hm : (measured f s).mu = s.mu := rfl
  rw [demanded_eq, refresh_stages h, (drawn_mu _).1]
  generalize frameMeasure f s = u at *
  generalize measured f s = m at *
  rw [stages_of_acts (fun h => h.1 rfl) (fun h => h.2 rfl) ha, hm]

/-- In a CH burn that the frame finds and leaves, MU enters its stages as it stood (R87, R88). -/
theorem demanded_mu (f : Frame) (s : State) (hs : s.dm.circuit = .ch) (hw : (demanded f s).dm.circuit = .ch)
    (hr : (demanded f s).bs.state = .run) : (demanded f s).mu = s.mu := by
  have hcirc : (frameMeasure f s).dm.circuit = s.dm.circuit := plumbing_circuit (frameMeasure_kept f s).1
  have hm : Burning (measured f s) (frameMeasure f s) := measureEvents_burning s.mp (measured f s)
  have hmu : (measured f s).mu = s.mu := rfl
  rw [demanded_eq, refresh_circuit] at hw
  rw [demanded_eq] at hr ⊢
  generalize frameMeasure f s = u at *
  generalize measured f s = m at *
  obtain ⟨d1, d2, d3, d4⟩ := drawn_mu u
  obtain ⟨r1, r2, -⟩ := refresh_burning (s := drawn u) (by rw [hw, d3, hcirc, hs]) hr
  rw [d2] at r1
  rw [r2, d1, (hm r1).2.1, hmu]

/-- A frame that selects CH finds a contributing zone (R69). -/
theorem demanded_contributes (f : Frame) (s : State) (h : (demanded f s).dm.circuit = .ch) : ∃ z < 8, (demanded f s).contributes z = true := by
  rw [demanded_eq, refresh_circuit] at h
  have hfirst : (drawn (frameMeasure f s)).mp.firstFrame = true :=
    (read_outer (fun v : State => v.mp.firstFrame) (drawn_outer _) fun _ => rfl).trans (frameMeasure_kept f s).2.2.2.2.2.1
  obtain ⟨c1, c2, c3⟩ := selected_cases hfirst
  have hdraw : (drawn (frameMeasure f s)).dm.draw.state ≠ .active := fun hd => by
    rw [c1 hd] at h
    cases h
  by_cases hz : setMode (drawn (frameMeasure f s)).latch.settings = .winter ∧ (drawn (frameMeasure f s)).dm.draw.state ≠ .overrun
      ∧ zoneNumbers.any (drawn (frameMeasure f s)).contributes = true
  · obtain ⟨z, hlt, hc⟩ := any_zone.1 hz.2.2
    refine ⟨z, hlt, ?_⟩
    rw [demanded_eq, refresh_contributes hz.1, hc]
  · rw [c3 hdraw hz] at h
    split at h <;> cases h

theorem stages_fields {m n : Mu} (h : m.stages = n.stages) : m.tz = n.tz ∧ m.ts = n.ts ∧ m.e = n.e ∧ m.p = n.p
    ∧ m.uRaw = n.uRaw ∧ m.ceiling = n.ceiling := by
  simp only [Mu.stages, Mu.mk.injEq] at h
  simp [h]

theorem getD_map_zones (g : Nat → Value) {z : Nat} (hz : z < 8) : (zoneNumbers.map g).getD z none = g z := by
  have h : ∀ n, (h : n < 8) → zoneNumbers[n]? = some n := by decide
  rw [List.getD_eq_getElem?_getD, List.getElem?_map, h z hz]
  rfl

/-- The flow targets of a CH frame (R82 to R84). -/
theorem muCompute_targets (h : w.dm.circuit = .ch) {z : Nat} (hz : z < 8) (hc : w.contributes z = true) :
    (muCompute w).mu.tz = zoneNumbers.map w.zoneTarget
      ∧ ∃ m, some m ∈ (muCompute w).mu.tz ∧ (∀ x, some x ∈ (muCompute w).mu.tz → x ≤ m)
        ∧ (muCompute w).mu.ts = some (clamp (setTchMin w.latch.settings) (setTchMax w.latch.settings) m) := by
  obtain ⟨htz, hts, -⟩ := muCompute_ch h (muStage1_ch h)
  simp only [State.onMu_mu] at htz hts
  have hmem : ∃ m, some m ∈ zoneNumbers.map w.zoneTarget := by
    refine ⟨_, List.mem_map.2 ⟨z, ?_, by rw [State.zoneTarget, if_pos hc]⟩⟩
    simp only [zoneNumbers, List.mem_cons, List.not_mem_nil, or_false]
    omega
  obtain ⟨m, hm⟩ := hmem
  obtain ⟨x, hx, hin, hall⟩ := largest_spec _ hm
  rw [hx] at hts
  refine ⟨htz, x, ?_, ?_, hts⟩
  · rw [htz]
    exact hin
  · rw [htz]
    exact hall

/-- The target of a zone, as R83 says it. -/
theorem zoneTarget_eq (s : State) (z : Nat) : s.zoneTarget z =
    if zoneEnabled s.st.zones z = true ∧ (s.zone z).call = .call ∧ (s.zone z).valve = .opened then
      some (interpolate (curvePoints s.latch.curve) s.mp.pub.outdoor + zoneOffset s.latch.zones z
        + (if (s.zone z).fallback then 0
          else match (s.zone z).temp with
            | some x => clamp (-150) 150 (Int.tdiv (setKr s.latch.settings * ((s.zone z).setpoint - x)) 10)
            | none => 0))
    else none := by
  have hroom : roomCorrection (setKr s.latch.settings) (s.zone z) = if (s.zone z).fallback then 0
      else match (s.zone z).temp with
        | some x => clamp (-150) 150 (Int.tdiv (setKr s.latch.settings * ((s.zone z).setpoint - x)) 10)
        | none => 0 := by
    rw [roomCorrection]
    cases (s.zone z).temp <;> cases (s.zone z).fallback <;> rfl
  rw [State.zoneTarget, hroom]
  by_cases hc : s.contributes z = true
  · rw [if_pos hc, if_pos (contributes_iff.1 hc)]
  · rw [if_neg hc, if_neg fun h => hc (contributes_iff.2 h)]

/-- The integration step of a frame in RUN with circuit CH (R87). -/
theorem integrate_ch {e : Int} {c : Nat} (hr : s.bs.state = .run) (hc : s.dm.circuit = .ch) :
    let sum := s.proportional e + Int.tdiv s.mu.iAcc 100
    ((s.mu.cyc.state = .offPhase ∨ ((c : Int) ≤ sum ∧ 0 < e) ∨ (sum ≤ 0 ∧ e < 0)) → s.integrate e c = s.mu.iAcc)
      ∧ (s.mu.cyc.state ≠ .offPhase → ¬((c : Int) ≤ sum ∧ 0 < e) → ¬(sum ≤ 0 ∧ e < 0) →
        s.integrate e c = (clamp 0 100000 (s.mu.iAcc + setKi s.latch.settings * e)).toNat) := by
  intro sum
  have hcond : (s.bs.state != .run || s.dm.circuit != .ch || s.mu.cyc.state == .offPhase
      || (decide ((c : Int) ≤ sum) && decide (0 < e)) || (decide (sum ≤ 0) && decide (e < 0))) = true
      ↔ s.mu.cyc.state = .offPhase ∨ ((c : Int) ≤ sum ∧ 0 < e) ∨ (sum ≤ 0 ∧ e < 0) := by
    simp [hr, hc, or_assoc]
  refine ⟨fun h => if_pos (hcond.2 h), fun h1 h2 h3 => if_neg fun h => ?_⟩
  rcases hcond.1 h with h | h | h
  · exact h1 h
  · exact h2 h
  · exact h3 h

end Sys2Proof.Machine

/-! SETTLES O35. -/

namespace Sys2Proof.Machine

variable {s t u v w : State}

/-- Where flow_ctl or Ts is ABSENT, so is the control error (R86). -/
theorem errorOf_none (h : s.mp.pub.flowCtl = none) : s.errorOf = none := by
  rw [State.errorOf, h]
  cases s.mu.ts <;> rfl

theorem errorOf_some {ts flow : Int} (h : s.mp.pub.flowCtl = some flow) (ht : s.mu.ts = some ts) :
    s.errorOf = some (clamp (-500) 500 (ts - flow)) := by
  rw [State.errorOf, h, ht]
  rfl

/-- Stage 2 of a CH frame in terms of the state in which MU computes it (R86, R87). -/
theorem muCompute_error (h : w.dm.circuit = .ch) : let t := muCompute w
    (w.mp.pub.flowCtl = none → t.mu.e = none ∧ t.mu.p = none ∧ t.mu.uRaw = some w.mMin ∧ t.mu.iAcc = w.mu.iAcc)
      ∧ ∀ flow ts c, w.mp.pub.flowCtl = some flow → t.mu.ts = some ts → t.mu.ceiling = some c →
          let e := clamp (-500) 500 (ts - flow)
          t.mu.e = some e ∧ t.mu.p = some (w.proportional e)
            ∧ t.mu.uRaw = some (clamp 0 1000 (w.proportional e + quot t.mu.iAcc 100)).toNat
            ∧ t.mu.iAcc = w.integrate e c := by
  obtain ⟨-, m2, m3, m4, m5, m6, m7⟩ := muCompute_ch h rfl
  obtain ⟨r1, r2, r3, r4, -⟩ := muStage1_rest w
  have hmin : (muStage1 w).mMin = w.mMin := by rw [State.mMin, State.mMin, r4]
  have hi : (muStage1 w).mu.iAcc = w.mu.iAcc ∧ (muStage1 w).mu.cyc = w.mu.cyc := by
    rw [muStage1_ch h]
    exact ⟨rfl, rfl⟩
  have hp : ∀ e, (muStage1 w).proportional e = w.proportional e := fun e => by rw [State.proportional, State.proportional, r4]
  have hint : ∀ e c, (muStage1 w).integrate e c = w.integrate e c := fun e c => by
    simp only [State.integrate, hp, hi, r1, r2, r4]
  refine ⟨fun hf => ?_, fun flow ts c hf ht hc => ?_⟩
  · have he := errorOf_none (s := muStage1 w) (by rw [r3]; exact hf)
    obtain ⟨a1, a2⟩ := m6 he
    rw [he] at m3 m4
    exact ⟨m3, m4, a2.trans (by rw [hmin]), a1.trans hi.1⟩
  · have he := errorOf_some (s := muStage1 w) (by rw [r3]; exact hf) (m2.symm.trans ht)
    obtain ⟨a1, a2⟩ := m7 _ he
    rw [he] at m3 m4
    rw [hp] at a2
    rw [hint] at a1
    have hcc : (muStage1 w).ceilingOf.1 = c := Option.some.inj (m5.symm.trans hc)
    rw [hcc] at a1
    exact ⟨m3, m4.trans (congrArg some (hp _)), a2, a1⟩

/-- With circuit NONE a frame computes nothing (R82). -/
theorem frame_stages_none (f : Frame) (s : State) (h : (demanded f s).dm.circuit = .none) :
    (settle (frameStep f s)).mu.stages = (demanded f s).mu.stages := by
  rw [demanded] at h
  have ha : Acts false AfterMu (demanded f s) (settle (frameStep f s)) := by
    rw [frameStep_eq, frameActs, muFrame, if_pos h]
    refine frameTail_acts _ ⟨nofun, nofun, nofun⟩ ⟨nofun, nofun, nofun⟩ ⟨nofun, nofun, nofun⟩ ?_
    refine overheatStep_acts ⟨nofun, nofun, nofun⟩ ⟨nofun, nofun, nofun⟩ ⟨nofun, nofun, nofun⟩ ?_
    exact limitStep_acts ⟨nofun, nofun, nofun⟩ ⟨nofun, nofun, nofun⟩ ⟨nofun, nofun, nofun⟩ (antiCycleCheck_acts .refl)
  generalize settle (frameStep f s) = t at *
  generalize demanded f s = w at *
  exact stages_of_acts (fun h => h.1 rfl) (fun h => h.2.1 rfl) ha

/-- Settles O35. -/
theorem flowTargetAndRawOutputFollowTheFrame : Obligations.FlowTargetAndRawOutputFollowTheFrame := by
  unfold Obligations.FlowTargetAndRawOutputFollowTheFrame
  intro f s hp set
  refine ⟨_, exec_frame f hp, ?_⟩
  obtain ⟨l1, l2, l3⟩ := frame_latched f s
  obtain ⟨k1, k2, k3, k4, k5⟩ := frame_demanded f s
  have hstage := frame_stages f s
  have hidle := frame_stages_none f s
  have hkept := demanded_stages f s
  have hmu := demanded_mu f s
  have hcontrib := demanded_contributes f s
  generalize settle (frameStep f s) = t at *
  generalize demanded f s = w at *
  have hpub : t.mp.pub = w.mp.pub := by
    simp only [Mp.published, Mp.mk.injEq] at k3
    simp [k3]
  have hcold : t.mp.coldIn = w.mp.coldIn := chan_of_published k3 .coldIn
  have hdhw : t.mp.dhwOut = w.mp.dhwOut := chan_of_published k3 .dhwOut
  have hmin : t.mMin = w.mMin := by rw [State.mMin, State.mMin, k2]
  have hrated : t.prated = w.prated := by rw [State.prated, State.prated, k2]
  rw [k2] at l1 l2 l3
  rw [k1, hpub, hcold, hdhw, hmin, hrated]
  refine ⟨fun hc => ?_, fun hc => ?_, fun hc => ?_, fun hc => ?_⟩
  · obtain ⟨hst, hrun⟩ := hstage (by rw [hc]; exact nofun)
    obtain ⟨g1, g2, g3, g4, g5, g6⟩ := stages_fields hst
    obtain ⟨z, hz, hcz⟩ := hcontrib hc
    obtain ⟨htz, m, hm, hle, hts⟩ := muCompute_targets hc hz hcz
    obtain ⟨herr, hval⟩ := muCompute_error hc
    rw [g1, g2, g3, g4, g5, g6]
    refine ⟨by rw [htz]; rfl, fun y hy => ?_, ⟨m, hm, hle, by rw [hts, l1]⟩, fun hf => ?_, fun flow ts c hf ht hcl => ?_⟩
    · rw [htz, getD_map_zones _ hy, zoneTarget_eq, k4, k5, l1, l2, l3] <;> rfl
    · obtain ⟨e1, e2, e3, e4⟩ := herr hf
      refine ⟨e1, e2, e3, fun hr hs => ?_⟩
      obtain ⟨hr, hi⟩ := hrun hr
      rw [hi, e4, hmu hs hc hr]
    · intro e p sum
      obtain ⟨e1, e2, e3, e4⟩ := hval flow ts c hf ht hcl
      have hprop : w.proportional e = p := by rw [State.proportional, l1]; rfl
      rw [hprop] at e2 e3
      refine ⟨e1, e2, fun hr => ?_, fun hr hs => ?_⟩
      · rw [(hrun hr).2]
        exact e3
      · obtain ⟨hr, hi⟩ := hrun hr
        have hstep := integrate_ch (e := e) (c := c) hr hc
        rw [hmu hs hc hr, hprop, l1] at hstep
        rw [hi, e4]
        exact hstep
  · obtain ⟨hst, -⟩ := hstage (by rw [hc]; exact nofun)
    obtain ⟨g1, g2, g3, g4, g5, g6⟩ := stages_fields hst
    rw [g2, g5]
    exact muCompute_frost hc
  · obtain ⟨hst, -⟩ := hstage (by rw [hc]; exact nofun)
    obtain ⟨g1, g2, g3, g4, g5, g6⟩ := stages_fields hst
    obtain ⟨d1, d2⟩ := muCompute_dhw hc
    obtain ⟨-, j2, -⟩ := stages_fields (hkept (by rw [hc]; exact nofun))
    rw [g2, g5, d1, d2]
    refine ⟨j2, fun hne => ?_⟩
    rw [State.dhwOutput, l1]
    simp only [quotNat, if_neg hne]
    rfl
  · obtain ⟨g1, g2, g3, g4, g5, g6⟩ := stages_fields ((hidle hc).trans (hkept (by rw [hc]; exact nofun)))
    exact ⟨g1, g2, g3, g4, g5, g6⟩

end Sys2Proof.Machine

/-! SUPPORT. The bus port reset (R145): what it makes of the port, the poll engine, the proxy slot and the valves. -/

namespace Sys2Proof.Machine

variable {s t u v w : State}

/-! ### The exchange in flight ended by the reset (R145, step 1) -/

/-- The proxy slot after the report of a failed fetch, or after a closing outcome STRETCH, up to its delivery mark. -/
def SlotFailed (k l : Slot) (now : Nat) : Prop :=
  (k.state = .fetching → l = k.noAnswer now) ∧ (k.state ≠ .fetching → l = k)

theorem fetchResult_slot (s : State) : SlotFailed s.mg.slot (fetchResult .noAnswer [] s).mg.slot s.clock.now := by
  rw [fetchResult]
  refine ⟨fun h => ?_, fun h => ?_⟩
  · rw [if_pos h]
    rfl
  · rw [if_neg h]

theorem presenceMiss_reset (a : Nat) (s : State) :
    (presenceMiss a s).pe.nodes.map NodeLive.afterReset = s.pe.nodes.map NodeLive.afterReset := by
  have hset : ∀ g : NodeLive → NodeLive, (∀ n, (g n).afterReset = n.afterReset) →
      (s.onNode a g).pe.nodes.map NodeLive.afterReset = s.pe.nodes.map NodeLive.afterReset := fun g hg => updateAt_map hg _ _
  have habsent : ∀ u : State, (nodeBecomesAbsent a u).pe.nodes = u.pe.nodes := by
    intro u
    have hr := fun w : State => read_outer (fun v : State => v.pe.nodes) (roomUnitAbsent_outer a w) fun _ => rfl
    have hf : (fmRaise .nodeAbsent a u).pe.nodes = u.pe.nodes :=
      read_outer (fun v : State => v.pe.nodes) (fmRaise_outer .nodeAbsent a u) fun _ => rfl
    rw [nodeBecomesAbsent, hr]
    split
    · rfl
    · exact hf
  simp only [presenceMiss]
  split
  · rfl
  split
  · rw [habsent]
    exact hset _ fun _ => rfl
  · exact hset _ fun _ => rfl

theorem takeFailure_slot (f : InFlight) (a : Nat) (s : State) :
    (takeFailure f a s).mg.slot = s.mg.slot ∨ SlotFailed s.mg.slot (takeFailure f a s).mg.slot s.clock.now := by
  obtain ⟨-, h2, h3, -⟩ := presenceMiss_link a s
  cases f with
  | entry => exact .inl (congrArg Mg.slot h3)
  | servicePoll => exact .inl (congrArg Mg.slot h3)
  | valve z p => exact .inl (congrArg Mg.slot ((valveResult_link z p .failed (removeInFlight (presenceMiss a s))).2.2.1.trans h3))
  | proxy =>
    right
    have h := fetchResult_slot (removeInFlight (presenceMiss a s))
    rw [show (removeInFlight (presenceMiss a s)).mg = s.mg from h3, show (removeInFlight (presenceMiss a s)).clock = s.clock from h2] at h
    exact h

/-- The port after the exchange in flight has been ended by the reset. -/
def Zp.dropped (z : Zp) (time : Nat) : Zp :=
  match z.exch with
  | some x => { rxEmpty { z with lastFail := some { reason := .noReply, node := x.node, kind := x.kind, time := time } } with exch := none, port := .ready }
  | none => z

theorem recordFailure_zp (s : State) : (recordFailure .noReply s).zp = s.zp.dropped s.time := by
  rw [recordFailure, Zp.dropped]
  cases hx : s.zp.exch <;> rfl

/-- The end of the exchange in flight at a bus port reset. -/
theorem resetExchange_link (s : State) : let r := resetExchange s
    r.clock = s.clock ∧ r.zp = s.zp.dropped s.time ∧ r.pe.round = s.pe.round
      ∧ r.pe.nodes.map NodeLive.afterReset = s.pe.nodes.map NodeLive.afterReset
      ∧ (r.mg.slot = s.mg.slot ∨ SlotFailed s.mg.slot r.mg.slot s.clock.now
        ∨ (s.inPhase .closing = true ∧ r.mg.slot = { s.mg.slot with delivering := false })) := by
  have hrec : ∀ {x : Exchange}, s.zp.exch = some x → (recordFailure .noReply s).clock = s.clock
      ∧ (recordFailure .noReply s).pe = s.pe ∧ (recordFailure .noReply s).mg = s.mg := fun hx => by
    rw [recordFailure_of_exch hx]
    exact ⟨rfl, rfl, rfl⟩
  intro r
  cases hx : s.zp.exch with
  | none =>
    have hr : r = s := by
      show resetExchange s = s
      rw [resetExchange, hx]
    rw [hr]
    refine ⟨rfl, ?_, rfl, rfl, .inl rfl⟩
    rw [Zp.dropped, hx]
  | some x =>
    obtain ⟨k1, k2, k3⟩ := hrec hx
    cases hf : s.pe.round.inFlight with
    | none =>
      have hr : r = recordFailure .noReply s := by
        show resetExchange s = _
        rw [resetExchange, hx, hf]
      rw [hr]
      exact ⟨k1, recordFailure_zp s, by rw [k2], by rw [k2], .inl (by rw [k3])⟩
    | some f =>
      by_cases hc : x.phase = .closing
      · have hr : r = mgClosing false (recordFailure .noReply s) := by
          show resetExchange s = _
          rw [resetExchange, hx, hf]
          exact if_pos hc
        rw [hr]
        have hslot : (mgClosing false (recordFailure .noReply s)).mg.slot = { s.mg.slot with delivering := false } := by
          rw [mgClosing]
          simp [k3]
        refine ⟨k1, recordFailure_zp s, ?_, ?_, .inr (.inr ⟨?_, hslot⟩)⟩
        · exact congrArg Pe.round k2
        · exact congrArg (fun p : Pe => p.nodes.map NodeLive.afterReset) k2
        · rw [State.inPhase, hx]
          simp [hc]
      · have hr : r = takeFailure f x.node (recordFailure .noReply s) := by
          show resetExchange s = _
          rw [resetExchange, hx, hf]
          exact if_neg hc
        obtain ⟨t1, t2, t3, t4⟩ := takeFailure_link f x.node (recordFailure .noReply s)
        have hslot := takeFailure_slot f x.node (recordFailure .noReply s)
        rw [k1, k3] at hslot
        rw [hr]
        refine ⟨t2.trans k1, t1.trans (recordFailure_zp s), t3.trans (by rw [k2]), ?_, hslot.imp_right .inl⟩
        rw [t4, presenceMiss_reset, k2]

/-! ### The valves (R66) -/

/-- A zone's record after a bus port reset. -/
def Zone.afterReset (r : Zone) (valved : Bool) : Zone :=
  if valved then { r with valve := .unknown, travel := none, ack := false, overrun := false }
  else { r with travel := none, ack := false, overrun := false }

/-- The reset of one zone's valve. -/
def resetValve (s : State) (z : Nat) : State := s.onZone z fun r => r.afterReset (s.hasValve z)

theorem dmBusReset_eq (s : State) : dmBusReset s = refresh (if s.dm.zones.any fun r => r.overrun then
    fmClear .zoneValve (zoneNumbers.foldl resetValve s) else zoneNumbers.foldl resetValve s) := by
  have hone : ∀ (l : List Nat) (v : State), l.foldl (fun (s : State) (z : Nat) =>
      if s.hasValve z then s.onZone z fun r => { r with valve := .unknown, travel := none, ack := false, overrun := false }
      else s.onZone z fun r => { r with travel := none, ack := false, overrun := false }) v = l.foldl resetValve v := by
    intro l
    induction l with
    | nil => exact fun _ => rfl
    | cons y r ih =>
      intro v
      rw [List.foldl_cons, List.foldl_cons, ← ih]
      congr 1
      rw [resetValve]
      by_cases h : v.hasValve y = true
      · simp only [h, if_true, Zone.afterReset]
      · simp only [h, Zone.afterReset]
        rfl
  rw [dmBusReset, hone]

theorem resetValves_kept (l : List Nat) (s : State) : (l.foldl resetValve s).dm.zones.length = s.dm.zones.length
    ∧ (l.foldl resetValve s).st = s.st ∧ (l.foldl resetValve s).pe = s.pe := by
  induction l generalizing s with
  | nil => exact ⟨rfl, rfl, rfl⟩
  | cons y r ih =>
    obtain ⟨h1, h2, h3⟩ := ih (resetValve s y)
    exact ⟨h1.trans (onZone_length _ _ _), h2, h3⟩

theorem resetValves_zone {l : List Nat} {z : Nat} (hz : z ∈ l) (hlen : z < s.dm.zones.length) :
    (l.foldl resetValve s).zone z = (s.zone z).afterReset (s.hasValve z) := by
  have hidem : ∀ (r : Zone) b, (r.afterReset b).afterReset b = r.afterReset b := by
    intro r b
    cases b <;> rfl
  have hall : ∀ (l : List Nat) (v : State), z < v.dm.zones.length → (v.zone z).afterReset (v.hasValve z) = v.zone z →
      (l.foldl resetValve v).zone z = v.zone z := by
    intro l
    induction l with
    | nil => exact fun _ _ _ => rfl
    | cons y r ih =>
      intro v hl hv
      have hy : (resetValve v y).zone z = v.zone z := by
        rw [resetValve]
        by_cases hyz : z = y
        · subst hyz
          rw [zone_onZone_same hl, hv]
        · exact zone_onZone_ne hyz
      rw [List.foldl_cons, ih _ (by rw [resetValve, onZone_length]; exact hl), hy]
      rw [hy]
      exact hv
  induction l generalizing s with
  | nil => cases hz
  | cons y r ih =>
    by_cases hyz : z = y
    · subst hyz
      have hy : (resetValve s z).zone z = (s.zone z).afterReset (s.hasValve z) := zone_onZone_same hlen
      rw [List.foldl_cons, hall, hy]
      · rw [resetValve, onZone_length]
        exact hlen
      · rw [hy]
        exact hidem _ _
    · have hy : (resetValve s y).zone z = s.zone z := zone_onZone_ne hyz
      rw [List.foldl_cons, ih ((List.mem_cons.1 hz).resolve_left hyz) (by rw [resetValve, onZone_length]; exact hlen), hy]
      rfl

/-- Where no valve's state is known, a refresh sends no command (R59, R60). -/
theorem evaluateZones_unvalved {l : List Nat} (h : ∀ z ∈ l, s.hasValve z = false ∨ (s.zone z).valve = .unknown) :
    (l.foldl evaluateZone s).pe.urgent = s.pe.urgent := by
  induction l generalizing s with
  | nil => rfl
  | cons y r ih =>
    have hy := (evaluateZone_unknown (z := y) (h y List.mem_cons_self)).2
    refine (ih fun z hz => ?_).trans (congrArg Pe.urgent hy)
    by_cases hyz : z = y
    · subst hyz
      have hw := congrArg Zone.valve (evaluateZone_unknown (z := z) (h z List.mem_cons_self)).1
      have hst : (evaluateZone s z).hasValve z = s.hasValve z := by rw [State.hasValve, State.hasValve, (evaluateZone_alike s z).2.1]
      rw [hst, show ((evaluateZone s z).zone z).valve = (s.zone z).valve from hw]
      exact h z List.mem_cons_self
    · have hst : (evaluateZone s y).hasValve z = s.hasValve z := by rw [State.hasValve, State.hasValve, (evaluateZone_alike s y).2.1]
      rw [hst, evaluateZone_zone_ne hyz]
      exact h z (List.mem_cons_of_mem _ hz)

theorem refresh_urgent (h : ∀ z < 8, s.hasValve z = false ∨ (s.zone z).valve = .unknown) : (refresh s).pe.urgent = s.pe.urgent := by
  have hst : (select s).st.zones = s.st.zones := read_outer (fun v : State => v.st.zones) (select_outer s) fun _ => rfl
  have hmem : ∀ z ∈ zoneNumbers, z < 8 := by decide
  have hf : ∀ l : List Nat, (∀ z ∈ l, z < 8) → (l.foldl evaluateZone (select s)).pe.urgent = (select s).pe.urgent := fun l hl =>
    evaluateZones_unvalved fun z hz => by
      rw [State.hasValve, hst, select_zone]
      exact h z (hl z hz)
  have hp := select_plumbing s
  simp only [State.plumbing, Prod.mk.injEq] at hp
  rw [refresh, hf zoneNumbers hmem]
  exact hp.2.2.2.2.2

/-- DM at a bus port reset, on a poll engine whose urgent queue is empty (R66, R168). -/
theorem dmBusReset_valves (hlen : s.dm.zones.length = 8) : (dmBusReset s).pe.urgent = s.pe.urgent
    ∧ ∀ z < 8, s.hasValve z = true → ((dmBusReset s).zone z).valve = .unknown ∧ ((dmBusReset s).zone z).travel = none
      ∧ ((dmBusReset s).zone z).ack = false ∧ ((dmBusReset s).zone z).overrun = false := by
  obtain ⟨w, hw, hp, hst⟩ : ∃ w, dmBusReset s = refresh w ∧ w.plumbing = (zoneNumbers.foldl resetValve s).plumbing
      ∧ w.st.zones = (zoneNumbers.foldl resetValve s).st.zones := by
    refine ⟨_, dmBusReset_eq s, ?_⟩
    split
    · exact ⟨fmClear_plumbing _ _, read_outer (fun v : State => v.st.zones) (fmClear_outer _ _) fun _ => rfl⟩
    · exact ⟨rfl, rfl⟩
  obtain ⟨-, k2, k3⟩ := resetValves_kept zoneNumbers s
  have hzone : ∀ z < 8, w.zone z = (s.zone z).afterReset (s.hasValve z) := by
    intro z hz
    rw [plumbing_zone hp]
    exact resetValves_zone (by simp only [zoneNumbers, List.mem_cons, List.not_mem_nil, or_false]; omega) (by omega)
  have hvalve : ∀ z, w.hasValve z = s.hasValve z := fun z => by rw [State.hasValve, State.hasValve, hst, k2]
  have hun : ∀ z < 8, s.hasValve z = true → (w.zone z).valve = .unknown := fun z hz hv => by
    rw [hzone z hz, hv]
    rfl
  rw [hw]
  refine ⟨?_, fun z hz hv => ?_⟩
  · have hu : w.pe.urgent = s.pe.urgent := by
      simp only [State.plumbing, Prod.mk.injEq] at hp
      rw [hp.2.2.2.2.2, k3]
    rw [refresh_urgent, hu]
    intro z hz
    rw [hvalve]
    cases hv : s.hasValve z
    · exact .inl rfl
    · exact .inr (hun z hz hv)
  · have hwk := refresh_unknown (hun z hz hv)
    rw [hzone z hz, hv] at hwk
    generalize (refresh w).zone z = r at *
    exact ⟨congrArg (fun q => q.valve) hwk, congrArg (fun q => q.travel) hwk, congrArg (fun q => q.ack) hwk,
      congrArg (fun q => q.overrun) hwk⟩

end Sys2Proof.Machine

/-! SUPPORT. The bus port reset as a whole, and the port states it leads to (R142 to R145). -/

namespace Sys2Proof.Machine

variable {s t u v w : State}

theorem BusReset.of_same {n : Nat} (h : BusReset s u n) (hc : v.clock = u.clock) (he : v.zp.exch = u.zp.exch) (hr : v.zp.rx = u.zp.rx)
    (hready : v.pe.portReady = u.pe.portReady) (hround : v.pe.round = u.pe.round) (hnodes : v.pe.nodes = u.pe.nodes)
    (hmg : v.mg = u.mg) (hp : v.plumbing = u.plumbing) : BusReset s v n := by
  have hu : v.pe.urgent = u.pe.urgent := by
    simp only [State.plumbing, Prod.mk.injEq] at hp
    exact hp.2.2.2.2.2
  have hz := plumbing_zone hp
  obtain ⟨b1, b2, b3, b4, b5, b6, b7, b8, b9, b10, b11, b12, b13, b14, b15⟩ := h
  refine ⟨by rw [hc]; exact b1, he.trans b2, hr.trans b3, hu.trans b4, hready.trans b5, ?_⟩
  rw [hround, hnodes, hmg]
  refine ⟨b6, b7, b8, b9, b10, b11, b12, b13, b14, fun z hz8 hv => ?_⟩
  rw [hz]
  exact b15 z hz8 hv

theorem BusReset.settled {n : Nat} (h : BusReset s u n) : BusReset s (settle u) n := by
  obtain ⟨e1, e2, -, e4, -, e6, e7, e8⟩ := settle_link u
  exact h.of_same e4 (by rw [e1]) (by rw [e1]) e8 e6 e7 e2
    (plumbing_of_acts nofun nofun nofun (settle_acts (.inl rfl) .refl : Acts false (· = .raise .gasRelay) u _))

theorem peBusReset_urgent (s : State) : (peBusReset s).pe.urgent = [] := by
  have hf : ∀ v : State, (fmClear .nodeAbsent v).pe.urgent = v.pe.urgent := fun v => by
    have h := fmClear_plumbing .nodeAbsent v
    simp only [State.plumbing, Prod.mk.injEq] at h
    exact h.2.2.2.2.2
  simp only [peBusReset]
  split
  · exact hf _
  · rfl

/-- What a bus port reset does not touch: the tables and the counters. -/
def OnReset (x : Touch) : Prop := x ≠ .tables ∧ x ≠ .counts

theorem failScope_onReset : FailScope OnReset :=
  ⟨⟨nofun, nofun⟩, ⟨nofun, nofun⟩, ⟨nofun, nofun⟩, ⟨nofun, nofun⟩, ⟨nofun, nofun⟩, .inl ⟨nofun, nofun⟩, ⟨nofun, nofun⟩⟩

theorem zoneTable_of_acts (h : Acts false OnReset u v) : v.st.zones = u.st.zones := by
  have h := h.tables.resolve_left fun h => h.1 rfl
  simp only [Prod.mk.injEq] at h
  exact h.2.1

theorem time_of_acts (h : Acts false OnReset u v) : v.time = u.time := by
  rw [State.time, State.time, h.counters.resolve_left fun h => h.2 rfl]

/-- The exchange ended and the assembly emptied (R145, step 1). -/
def dropExchange (s : State) : State := (resetExchange s).onZp rxEmpty

theorem dropExchange_acts (s : State) : Acts false OnReset s (dropExchange s) := (resetExchange_acts failScope_onReset .refl).onZp failScope_onReset.link

theorem busPortReset_eq (s : State) : busPortReset s = mgBusReset (dmBusReset (peBusReset (dropExchange s))) := rfl

theorem busPortReset_time (s : State) : (busPortReset s).time = s.time :=
  time_of_acts (busPortReset_acts failScope_onReset ⟨nofun, nofun⟩ .refl)

theorem dropExchange_link (s : State) : let r := dropExchange s
    r.clock = s.clock ∧ r.zp = rxEmpty (s.zp.dropped s.time) ∧ r.pe.round = s.pe.round
      ∧ r.pe.nodes.map NodeLive.afterReset = s.pe.nodes.map NodeLive.afterReset
      ∧ (r.mg.slot = s.mg.slot ∨ SlotFailed s.mg.slot r.mg.slot s.clock.now
        ∨ (s.inPhase .closing = true ∧ r.mg.slot = { s.mg.slot with delivering := false })) := by
  obtain ⟨h1, h2, h3, h4, h5⟩ := resetExchange_link s
  exact ⟨h1, congrArg rxEmpty h2, h3, h4, h5⟩

theorem mgBusReset_kept (s : State) : (mgBusReset s).pe = s.pe ∧ (mgBusReset s).dm = s.dm := by
  rw [mgBusReset, fetchResult]
  split <;> exact ⟨rfl, rfl⟩

/-- The valves and the urgent queue at a bus port reset (R66, R168). -/
theorem busPortReset_valves (hlen : s.dm.zones.length = 8) : (busPortReset s).pe.urgent = []
    ∧ ∀ z < 8, s.hasValve z = true → ((busPortReset s).zone z).valve = .unknown ∧ ((busPortReset s).zone z).travel = none
      ∧ ((busPortReset s).zone z).ack = false ∧ ((busPortReset s).zone z).overrun = false := by
  have hacts : Acts false OnReset s (peBusReset (dropExchange s)) :=
    (dropExchange_acts s).trans (peBusReset_acts failScope_onReset.poll failScope_onReset.presence ⟨nofun, nofun⟩ .refl)
  have hurg := peBusReset_urgent (dropExchange s)
  rw [busPortReset_eq]
  generalize peBusReset (dropExchange s) = r at *
  have hvalve : ∀ z, r.hasValve z = s.hasValve z := fun z => by rw [State.hasValve, State.hasValve, zoneTable_of_acts hacts]
  obtain ⟨d1, d2⟩ := dmBusReset_valves (s := r) (hacts.zonesLength.trans hlen)
  have hmg := mgBusReset_kept (dmBusReset r)
  generalize dmBusReset r = d at *
  refine ⟨by rw [hmg.1, d1, hurg], fun z hz hv => ?_⟩
  rw [zone_of_zones (congrArg Dm.zones hmg.2)]
  exact d2 z hz (by rw [hvalve, hv])

theorem Zp.dropped_exch (z : Zp) (time : Nat) : (rxEmpty (z.dropped time)).exch = none := by
  rw [Zp.dropped]
  cases h : z.exch with
  | none => exact h
  | some x => rfl

/-- The proxy slot at a bus port reset (R185). -/
theorem slot_reset {k l : Slot} {closing : Bool} {now : Nat}
    (h : l = k ∨ SlotFailed k l now ∨ (closing = true ∧ l = { k with delivering := false })) :
    let m := if l.state = .fetching then l.noAnswer now else l
    (k.state = .fetching → m = k.noAnswer now)
      ∧ (k.state ≠ .fetching → { m with delivering := k.delivering } = k ∧ (closing = false → m = k)) := by
  have hready : (k.noAnswer now).state ≠ .fetching := nofun
  dsimp only
  rcases h with h | ⟨h1, h2⟩ | ⟨hc, h⟩
  · rw [h]
    exact ⟨fun hk => if_pos hk, fun hk => by rw [if_neg hk]; exact ⟨rfl, fun _ => rfl⟩⟩
  · refine ⟨fun hk => ?_, fun hk => ?_⟩
    · rw [h1 hk, if_neg hready]
    · rw [h2 hk, if_neg hk]
      exact ⟨rfl, fun _ => rfl⟩
  · rw [h]
    refine ⟨fun hk => ?_, fun hk => ?_⟩
    · rw [if_pos hk]
      rfl
    · rw [if_neg hk]
      exact ⟨rfl, fun hn => by rw [hc] at hn; cases hn⟩

/-- The bus port reset (R145). -/
theorem busPortReset_taken (hlen : s.dm.zones.length = 8) : BusReset s (busPortReset s) s.clock.now
    ∧ (busPortReset s).clock = s.clock ∧ (busPortReset s).zp = rxEmpty (s.zp.dropped s.time) := by
  obtain ⟨r1, r2, r3, r4, r5⟩ := dropExchange_link s
  obtain ⟨l1, l2, l3, l4, l5, l6⟩ := busReports_link (dropExchange s)
  obtain ⟨v1, v2⟩ := busPortReset_valves hlen
  rw [← busPortReset_eq] at l1 l2 l3 l4 l5 l6
  generalize dropExchange s = r at *
  generalize busPortReset s = t at *
  have hclock := l1.trans r1
  have hzp := l2.trans r2
  have hslot := slot_reset r5
  rw [r1] at l6
  rw [← l6] at hslot
  rw [r4] at l4
  rw [r3] at l5
  refine ⟨⟨by rw [hclock], ?_, ?_, v1, l3, ?_⟩, hclock, hzp⟩
  · rw [hzp]
    exact Zp.dropped_exch _ _
  · rw [hzp]
    rfl
  · rw [l5, l4]
    exact ⟨rfl, rfl, rfl, rfl, rfl, rfl, rfl, hslot.1, hslot.2, v2⟩

/-! ### The port states after the reset -/

/-- FAULT entered after the bus port reset: BUS_FAULT stands, the rest is as the reset left it (R143). -/
theorem toFault_reset {n : Nat} (h : BusReset s u n) : BusReset s (settle (toFault u)) n
    ∧ (settle (toFault u)).zp = { u.zp with
        port := .fault, settle := none, clear := none, fault := u.deadline Config.tFault, clears := [], busFault := true }
    ∧ ∃ r ∈ (settle (toFault u)).fm.active, r.source = .busFault := by
  let w := u.onZp fun z =>
    { z with port := .fault, settle := none, clear := none, fault := u.deadline Config.tFault, clears := [], busFault := true }
  have hw : toFault u = fmRaise .busFault noDetail w := rfl
  have ho := fmRaise_outer .busFault noDetail w
  have hacts : Acts false (· = .raise .busFault) w (fmRaise .busFault noDetail w) := fmRaise_acts _ _ rfl .refl
  have hzp : (fmRaise .busFault noDetail w).zp = w.zp := read_outer State.zp ho fun _ => rfl
  have hreset : BusReset s w n := h.of_same rfl rfl rfl rfl rfl rfl rfl rfl
  have hstands := stands_of_about (settle_about (src := .busFault) nofun) (fmRaise_stands .busFault noDetail w)
  rw [hw]
  refine ⟨(hreset.of_same (read_outer State.clock ho fun _ => rfl) (by rw [hzp]) (by rw [hzp])
    (read_outer (fun v : State => v.pe.portReady) ho fun _ => rfl) (read_outer (fun v : State => v.pe.round) ho fun _ => rfl)
    (read_outer (fun v : State => v.pe.nodes) ho fun _ => rfl) (read_outer State.mg ho fun _ => rfl)
    (plumbing_of_acts nofun nofun nofun hacts)).settled, (settle_link _).1.trans hzp, ?_⟩
  obtain ⟨r, hr, hsrc, -⟩ := hstands.mem
  exact ⟨r, hr, hsrc⟩

end Sys2Proof.Machine

/-! SETTLES O50 and O43. -/

namespace Sys2Proof.Machine

variable {s t u v w : State}

/-! ### The bus supply (R131, R142 to R144) -/

theorem settle_zp (s : State) : (settle s).zp = s.zp := (settle_link s).1

theorem busSupply_of_port {p : PortState} (h : s.zp.port = p) : s.busSupply = (p == .settling || p == .ready || p == .exchange) := by
  rw [State.busSupply, h]

theorem toSettling_zp (s : State) : (settle (toSettling s)).zp
    = { s.zp with port := .settling, settle := s.deadline Config.tSettle, clear := none, fault := none } := settle_zp _

theorem Zp.dropped_lastFail (z : Zp) (time : Nat) : (∀ x, z.exch = some x →
      (z.dropped time).lastFail = some { reason := .noReply, node := x.node, kind := x.kind, time := time })
    ∧ (z.exch = none → (z.dropped time).lastFail = z.lastFail) := by
  refine ⟨fun x hx => ?_, fun hx => ?_⟩
  · rw [Zp.dropped, hx]
    rfl
  · rw [Zp.dropped, hx]

/-- Settles O50. -/
theorem supplyIsSwitchedOnAndOff : Obligations.SupplyIsSwitchedOnAndOff := by
  unfold Obligations.SupplyIsSwitchedOnAndOff
  intro s d hp hlen
  refine ⟨fun hd => ?_, fun hd => ?_, fun hon => ?_, fun hoff hm => ?_⟩
  · have hzp := toSettling_zp (s.reach d)
    exact ⟨_, exec_expire (c := .tclearExpiry) nofun rfl rfl hp hd, hzp, busSupply_of_port (congrArg Zp.port hzp)⟩
  · have hzp := toSettling_zp (s.reach d)
    exact ⟨_, exec_expire (c := .faultTimerExpiry) nofun rfl rfl hp hd, hzp, busSupply_of_port (congrArg Zp.port hzp)⟩
  · have hexec : exec .overcurrent s = .next (settle (overcurrent s)) := exec_on (c := .overcurrent) nofun hp
    obtain ⟨b1, b2, b3⟩ := busPortReset_taken hlen
    obtain ⟨f1, f2, f3⟩ := toFault_reset b1
    obtain ⟨h1, h2⟩ := s.zp.dropped_lastFail s.time
    rw [overcurrent, if_pos hon] at hexec
    rw [b3] at f2
    refine ⟨_, hexec, busSupply_of_port (congrArg Zp.port f2), congrArg Zp.port f2, ?_, congrArg Zp.clears f2, congrArg Zp.busFault f2,
      f3, f1, fun x hx => (congrArg Zp.lastFail f2).trans (h1 x hx), fun hx => (congrArg Zp.lastFail f2).trans (h2 hx)⟩
    refine (congrArg Zp.fault f2).trans ?_
    rw [State.deadline, b2]
  · exact exec_atEnd (c := .overcurrent) nofun hp (by show overcurrent s = s; rw [overcurrent, hoff]; rfl) hm

/-! ### The bus clear (R142) -/

theorem Zp.dropped_busFault (z : Zp) (time : Nat) : (z.dropped time).busFault = z.busFault := by
  rw [Zp.dropped]
  split <;> rfl

/-- A bus clear, with all that the bus port reset does (R142, R145). -/
theorem busClear_cleared (hlen : s.dm.zones.length = 8) : BusCleared s (settle (busClear s)) s.clock.now := by
  obtain ⟨b1, b2, b3⟩ := busPortReset_taken hlen
  have hdead : ∀ n, (busPortReset s).deadline n = some (s.clock.now + n) := fun n => by rw [State.deadline, b2]
  have htime := busPortReset_time s
  rw [busClear]
  generalize busPortReset s = u at *
  by_cases h : s.recentClears.length < 2
  · have hclear : BusReset s (settle (toClearing s.recentClears u)) s.clock.now :=
      (b1.of_same (v := toClearing s.recentClears u) rfl rfl rfl rfl rfl rfl rfl rfl).settled
    have hzp : (settle (toClearing s.recentClears u)).zp = _ := settle_zp _
    simp only [if_pos h]
    refine ⟨hclear, fun _ => ?_, fun h' => absurd h (by omega)⟩
    rw [hzp, toClearing, hdead, htime]
    refine ⟨rfl, rfl, rfl, ?_⟩
    show u.zp.busFault = _
    rw [b3]
    exact Zp.dropped_busFault _ _
  · obtain ⟨f1, f2, f3⟩ := toFault_reset b1
    simp only [if_neg h]
    refine ⟨f1, fun h' => absurd h' h, fun _ => ?_⟩
    rw [f2, hdead]
    exact ⟨rfl, rfl, rfl, rfl, f3⟩

theorem BusCleared.of_reach {d n : Nat} (h : BusCleared (s.reach d) t n) : BusCleared s t n := h

/-! ### The level of the line (R136, R137) -/

theorem exec_level {level : Bool} {dt : Nat} (hp : s.power = .on) (h : level ≠ s.lines.busDominant) :
    exec (.busLineLevelChange level dt) s = .next (settle (lineChanged level s.lines.busSince
      ((s.advance dt).onLines fun l => { l with busDominant := level, busSince := s.clock.now + dt }))) := by
  have ha : arrive (.busLineLevelChange level dt) s
      = (s.advance dt).onLines fun l => { l with busDominant := level, busSince := s.clock.now + dt } := by
    rw [arrive, if_neg h]
  have he : ∀ v, effect (.busLineLevelChange level dt) s v = lineChanged level s.lines.busSince v := fun v => by
    simp only [effect, if_neg h]
  have hx := exec_on (c := .busLineLevelChange level dt) (s := s) nofun (by rw [ha]; exact hp)
  rwa [he, ha] at hx

theorem onExch_eq {x : Exchange} (hx : s.zp.exch = some x) (g : Exchange → Exchange) :
    s.onExch g = { s with zp := { s.zp with exch := some (g x) } } := by
  have h : s.onExch g = { s with zp := { s.zp with exch := s.zp.exch.map g } } := rfl
  rw [h, hx]
  rfl

theorem onExch_none (hx : s.zp.exch = none) (g : Exchange → Exchange) : s.onExch g = s := by
  have h : s.onExch g = { s with zp := { s.zp with exch := s.zp.exch.map g } } := rfl
  rw [h, hx, Option.map_none, ← hx]

/-- The line check's ends (R136). -/
theorem lineCheck_ends {x : Exchange} {f : InFlight} (hin : InExchange s x f .lineCheck) (hlen : s.dm.zones.length = 8) :
    (s.lines.busDominant = false → s.mayStart = false → ∃ t, exec .lineCheckIdle s = .next t
      ∧ AtEnd { s with
          zp := { s.zp with exch := some { x with
            phase := .sending, sent := 0, sentAt := max s.clock.now (s.lines.busSince + 4 * Config.tBit), hold := none } }
          clock := { s.clock with now := max s.clock.now (s.lines.busSince + 4 * Config.tBit) } } t)
    ∧ (s.lines.busDominant = true → ∃ t, exec .lineDominanceTimeout s = .next t
      ∧ BusCleared s t (max s.clock.now (max x.checkAt s.lines.busSince + Config.tDom)))
    ∧ ∃ t, exec .lineCheckTimeout s = .next t ∧ BusCleared s t (max s.clock.now (x.checkAt + Config.tLineCheck)) := by
  obtain ⟨hp, hx, hf, hph, -, -, -⟩ := hin
  refine ⟨fun hd hm => ?_, fun hd => ?_, ?_⟩
  · refine exec_atEnd (c := .lineCheckIdle) nofun hp ?_ hm
    show lineCheckIdle s = _
    rw [lineCheckIdle, inPhase_of_exch hx hph, hd]
    exact onExch_eq (s := s.reach s.idleDue) hx _
  · have hexec : exec .lineDominanceTimeout s = .next (settle (lineDominance s)) := exec_on (c := .lineDominanceTimeout) nofun hp
    have he : lineDominance s = busClear (s.reach (max x.checkAt s.lines.busSince + Config.tDom)) := by
      rw [lineDominance, hx]
      exact if_pos ⟨hph, hd⟩
    rw [he] at hexec
    exact ⟨_, hexec, BusCleared.of_reach (busClear_cleared (s := s.reach (max x.checkAt s.lines.busSince + Config.tDom)) hlen)⟩
  · have hexec : exec .lineCheckTimeout s = .next (settle (lineCheckLong s)) := exec_on (c := .lineCheckTimeout) nofun hp
    have he : lineCheckLong s = busClear (s.reach (x.checkAt + Config.tLineCheck)) := by
      rw [lineCheckLong, hx]
      exact if_pos hph
    rw [he] at hexec
    exact ⟨_, hexec, BusCleared.of_reach (busClear_cleared (s := s.reach (x.checkAt + Config.tLineCheck)) hlen)⟩

/-- The line drawn dominant by another party while ZP sends (R137). -/
theorem sending_falls {x : Exchange} {f : InFlight} (dt : Nat) (hin : InExchange s x f .sending) (hs : s.busSupply = true)
    (hd : s.lines.busDominant = false) (hh : x.hold = none) : ∃ t, exec (.busLineLevelChange true dt) s = .next t
      ∧ t.lines = { s.lines with busDominant := true, busSince := s.clock.now + dt }
      ∧ t.zp = { s.zp with exch := some (x.holdFrom (s.clock.now + dt)) } := by
  obtain ⟨hp, hx, hf, hph, -, -, -⟩ := hin
  refine ⟨_, exec_level hp (by rw [hd]; exact nofun), ?_⟩
  let u := (s.advance dt).onLines fun l => { l with busDominant := true, busSince := s.clock.now + dt }
  have he : lineChanged true s.lines.busSince u
      = { u with zp := { u.zp with exch := some (x.holdFrom (s.clock.now + dt)) } } := by
    have hsup : u.busSupply = true := hs
    rw [lineChanged, if_pos hsup, if_pos rfl, lineFalls, onExch_eq (s := u) hx, if_pos ⟨.inl hph, hh⟩]
    rfl
  obtain ⟨e1, -, -, -, e5, -⟩ := settle_link (lineChanged true s.lines.busSince u)
  rw [e1, e5, he]
  exact ⟨rfl, rfl⟩

/-- The line back to idle while ZP sends and a hold stands (R137). -/
theorem sending_rises {x : Exchange} {f : InFlight} (dt : Nat) (hin : InExchange s x f .sending) (hs : s.busSupply = true)
    (hd : s.lines.busDominant = true) : ∃ t, exec (.busLineLevelChange false dt) s = .next t
      ∧ t.lines = { s.lines with busDominant := false, busSince := s.clock.now + dt }
      ∧ t.zp = { s.zp with exch := some (x.release (s.clock.now + dt)) } := by
  obtain ⟨hp, hx, hf, hph, -, -, -⟩ := hin
  refine ⟨_, exec_level hp (by rw [hd]; exact nofun), ?_⟩
  let u := (s.advance dt).onLines fun l => { l with busDominant := false, busSince := s.clock.now + dt }
  have he : lineChanged false s.lines.busSince u
      = { u with zp := { u.zp with exch := some (x.release (s.clock.now + dt)) } } := by
    have hsup : u.busSupply = true := hs
    have hxu : u.zp.exch = some x := hx
    rw [lineChanged, if_pos hsup, if_neg nofun, lineRises, hxu]
    dsimp only
    rw [if_pos (.inl hph), onExch_eq (s := u) hx]
    rfl
  obtain ⟨e1, -, -, -, e5, -⟩ := settle_link (lineChanged false s.lines.busSince u)
  rw [e1, e5, he]
  exact ⟨rfl, rfl⟩

theorem release_sending {x : Exchange} (hph : x.phase = .sending) (now : Nat) :
    x.release now = { x with sent := x.sentBy now, sentAt := now, hold := none } := by
  have hn : ¬(x.phase = .closing ∧ x.sentBy now < 2 * Config.tBit) := fun h => by
    rw [hph] at h
    exact nomatch h.1
  simp only [Exchange.release, if_neg hn]

/-- A level that does not change, or one with no exchange in flight, is noted and does nothing else (R137). -/
theorem levelChange_idle {level : Bool} (dt : Nat) (hp : s.power = .on) (hm : s.mayStart = false)
    (hor : s.zp.exch = none ∨ level = s.lines.busDominant) : ∃ t, exec (.busLineLevelChange level dt) s = .next t
      ∧ AtEnd { s with
          clock := { s.clock with now := s.clock.now + dt }
          lines := if level = s.lines.busDominant then s.lines
            else { s.lines with busDominant := level, busSince := s.clock.now + dt } } t := by
  by_cases hl : level = s.lines.busDominant
  · refine exec_atEnd (c := .busLineLevelChange level dt) nofun hp ?_ hm
    rw [if_pos hl]
    simp only [effect, arrive, if_pos hl]
    rfl
  · have hx := hor.resolve_right hl
    let u := (s.advance dt).onLines fun l => { l with busDominant := level, busSince := s.clock.now + dt }
    have hu : u.zp.exch = none := hx
    have hc : lineChanged level s.lines.busSince u = u := by
      rw [lineChanged]
      split
      · split
        · exact onExch_none hu _
        · rw [lineRises, hu]
      · rfl
    refine exec_atEnd (c := .busLineLevelChange level dt) nofun hp ?_ hm
    rw [if_neg hl]
    simp only [effect, arrive, if_neg hl]
    exact hc

/-- Settles O43. -/
theorem theLineIsCheckedAndHoldsTheBitTimer : Obligations.TheLineIsCheckedAndHoldsTheBitTimer := by
  unfold Obligations.TheLineIsCheckedAndHoldsTheBitTimer
  refine ⟨fun s x f hin hlen => lineCheck_ends hin hlen, fun s x f dt => ⟨fun hin hs => ⟨fun hd hh => ?_, fun h hd hh hle => ?_, fun h hd hh hlt => ?_⟩, fun level hp hm hor => ?_⟩⟩
  · obtain ⟨t, h1, h2, h3⟩ := sending_falls dt hin hs hd hh
    exact ⟨t, _, h1, h2, h3, rfl⟩
  · obtain ⟨t, h1, h2, h3⟩ := sending_rises dt hin hs hd
    refine ⟨t, h1, h2, ?_⟩
    have hsent : x.sentBy (s.clock.now + dt) = x.sent := by
      rw [Exchange.sentBy, hh]
      dsimp only
      omega
    rw [h3, release_sending hin.2.2.2.1, hsent]
  · obtain ⟨t, h1, h2, h3⟩ := sending_rises dt hin hs hd
    refine ⟨t, h1, h2, ?_⟩
    have hsent : x.sentBy (s.clock.now + dt) = x.sent - (h - (s.clock.now + dt)) := by rw [Exchange.sentBy, hh]
    rw [h3, release_sending hin.2.2.2.1, hsent]
  · exact levelChange_idle dt hp hm hor

end Sys2Proof.Machine

/-! SUPPORT. Good replies: what is left of the zones, the nodes and the port once the reply is taken (R139, R149, R161 to R169). -/

namespace Sys2Proof.Machine

variable {s t u v w : State}

/-! ### DM through PE's continuation -/

theorem zpRequest_dm (node kind : Nat) (p : List Byte) (r : List Nat) (s : State) : (zpRequest node kind p r s).dm = s.dm
    ∧ (zpRequest node kind p r s).pe = s.pe := by
  simp only [zpRequest]
  split <;> exact ⟨rfl, rfl⟩

theorem hand_dm (f : InFlight) (node kind : Nat) (p : List Byte) (r : List Nat) (s : State) : (hand f node kind p r s).dm = s.dm :=
  (zpRequest_dm node kind p r _).1

theorem afterService_dm (s : State) : (afterService s).dm = s.dm := by
  have hentry : ∀ (t : Taken) (u : State), (handEntry t u).dm = u.dm := by
    intro t u
    rw [handEntry, hand_dm]
    show (noteOverflow t u).dm = u.dm
    simp only [noteOverflow]
    split <;> rfl
  simp only [afterService]
  repeat' split
  · exact hand_dm ..
  · exact hentry _ _
  · rfl

theorem serveLow_dm (low : Bool) (s : State) : (serveLow low s).dm = s.dm := by
  simp only [serveLow]
  repeat' split
  · exact hand_dm ..
  all_goals exact afterService_dm s

theorem valveResult_unvalved {z : Nat} {p : Position} {r : ValveResult} (h : s.hasValve z = false) : valveResult z p r s = s := by
  simp [valveResult, h]

/-- Urgent service tells DM of no command that matters to it: one for a zone without a valve has no effect (R61, R168). -/
theorem serveZones_dm (low : Bool) (zs : List Nat) (s : State) : (serveZones low zs s).dm = s.dm := by
  induction zs generalizing s with
  | nil => exact serveLow_dm low s
  | cons z r ih =>
    simp only [serveZones]
    split
    · exact ih s
    · split
      · rename_i p hp hn
        refine (ih _).trans ?_
        rw [valveResult_unvalved]
        · rfl
        · exact bne_eq_false_iff_eq.2 hn
      · exact hand_dm ..

theorem servicePoint_dm (s : State) : (servicePoint s).dm = s.dm := serveZones_dm _ _ s

/-- A valve whose state is known is not commanded by the reconciliation (R64). -/
theorem reconcile_zone {z : Nat} (h : (s.zone z).valve ≠ .unknown) : (reconcile s).zone z = s.zone z := by
  have hfold : ∀ (l : List Nat) (v : State), (v.zone z).valve ≠ .unknown → (l.foldl reconcileZone v).zone z = v.zone z := by
    intro l
    induction l with
    | nil => exact fun _ _ => rfl
    | cons y r ih =>
      intro v hv
      have hy : (reconcileZone v y).zone z = v.zone z := by
        rw [reconcileZone]
        split
        · rename_i hc
          by_cases hyz : z = y
          · subst hyz
            exact absurd hc.2.1 hv
          · exact commandValve_zone_ne hyz
        · rfl
      rw [List.foldl_cons, ih _ (by rw [hy]; exact hv), hy]
  exact hfold zoneNumbers s h

theorem passEnd_zone {z : Nat} (h : (s.zone z).valve ≠ .unknown) : (passEnd s).zone z = s.zone z := by
  rw [passEnd, zone_of_zones (congrArg Dm.zones (servicePoint_dm _))]
  exact reconcile_zone h

theorem takeUp_zone {z : Nat} (n : Nat) (k : Taken) (h : (s.zone z).valve ≠ .unknown) : (takeUp n k s).zone z = s.zone z := by
  induction n generalizing k s with
  | zero => rfl
  | succ n ih =>
    simp only [takeUp]
    repeat' split
    · exact zone_of_zones (congrArg Dm.zones (servicePoint_dm _)) z
    · exact ih _ h
    · exact passEnd_zone h

/-- PE's continuation leaves the record of a zone whose valve state is known alone (R64, R153). -/
theorem peContinue_zone {z : Nat} (f : InFlight) (h : (s.zone z).valve ≠ .unknown) : (peContinue f s).zone z = s.zone z := by
  have hserve : ∀ (low : Bool) (l : List Nat) (u : State), u.dm = s.dm → (serveZones low l u).zone z = s.zone z := fun low l u hu =>
    zone_of_zones (congrArg Dm.zones ((serveZones_dm low l u).trans hu)) z
  have hstart : ∀ u : State, (u.zone z).valve ≠ .unknown → (startRound u).zone z = u.zone z := by
    intro u hu
    rw [startRound]
    split
    · rfl
    · exact takeUp_zone 33 _ hu
  have hentry : ∀ u : State, (u.zone z).valve ≠ .unknown → (afterEntry u).zone z = u.zone z := by
    intro u hu
    simp only [afterEntry]
    repeat' split
    · rfl
    · exact passEnd_zone hu
    · exact takeUp_zone 33 _ hu
    · exact passEnd_zone hu
  have hround : ∀ u : State, (u.zone z).valve ≠ .unknown → (roundEnd u).zone z = u.zone z := by
    intro u hu
    rw [roundEnd, maybeStart]
    split
    · exact hstart _ hu
    · rfl
  simp only [peContinue]
  split
  · rfl
  cases f with
  | entry => exact hentry _ h
  | servicePoll => exact hround _ h
  | valve y p =>
    dsimp only
    split
    · exact hserve _ _ _ rfl
    · rfl
  | proxy =>
    dsimp only
    split
    · exact hserve _ _ _ rfl
    · rfl

/-- After a command's exchange PE goes on with its service, which leaves DM alone (R168). -/
theorem peContinue_dm {y : Nat} {p : Position} (s : State) : (peContinue (.valve y p) s).dm = s.dm := by
  simp only [peContinue]
  repeat' split
  · rfl
  · exact serveZones_dm _ _ _
  · rfl

/-! ### Calls through a refresh -/

theorem calling_of_acts {i : Bool} {p : Touch → Prop} (hp : ¬p .calls) (h : Acts i p u v) (z : Nat) :
    (v.zone z).calling = (u.zone z).calling := calling_of_map (h.calls.resolve_left hp) z

theorem refresh_calling (s : State) (z : Nat) : ((refresh s).zone z).calling = (s.zone z).calling :=
  calling_of_acts nofun (refresh_acts rfl .refl : Acts false (· = .demand) s _) z

/-- PE's continuation and the end of the event keep every zone's call, setpoint and temperature (R54). -/
theorem continue_calling (f : InFlight) (s : State) (z : Nat) : ((settle (peContinue f s)).zone z).calling = (s.zone z).calling := by
  have h : Acts false (· ≠ .calls) s (settle (peContinue f s)) :=
    settle_acts (.inl nofun) (peContinue_acts f nofun nofun nofun .refl)
  exact calling_of_acts (fun h => h rfl) h z

theorem settle_zone (s : State) (z : Nat) : (settle s).zone z = s.zone z :=
  plumbing_zone (plumbing_of_acts nofun nofun nofun (settle_acts (.inl rfl) .refl : Acts false (· = .raise .gasRelay) s _)) z

/-! ### The reply taken -/

/-- The state in which PE goes on after a good reply that carries no management request. -/
def delivered (f : InFlight) (node kind : Nat) (p : List Byte) (s : State) : State :=
  exchangeOver ((busFaultClear (takeReply f node kind p s)).onZp rxEmpty)

theorem goodReply_eq {f : InFlight} {node kind : Nat} {p : List Byte} (h : kind ≠ kindMgmtRequest) :
    goodReply f node kind p s = peContinue f (delivered f node kind p s) := by
  have hc : carriesRequest kind p = false := by
    rw [carriesRequest, show (kind == kindMgmtRequest) = false from beq_eq_false_iff_ne.2 h]
    rfl
  have hw : s.wantsClosing f kind p = false := by
    cases f with
    | entry =>
      simp only [State.wantsClosing]
      split
      · rw [hc, Bool.and_false]
      · rfl
    | servicePoll => exact hc
    | valve z q => rfl
    | proxy => rfl
  rw [goodReply, hw]
  rfl

theorem busFaultClear_kept (s : State) : (busFaultClear s).plumbing = s.plumbing ∧ (busFaultClear s).pe.nodes = s.pe.nodes
    ∧ (busFaultClear s).clock = s.clock ∧ (busFaultClear s).pe.outdoor = s.pe.outdoor ∧ (busFaultClear s).pe.outdoorAt = s.pe.outdoorAt
    ∧ (busFaultClear s).zp = { s.zp with busFault := false } := by
  rw [busFaultClear]
  split
  · have ho := fmClear_outer .busFault (s.onZp fun z => { z with busFault := false })
    have hp := fmClear_plumbing .busFault (s.onZp fun z => { z with busFault := false })
    have hn := read_outer (fun v : State => v.pe.nodes) ho fun _ => rfl
    have hc := read_outer State.clock ho fun _ => rfl
    have h1 := read_outer (fun v : State => v.pe.outdoor) ho fun _ => rfl
    have h2 := read_outer (fun v : State => v.pe.outdoorAt) ho fun _ => rfl
    have hz := read_outer State.zp ho fun _ => rfl
    exact ⟨hp, hn, hc, h1, h2, hz⟩
  · rename_i h
    have hb : s.zp.busFault = false := by simpa using h
    refine ⟨rfl, rfl, rfl, rfl, rfl, ?_⟩
    rw [← hb]

/-- A good reply of the node in exchange. -/
theorem replyCheck_good {x : Exchange} {f : InFlight} {b : Byte} (hx : s.zp.exch = some x) (hph : x.phase = .receiving)
    (hdue : s.zp.checkDue = true) (hf : s.pe.round.inFlight = some f) (h : judge x s.zp.rx s.zp.rxCheck b = none) :
    replyCheck b s = goodReply f x.node (u8 s.zp.rx 2) (s.zp.rx.drop 4) (lineIdleFor (idleTail b) s) := by
  rw [replyCheck, inPhase_of_exch hx hph, hdue]
  show replyComplete b (lineIdleFor (idleTail b) s) = _
  have hx' : (lineIdleFor (idleTail b) s).zp.exch = some x := hx
  have hf' : (lineIdleFor (idleTail b) s).pe.round.inFlight = some f := hf
  have h' : judge x (lineIdleFor (idleTail b) s).zp.rx (lineIdleFor (idleTail b) s).zp.rxCheck b = none := h
  rw [replyComplete, hx', hf']
  dsimp only
  rw [h']
  rfl

/-- REPLY_RECEIVED of a good reply that carries no management request (R139). -/
theorem exec_goodReply {x : Exchange} {f : InFlight} (dt : Nat) (hin : InExchange s x f .receiving) (hdue : s.zp.checkDue = true)
    (h0 : u8 s.zp.rx 0 = 0) (h1 : u8 s.zp.rx 1 = x.node) (h2 : x.replies.contains (u8 s.zp.rx 2) = true)
    (hk : u8 s.zp.rx 2 ≠ kindMgmtRequest) : ∃ v : State, v.dm = s.dm ∧ v.st = s.st ∧ v.pe = s.pe ∧ v.zp = s.zp ∧ v.latch = s.latch
      ∧ v.mp = s.mp ∧ v.fm = s.fm ∧ v.clock = { s.clock with now := s.clock.now + dt }
      ∧ exec (.replyReceived s.zp.rxCheck dt) s
        = .next (settle (peContinue f (delivered f x.node (u8 s.zp.rx 2) (s.zp.rx.drop 4) v))) := by
  obtain ⟨hp, hx, hf, hph, -, -, -⟩ := hin
  refine ⟨lineIdleFor (idleTail s.zp.rxCheck) (s.advance dt), rfl, rfl, rfl, rfl, rfl, rfl, rfl, rfl, ?_⟩
  have hexec : exec (.replyReceived s.zp.rxCheck dt) s = .next (settle (replyCheck s.zp.rxCheck (s.advance dt))) :=
    exec_on (c := .replyReceived s.zp.rxCheck dt) nofun hp
  have hj : judge x s.zp.rx s.zp.rxCheck s.zp.rxCheck = none := by
    rw [judge, if_neg (fun h => h rfl), if_neg (fun h => h.elim (fun h => h h0) (fun h => h h1)), if_pos h2]
  have hgood : replyCheck s.zp.rxCheck (s.advance dt) = peContinue f (delivered f x.node (u8 s.zp.rx 2) (s.zp.rx.drop 4)
      (lineIdleFor (idleTail s.zp.rxCheck) (s.advance dt))) :=
    (replyCheck_good (s := s.advance dt) hx hph hdue hf hj).trans (goodReply_eq hk)
  rw [hexec, hgood]

end Sys2Proof.Machine

/-! SETTLES O47. -/

namespace Sys2Proof.Machine

variable {s t u v w : State}

/-- A node's live record after a good reply (R149). -/
def NodeLive.heard (n : NodeLive) (time : Nat) : NodeLive := { n with presence := .present, miss := 0, lastGood := some time }

/-- The node marked PRESENT (R149). -/
def heard (a : Nat) (s : State) : State := s.onNode a fun n => n.heard s.time

theorem presenceGood_kept (a : Nat) (s : State) : (presenceGood a s).outer = (heard a s).outer
    ∧ (presenceGood a s).plumbing = s.plumbing := by
  simp only [presenceGood]
  split
  · exact ⟨fmClear_outer _ _, (fmClear_plumbing _ _).trans rfl⟩
  · exact ⟨rfl, rfl⟩

/-- What a good reply is taken with: the port, the clock and the nodes after the presence. -/
def State.linkage (s : State) : Zp × Clock × List NodeLive := (s.zp, s.clock, s.pe.nodes)

theorem linkage_of_outer (h : u.outer = v.outer) : u.linkage = v.linkage := read_outer State.linkage h fun _ => rfl

theorem modifierSkip_kept (s : State) : (modifierSkip s).linkage = s.linkage ∧ (modifierSkip s).dm = s.dm ∧ (modifierSkip s).st = s.st
    ∧ (modifierSkip s).latch = s.latch ∧ (modifierSkip s).mp = s.mp := by
  simp only [modifierSkip]
  repeat' split
  all_goals exact ⟨rfl, rfl, rfl, rfl, rfl⟩

theorem takeEntryReply_linkage {k : Taken} {node kind : Nat} {p : List Byte} (hk : kind ≠ kindMgmtRequest) (s : State) :
    (takeEntryReply k node kind p s).linkage = s.linkage := by
  have hc : carriesRequest kind p = false := by
    rw [carriesRequest, show (kind == kindMgmtRequest) = false from beq_eq_false_iff_ne.2 hk]
    rfl
  have hout : (takeOutdoor node p s).linkage = s.linkage := by
    rw [takeOutdoor]
    split <;> rfl
  simp only [takeEntryReply]
  split
  · rfl
  split
  · exact linkage_of_outer (takeDemand_outer ..)
  · exact linkage_of_outer (valveReport_outer ..)
  · exact hout
  · rw [hc]
    rfl
  · rfl
  · rfl

/-- A good reply that carries no management request leaves the port, the clock and the other nodes alone (R149). -/
theorem takeReply_linkage {f : InFlight} {node kind : Nat} {p : List Byte} (hk : kind ≠ kindMgmtRequest) (s : State) :
    (takeReply f node kind p s).linkage = (heard node s).linkage := by
  have hc : carriesRequest kind p = false := by
    rw [carriesRequest, show (kind == kindMgmtRequest) = false from beq_eq_false_iff_ne.2 hk]
    rfl
  have hg := linkage_of_outer (presenceGood_kept node s).1
  have hvalve : ∀ z q r u, (valveResult z q r u).linkage = u.linkage := fun z q r u => linkage_of_outer (valveResult_outer z q r u)
  have hfetch : ∀ r d u, (fetchResult r d u).linkage = u.linkage := fun r d u => by
    rw [fetchResult]
    split <;> rfl
  rw [← hg]
  cases f with
  | entry =>
    simp only [takeReply]
    split
    · rw [takeEntryReply_linkage hk]
      split
      · exact (modifierSkip_kept _).1
      · rfl
    · rfl
  | servicePoll =>
    simp only [takeReply, hc]
    rfl
  | valve z q => exact hvalve _ _ _ _
  | proxy =>
    simp only [takeReply]
    split
    · exact hfetch _ _ _
    · exact hfetch _ _ _

/-- The reply delivered: the exchange is over, BUS_FAULT is clear and the assembly empty (R139). -/
theorem delivered_kept (f : InFlight) (node kind : Nat) (p : List Byte) (s : State) : let w := takeReply f node kind p s
    let t := delivered f node kind p s
    t.plumbing = w.plumbing ∧ t.clock = w.clock ∧ t.pe.nodes = w.pe.nodes ∧ t.pe.outdoor = w.pe.outdoor
      ∧ t.pe.outdoorAt = w.pe.outdoorAt
      ∧ t.zp = { w.zp with exch := none, port := .ready, rx := [], rxCheck := 0, busFault := false } := by
  obtain ⟨b1, b2, b3, b4, b5, b6⟩ := busFaultClear_kept (takeReply f node kind p s)
  intro w t
  refine ⟨b1, b3, b2, b4, b5, ?_⟩
  show { rxEmpty (rxEmpty (busFaultClear w).zp) with exch := none, port := .ready } = _
  rw [show (busFaultClear w).zp = _ from b6]
  rfl

/-- The zone's record once a DEMAND has been applied, but for its valve (R54, R55). -/
theorem applyDemand_calling {z : Nat} (sp : Int) (temp : Value) (flag : Bool) (hz : z < s.dm.zones.length) :
    ((applyDemand z sp temp flag s).zone z).calling = (clamp 50 300 sp, temp,
      callAfter { s.zone z with setpoint := clamp 50 300 sp, temp := temp, lastDemand := s.time } flag, false, s.time) := by
  rw [applyDemand, refresh_calling, zone_onZone_same hz]
  rfl

/-- The call state after a DEMAND, as the table of R55 says it. -/
theorem callAfter_table (r : Zone) (flag : Bool) : let own := if flag then CallState.call else .noCall
    (r.temp = none → callAfter r flag = own)
      ∧ ∀ v, r.temp = some v → (v ≤ r.setpoint - 3 → callAfter r flag = .call) ∧ (r.setpoint + 2 ≤ v → callAfter r flag = .noCall)
        ∧ (r.setpoint - 3 < v → v < r.setpoint + 2 →
          ((r.call = .unknown ∨ r.fallback = true) → callAfter r flag = own)
            ∧ (r.call ≠ .unknown → r.fallback = false → callAfter r flag = r.call)) := by
  intro own
  refine ⟨fun h => ?_, fun v h => ⟨fun h1 => ?_, fun h1 => ?_, fun h1 h2 => ⟨fun h3 => ?_, fun h3 h4 => ?_⟩⟩⟩
  all_goals rw [callAfter, h]
  all_goals dsimp only
  · exact if_pos h1
  · rw [if_neg (by omega), if_pos h1]
  · rw [if_neg (by omega), if_neg (by omega), if_pos h3]
  · rw [if_neg (by omega), if_neg (by omega), if_neg (by rw [h4]; rintro (h | h); exacts [h3 h, nomatch h])]

/-- What DM reads besides its own records when a reply is taken. -/
def State.reads (s : State) : List Byte × List Byte × Nat × Latch × Clock × Mp :=
  (s.st.zones, s.st.nodes, s.time, s.latch, s.clock, s.mp)

theorem fmClear_reads (src : Source) (s : State) : (fmClear src s).reads = s.reads := by
  have hacts : Acts false (· = .clear src) s (fmClear src s) := fmClear_acts src (.inl rfl) .refl
  have ho := fmClear_outer src s
  have ht : (fmClear src s).time = s.time := by rw [State.time, State.time, hacts.counters.resolve_left nofun]
  have h := read_outer (fun v : State => (v.st.zones, v.st.nodes, v.latch, v.clock, v.mp)) ho fun _ => rfl
  simp only [Prod.mk.injEq] at h
  simp [State.reads, h, ht]

theorem presenceGood_reads (a : Nat) (s : State) : (presenceGood a s).reads = s.reads := by
  simp only [presenceGood]
  split
  · exact (fmClear_reads _ _).trans rfl
  · rfl

/-- The state in which the values of an entry's reply are taken. -/
def entryHeard (node : Nat) (p : List Byte) (s : State) : State :=
  if replyModifier p then modifierSkip (presenceGood node s) else presenceGood node s

theorem entryHeard_kept (node : Nat) (p : List Byte) (s : State) :
    (entryHeard node p s).plumbing = s.plumbing ∧ (entryHeard node p s).reads = s.reads := by
  have hp := (presenceGood_kept node s).2
  have hr := presenceGood_reads node s
  rw [entryHeard]
  split
  · have hm : ∀ v : State, (modifierSkip v).plumbing = v.plumbing ∧ (modifierSkip v).reads = v.reads := by
      intro v
      simp only [modifierSkip]
      repeat' split
      all_goals exact ⟨rfl, rfl⟩
    exact ⟨(hm _).1.trans hp, (hm _).2.trans hr⟩
  · exact ⟨hp, hr⟩

theorem takeReply_entry {node kind : Nat} {p : List Byte} {e : Taken} (he : s.pe.round.cur = some e) :
    takeReply .entry node kind p s = takeEntryReply e node kind p (entryHeard node p s) := by
  have hc : (presenceGood node s).pe.round.cur = some e :=
    (read_outer (fun v : State => v.pe.round.cur) (presenceGood_kept node s).1 fun _ => rfl).trans he
  simp only [takeReply, hc]
  rfl

theorem reads_fields (h : u.reads = v.reads) : u.st.zones = v.st.zones ∧ u.st.nodes = v.st.nodes ∧ u.time = v.time ∧ u.latch = v.latch
    ∧ u.clock = v.clock ∧ u.mp = v.mp := by
  simpa only [State.reads, Prod.mk.injEq] using h

/-- Settles O47. -/
theorem goodRepliesAreDelivered : Obligations.GoodRepliesAreDelivered := by
  unfold Obligations.GoodRepliesAreDelivered
  intro s x f dt hin hdue h0 h1 h2 hk hlen
  obtain ⟨v, vdm, vst, vpe, vzp, vlatch, vmp, vfm, vclock, hexec⟩ := exec_goodReply dt hin hdue h0 h1 h2 hk
  obtain ⟨-, -, -, -, n1, n2, hn⟩ := hin
  refine ⟨_, hexec, ?_⟩
  generalize u8 s.zp.rx 2 = kind at *
  generalize s.zp.rx.drop 4 = p at *
  have vtime : v.time = s.time := by rw [State.time, State.time, vst]
  have hlink := takeReply_linkage (f := f) (node := x.node) (p := p) hk v
  simp only [State.linkage, Prod.mk.injEq] at hlink
  obtain ⟨l1, l2, l3⟩ := hlink
  obtain ⟨d1, d2, d3, d4, d5, d6⟩ := delivered_kept f x.node kind p v
  obtain ⟨b1, -, -, -, -, -, -, b8, b9, b10⟩ := beyond_fields (peContinue_beyond f (delivered f x.node kind p v))
  obtain ⟨e1, -, -, e4, -, -, e7, -⟩ := settle_link (peContinue f (delivered f x.node kind p v))
  have hcall := continue_calling f (delivered f x.node kind p v)
  have hnodes : (settle (peContinue f (delivered f x.node kind p v))).pe.nodes = (heard x.node v).pe.nodes :=
    e7.trans (b8.trans (d3.trans l3))
  have hclock : (settle (peContinue f (delivered f x.node kind p v))).clock = v.clock := e4.trans (b1.trans (d2.trans l2))
  have hzp : { (settle (peContinue f (delivered f x.node kind p v))).zp with exch := none, port := .off }
      = { s.zp with exch := none, port := .off, rx := [], rxCheck := 0, busFault := false } := by
    rw [e1, b10, d6, l1]
    show { v.zp with exch := none, port := .off, rx := [], rxCheck := 0, busFault := false } = _
    rw [vzp]
  have hnode : (heard x.node v).nodeLive x.node = { presence := .present, miss := 0, lastGood := some s.time } := by
    have h : (heard x.node v).nodeLive x.node = (v.nodeLive x.node).heard v.time :=
      nodeLive_onNode n1 (by rw [vpe, hn]; exact n2)
    rw [h, vtime]
    rfl
  have hzone := fun z => (hcall z).trans (congrArg Zone.calling (plumbing_zone d1 z))
  have hout : ((settle (peContinue f (delivered f x.node kind p v))).pe.outdoor, (settle (peContinue f (delivered f x.node kind p v))).pe.outdoorAt)
      = ((takeReply f x.node kind p v).pe.outdoor, (takeReply f x.node kind p v).pe.outdoorAt) := by
    have ho := congrArg (fun v : State => (v.pe.outdoor, v.pe.outdoorAt)) (settle_outer (peContinue f (delivered f x.node kind p v)))
    refine Eq.trans ho (b9.trans ?_)
    rw [d4, d5]
  generalize settle (peContinue f (delivered f x.node kind p v)) = t at *
  simp only [Zp.mk.injEq] at hzp
  refine ⟨?_, by simp [hzp], by simp [hzp], by simp [hzp], ?_, fun e hf he hb => ⟨fun hkind hroom hz hen => ?_, fun hkind hunit => ?_⟩⟩
  · rw [State.nodeLive, hnodes]
    exact hnode
  · rw [hclock, vclock]
  · subst hf
    obtain ⟨k1, k2⟩ := entryHeard_kept x.node p v
    rw [takeReply_entry (by rw [vpe]; exact he)] at hzone
    generalize entryHeard x.node p v = u at *
    obtain ⟨r1, r2, r3, -⟩ := reads_fields k2
    have hzu := plumbing_zone k1
    generalize hzz : nodeZone s.st.nodes x.node = z at *
    have htake : takeEntryReply e x.node kind p u = applyDemand z (s16 p 1) (receivedTemp p 3) (bit (u8 p 5) 0) u := by
      have hcond : u.kindOf x.node = .roomUnit ∧ nodeZone u.st.nodes x.node < 8 ∧ zoneEnabled u.st.zones (nodeZone u.st.nodes x.node) = true := by
        rw [State.kindOf, r1, r2, vst, hzz]
        exact ⟨hroom, hz, hen⟩
      rw [takeEntryReply, hb, hkind]
      show takeDemand x.node (s16 p 1) (receivedTemp p 3) (bit (u8 p 5) 0) u = _
      rw [takeDemand, if_pos hcond, r2, vst, hzz]
    have hrec : u.zone z = s.zone z := (hzu z).trans (zone_of_zones (congrArg Dm.zones vdm) z)
    have hz8 : z < u.dm.zones.length := by
      rw [show u.dm.zones = s.dm.zones from (congrArg Prod.fst k1).trans (congrArg Dm.zones vdm), hlen]
      exact hz
    have hc := hzone z
    rw [htake, applyDemand_calling _ _ _ hz8, hrec, r3, vtime] at hc
    simp only [Zone.calling, Prod.mk.injEq] at hc
    obtain ⟨c1, c2, c3, c4, c5⟩ := hc
    have htab := callAfter_table { s.zone z with setpoint := clamp 50 300 (s16 p 1), temp := receivedTemp p 3, lastDemand := s.time }
      (bit (u8 p 5) 0)
    rw [← c3] at htab
    exact ⟨c1, c2, c4, c5, htab⟩
  · subst hf
    obtain ⟨k1, k2⟩ := entryHeard_kept x.node p v
    rw [takeReply_entry (by rw [vpe]; exact he)] at hout
    generalize entryHeard x.node p v = u at *
    obtain ⟨r1, r2, r3, -⟩ := reads_fields k2
    have htake : takeEntryReply e x.node kind p u = u.onPe fun q => { q with outdoor := receivedTemp p 1, outdoorAt := some u.time } := by
      have hcond : u.kindOf x.node = .outdoorUnit := by
        rw [State.kindOf, r2, vst]
        exact hunit
      rw [takeEntryReply, hb, hkind]
      exact if_pos hcond
    rw [htake] at hout
    simp only [State.onPe_pe, Prod.mk.injEq, r3, vtime] at hout
    exact hout

end Sys2Proof.Machine

/-! SUPPORT. VALVE_COMMANDs as PE sends them, and what DM makes of their results and of VALVE_STATE reports (R61, R62, R167 to R169). -/

namespace Sys2Proof.Machine

variable {s t u v w : State}

/-! ### A VALVE_COMMAND sent (R167 to R169) -/

theorem zpRequest_exch (node kind : Nat) (p : List Byte) (r : List Nat) (s : State) : ∃ y, (zpRequest node kind p r s).zp.exch = some y
    ∧ y.node = node ∧ y.kind = kind ∧ y.replies = r ∧ y.out = telegram node kind p := by
  simp only [zpRequest]
  split
  · exact ⟨_, congrArg Zp.exch (onExch_zp rfl _), rfl, rfl, rfl, rfl⟩
  · exact ⟨_, rfl, rfl, rfl, rfl, rfl⟩

/-- The urgent queue and the round as a zone's command is handed (R168). -/
def commanding (low : Bool) (z : Nat) (r : List Nat) (p : Position) (s : State) : State := s.onPe fun q =>
  { q with
    urgent := q.urgent.map fun u => if u.forZone z then { u with inFlight := true } else u
    round := { q.round with service := some { zones := r, low := low }, inFlight := some (.valve z p) }
    portReady := false }

theorem serveZones_command {low : Bool} {z : Nat} {r : List Nat} {p : Position} (hq : s.queuedPosition z = some p)
    (hv : s.hasValve z = true) : serveZones low (z :: r) s = zpRequest (zoneValveNode s.st.zones z) kindValveCommand
      (put8 (zoneValveChannel s.st.zones z) ++ put8 p.code) [kindAck] (commanding low z r p s) := by
  have hn : ¬zoneValveNode s.st.zones z = 0 := bne_iff_ne.1 hv
  simp only [serveZones, hq, if_neg hn]
  rfl

/-- The first HIGH entry is the first zone served. -/
theorem highZones_head {z : Nat} {p : Position} (h : s.pe.urgent.head? = some { item := .valve z p }) :
    (∃ r, s.highZones = z :: r) ∧ s.queuedPosition z = some p := by
  have hu : s.pe.urgent = { item := .valve z p } :: s.pe.urgent.tail := by
    cases hl : s.pe.urgent with
    | nil =>
      rw [hl] at h
      cases h
    | cons a r =>
      rw [hl] at h
      cases h
      rfl
  refine ⟨?_, ?_⟩
  · rw [State.highZones, hu]
    exact ⟨_, rfl⟩
  · rw [State.queuedPosition, hu]
    simp [Urgent.forZone]

/-- A HIGH entry at the head of the queue is sent before a due entry of the round that starts (R154, R167, R168). -/
theorem startRound_commands {z : Nat} {p : Position} (hr : s.mg.restart = false) (hv : s.hasValve z = true)
    (hu : s.pe.urgent.head? = some { item := .valve z p })
    (hdue : dueIn ((s.pe.round.number + 1) % 4294967296) (pollEntry s.st.poll 0) = true) :
    ∃ y, (startRound s).zp.exch = some y ∧ y.node = zoneValveNode s.st.zones z ∧ y.kind = kindValveCommand ∧ y.replies = [kindAck]
      ∧ y.out = telegram y.node kindValveCommand (put8 (zoneValveChannel s.st.zones z) ++ put8 p.code)
      ∧ (startRound s).pe.round.inFlight = some (.valve z p)
      ∧ (startRound s).pe.urgent.head? = some { item := .valve z p, inFlight := true } := by
  have hread : (readTaken s.st.poll 0).entry = pollEntry s.st.poll 0 := by
    simp only [readTaken]
    split <;> rfl
  rw [← hread] at hdue
  obtain ⟨v, hround, vurg, vst⟩ : ∃ v, startRound s = servicePoint v ∧ v.pe.urgent = s.pe.urgent ∧ v.st = s.st := by
    refine ⟨(s.onRound fun r =>
      { r with
        state := .running, number := (r.number + 1) % 4294967296
        period := s.deadline (pollPeriod s.st.poll * Config.tenth)
        cur := none, pre := none, passDone := false, service := none, inFlight := none, faultsNow := 0 }).onRound fun r =>
      { r with cur := some (readTaken s.st.poll 0), pre := none }, ?_, rfl, rfl⟩
    rw [startRound, if_neg (by rw [hr]; exact nofun)]
    simp only [takeUp]
    exact if_pos hdue
  obtain ⟨⟨r, hz⟩, hq⟩ := highZones_head (s := v) (by rw [vurg]; exact hu)
  have hvv : v.hasValve z = true := by
    rw [State.hasValve, vst]
    exact hv
  rw [hround, servicePoint, hz, serveZones_command hq hvv]
  obtain ⟨y, h1, h2, h3, h4, h5⟩ := zpRequest_exch (zoneValveNode v.st.zones z) kindValveCommand
    (put8 (zoneValveChannel v.st.zones z) ++ put8 p.code) [kindAck] (commanding (v.pe.urgent.any fun u => !u.high) z r p v)
  rw [(zpRequest_dm _ _ _ _ _).2]
  rw [← vst]
  refine ⟨y, h1, h2, h3, h4, by rw [h2]; exact h5, rfl, ?_⟩
  have hhead : (v.pe.urgent.map fun u => if u.forZone z then { u with inFlight := true } else u).head?
      = some { item := .valve z p, inFlight := true } := by
    rw [List.head?_map, vurg, hu]
    simp [Urgent.forZone]
  exact hhead

theorem periodExpiry_commands {z d : Nat} {p : Position} (hp : s.power = .on) (hv : s.hasValve z = true)
    (hd : s.pe.round.period = some d) (hi : s.pe.round.state = .idle) (hready : s.pe.portReady = true) (hr : s.mg.restart = false)
    (hu : s.pe.urgent.head? = some { item := .valve z p })
    (hdue : dueIn ((s.pe.round.number + 1) % 4294967296) (pollEntry s.st.poll 0) = true) :
    ∃ t y, exec .periodTimerExpiry s = .next t ∧ t.zp.exch = some y
      ∧ y.node = zoneValveNode s.st.zones z ∧ y.kind = kindValveCommand ∧ y.replies = [kindAck]
      ∧ y.out = telegram y.node kindValveCommand (put8 (zoneValveChannel s.st.zones z) ++ put8 p.code)
      ∧ t.pe.round.inFlight = some (.valve z p)
      ∧ t.pe.urgent.head? = some { item := .valve z p, inFlight := true } := by
  let u := (s.reach d).onRound fun r => { r with period := none }
  have hexec : exec .periodTimerExpiry s = .next (settle (periodExpired (s.reach d))) :=
    exec_expire (c := .periodTimerExpiry) nofun rfl rfl hp hd
  have hstart : periodExpired (s.reach d) = startRound u := maybeStart_starts (s := u) hi rfl hready
  obtain ⟨y, h1, h2, h3, h4, h5, h6, h7⟩ := startRound_commands (s := u) (p := p) hr hv hu hdue
  rw [hstart] at hexec
  obtain ⟨e1, -, -, -, -, e6, -⟩ := settle_link (startRound u)
  have hplumb : (settle (startRound u)).plumbing = (startRound u).plumbing :=
    plumbing_of_acts nofun nofun nofun (settle_acts (.inl rfl) .refl : Acts false (· = .raise .gasRelay) (startRound u) _)
  have hurg : (settle (startRound u)).pe.urgent = (startRound u).pe.urgent := by
    simp only [State.plumbing, Prod.mk.injEq] at hplumb
    exact hplumb.2.2.2.2.2
  exact ⟨_, y, hexec, by rw [e1, h1], h2, h3, h4, h5, by rw [e6, h6], by rw [hurg, h7]⟩

/-! ### Results and reports taken (R61, R62) -/

/-- After a command's exchange DM is as the reply's taking left it (R168). -/
theorem command_zone {z y : Nat} {p : Position} {node kind : Nat} {q : List Byte} (s : State) :
    (settle (peContinue (.valve z p) (delivered (.valve z p) node kind q s))).zone y = (takeReply (.valve z p) node kind q s).zone y := by
  rw [settle_zone, zone_of_zones (congrArg Dm.zones (peContinue_dm _)), plumbing_zone (delivered_kept _ _ _ _ _).1]

theorem removeInFlight_kept (s : State) : (removeInFlight s).dm = s.dm ∧ (removeInFlight s).reads = s.reads := ⟨rfl, rfl⟩

theorem hasValve_of_reads {z : Nat} (h : u.reads = v.reads) : u.hasValve z = v.hasValve z := by
  rw [State.hasValve, State.hasValve, (reads_fields h).1]

/-- A failed command leaves its valve UNKNOWN (R61). -/
theorem valveResult_failed {z : Nat} {p : Position} (hv : s.hasValve z = true) (hz : z < s.dm.zones.length) :
    ((valveResult z p .failed s).zone z).valve = .unknown ∧ ((valveResult z p .failed s).zone z).travel = none
      ∧ ((valveResult z p .failed s).zone z).ack = false := by
  have hset : (setValve z .unknown s).zone z = _ := setValve_zone_same hz
  have hrest : compareValve z (setValve z .unknown s) = setValve z .unknown s := compareValve_rest (.inr (.inl (by rw [hset])))
  have he : valveResult z p .failed s = refresh (setValve z .unknown s) := by
    simp only [valveResult, hv]
    exact congrArg refresh hrest
  have hw := refresh_unknown (s := setValve z .unknown s) (z := z) (by rw [hset])
  rw [he]
  rw [hset] at hw
  generalize (refresh (setValve z .unknown s)).zone z = r at *
  exact ⟨congrArg (fun q => q.valve) hw, congrArg (fun q => q.travel) hw, congrArg (fun q => q.ack) hw⟩

/-- The circuit selected reads no more of a zone than its call and its valve state (R69). -/
theorem selected_congr (hz : ∀ y, (u.zone y).call = (v.zone y).call ∧ (u.zone y).valve = (v.zone y).valve)
    (hd : u.dm.draw = v.dm.draw) (hf : u.dm.frost = v.dm.frost) (r1 : u.st.zones = v.st.zones) (r4 : u.latch = v.latch) (r6 : u.mp = v.mp) :
    u.selected = v.selected := by
  have hc : u.contributes = v.contributes := by
    funext y
    simp only [State.contributes, r1, (hz y).1, (hz y).2]
  simp only [State.selected, hd, hf, r4, r6, hc]

/-- The selected circuit and the desired position of a zone, of two states that DM reads alike. -/
theorem selected_of_plumbing (h : u.plumbing = v.plumbing) (hr : u.reads = v.reads) : u.selected = v.selected := by
  have hz := plumbing_zone h
  simp only [State.plumbing, Prod.mk.injEq] at h
  obtain ⟨r1, -, -, r4, -, r6⟩ := reads_fields hr
  exact selected_congr (fun y => by rw [hz]; exact ⟨rfl, rfl⟩) h.2.2.1 h.2.2.2.2.1 r1 r4 r6

theorem desiredOf_congr {z : Nat} (hz : (u.zone z).call = (v.zone z).call) (hc : u.dm.circuit = v.dm.circuit) (hr : u.reads = v.reads) :
    u.desiredOf z = v.desiredOf z := Alike.desiredOf ⟨hc, (reads_fields hr).1, (reads_fields hr).2.2.2.1⟩ hz

/-- An acknowledged command starts its valve's travel (R61). -/
theorem valveResult_ack {z : Nat} {p : Position} (hv : s.hasValve z = true) (hz : z < s.dm.zones.length)
    (hsel : s.selected = s.dm.circuit) (hdes : (s.zone z).desired = p)
    (hval : (s.zone z).valve = (if p = .opened then .opening else .closing)) (hset : s.dm.circuit = .dhw ∨ s.desiredOf z = p) :
    let len := (if zoneEndSwitch s.st.zones z then 2 else 1) * zoneRunTime s.st.zones z
    (valveResult z p .ack s).zone z = { s.zone z with ack := true, travel := s.deadline (len * Config.second), travelLength := len } := by
  intro len
  let w := s.onZone z fun q => { q with ack := true, travel := s.deadline (len * Config.second), travelLength := len }
  have hw : w.zone z = { s.zone z with ack := true, travel := s.deadline (len * Config.second), travelLength := len } := zone_onZone_same hz
  have hother : ∀ y, (w.zone y).call = (s.zone y).call ∧ (w.zone y).valve = (s.zone y).valve := by
    intro y
    by_cases hy : y = z
    · rw [hy, hw]
      exact ⟨rfl, rfl⟩
    · rw [show w.zone y = s.zone y from zone_onZone_ne hy]
      exact ⟨rfl, rfl⟩
  have hwsel : w.selected = w.dm.circuit := (selected_congr hother rfl rfl rfl rfl rfl).trans hsel
  have hrest : w.atRest z := by
    rw [State.atRest, hw]
    right; right
    cases p with
    | opened => exact .inl ⟨hdes, .inr hval⟩
    | closed => exact .inr ⟨hdes, .inr hval⟩
  have hsettled : (select w).settled z := by
    have hs : select w = w := if_pos hwsel
    rw [hs, State.settled, hw]
    refine hset.imp_right fun h => ?_
    rw [desiredOf_congr (v := s) (hother z).1 rfl rfl, h]
    exact hdes
  have he : valveResult z p .ack s = refresh (compareValve z w) := by
    simp only [valveResult, hv]
    cases p with
    | opened => exact congrArg (fun q => refresh (compareValve z q)) (if_pos hval)
    | closed => exact congrArg (fun q => refresh (compareValve z q)) (if_pos hval)
  rw [he, compareValve_rest hrest, refresh_settled hsettled, hw]

theorem selected_frost (h : s.dm.frost = false) : s.selected ≠ .frost := by
  simp only [State.selected, h, Bool.false_eq_true, if_false]
  repeat' split
  all_goals nofun

theorem desiredOf_opened {z : Nat} (he : zoneEnabled s.st.zones z = true) (hc : (s.zone z).call = .call)
    (hw : setMode s.latch.settings = .winter) : s.desiredOf z = .opened := by
  rw [State.desiredOf, he, hc, hw]
  rfl

theorem desiredOf_closed {z : Nat} (hc : (s.zone z).call ≠ .call) (hf : s.dm.circuit ≠ .frost) : s.desiredOf z = .closed := by
  simp [State.desiredOf, hc, hf]

/-- A position reported brings its valve there, where the zone wants it there (R62). -/
theorem valveArrived_zone {z : Nat} {val : ValveState} {d : Position} (hz : z < s.dm.zones.length) (hdes : (s.zone z).desired = d)
    (hval : (d = .opened ∧ val = .opened) ∨ (d = .closed ∧ val = .closed)) (hset : (select (setValve z val s)).desiredOf z = d) :
    (valveArrived z val s).zone z = { s.zone z with valve := val, travel := none, ack := false, overrun := false } := by
  have hw : (setValve z val s).zone z = { s.zone z with valve := val, travel := none, ack := false, overrun := false } := setValve_zone_same hz
  have hrest : (setValve z val s).atRest z := by
    rw [State.atRest, hw]
    right; right
    rcases hval with ⟨rfl, rfl⟩ | ⟨rfl, rfl⟩
    · exact .inl ⟨hdes, .inl rfl⟩
    · exact .inr ⟨hdes, .inl rfl⟩
  have hsettled : (select (setValve z val s)).settled z := by
    right
    rw [hset, select_zone, hw]
    exact hdes
  rw [valveArrived, compareValve_rest hrest, refresh_settled hsettled, hw]

/-- What the selection after a valve's arrival reads. -/
theorem arrived_kept (z : Nat) (val : ValveState) (s : State) : (select (setValve z val s)).st.zones = s.st.zones
    ∧ (select (setValve z val s)).latch = s.latch ∧ (select (setValve z val s)).dm.circuit = (setValve z val s).selected
    ∧ (setValve z val s).dm.frost = s.dm.frost := by
  have ho : (select (setValve z val s)).outer = s.outer := by simp
  have hf : (setValve z val s).dm.frost = s.dm.frost := by
    rcases clearOverrun_cases z (s.onZone z fun r => { r with valve := val, travel := none, ack := false }) with h | ⟨-, h⟩
    · simp only [State.plumbing, Prod.mk.injEq] at h
      exact h.2.2.2.2.1
    · rw [setValve, h]
      rfl
  exact ⟨read_outer (fun v : State => v.st.zones) ho fun _ => rfl, read_outer State.latch ho fun _ => rfl, select_circuit _, hf⟩

/-- An OPEN report of a valve on its way there, of a zone that calls (R62). -/
theorem valveReport_opened {z node : Nat} (hz : z < s.dm.zones.length) (hv : s.hasValve z = true) (he : zoneEndSwitch s.st.zones z = true)
    (hn : zoneValveNode s.st.zones z = node) (ha : (s.zone z).ack = true) (hval : (s.zone z).valve = .opening)
    (hdes : (s.zone z).desired = .opened) (hen : zoneEnabled s.st.zones z = true) (hc : (s.zone z).call = .call)
    (hw : setMode s.latch.settings = .winter) :
    (valveReport z node 1 s).zone z = { s.zone z with valve := .opened, travel := none, ack := false, overrun := false } := by
  have hr : valveReport z node 1 s = valveArrived z .opened s := by simp [valveReport, hv, he, hn, hval, ha]
  obtain ⟨k1, k2, -, -⟩ := arrived_kept z .opened s
  rw [hr]
  refine valveArrived_zone hz hdes (.inl ⟨rfl, rfl⟩) (desiredOf_opened (by rw [k1]; exact hen) ?_ (by rw [k2]; exact hw))
  rw [select_zone, setValve_zone_same hz]
  exact hc

/-- A CLOSED report of a valve on its way there, of a zone that neither calls nor is wanted by FROST (R62). -/
theorem valveReport_closed {z node : Nat} (hz : z < s.dm.zones.length) (hv : s.hasValve z = true) (he : zoneEndSwitch s.st.zones z = true)
    (hn : zoneValveNode s.st.zones z = node) (ha : (s.zone z).ack = true) (hval : (s.zone z).valve = .closing)
    (hdes : (s.zone z).desired = .closed) (hc : (s.zone z).call ≠ .call) (hf : s.dm.frost = false) :
    (valveReport z node 2 s).zone z = { s.zone z with valve := .closed, travel := none, ack := false, overrun := false } := by
  have hr : valveReport z node 2 s = valveArrived z .closed s := by simp [valveReport, hv, he, hn, hval, ha]
  obtain ⟨-, -, k3, k4⟩ := arrived_kept z .closed s
  rw [hr]
  refine valveArrived_zone hz hdes (.inr ⟨rfl, rfl⟩) (desiredOf_closed ?_ ?_)
  · rw [select_zone, setValve_zone_same hz]
    exact hc
  · rw [k3]
    exact selected_frost (k4.trans hf)

end Sys2Proof.Machine

/-! SETTLES O48. -/

namespace Sys2Proof.Machine

variable {s t u v w : State}

/-- The state in which DM takes the result of a command whose reply was good. -/
def commandHeard (node : Nat) (s : State) : State := removeInFlight (presenceGood node s)

theorem commandHeard_kept (node : Nat) (s : State) : (∀ y, (commandHeard node s).zone y = s.zone y)
    ∧ (commandHeard node s).dm.zones.length = s.dm.zones.length ∧ (commandHeard node s).dm.circuit = s.dm.circuit
    ∧ (commandHeard node s).reads = s.reads ∧ (commandHeard node s).selected = s.selected := by
  have hp := (presenceGood_kept node s).2
  have hr := presenceGood_reads node s
  have hsel : (commandHeard node s).selected = (presenceGood node s).selected := selected_congr (fun _ => ⟨rfl, rfl⟩) rfl rfl rfl rfl rfl
  have hz : ∀ y, (presenceGood node s).zone y = s.zone y := plumbing_zone hp
  have hc : (presenceGood node s).dm.circuit = s.dm.circuit := plumbing_circuit hp
  refine ⟨hz, congrArg (fun q => q.1.length) hp, hc, hr, hsel.trans (selected_of_plumbing hp hr)⟩

/-- The zone's record after a good reply to its command. -/
theorem ackReply_zone {x : Exchange} {z : Nat} {pos : Position} (dt : Nat) (hin : InExchange s x (.valve z pos) .receiving)
    (hdue : s.zp.checkDue = true) (h0 : u8 s.zp.rx 0 = 0) (h1 : u8 s.zp.rx 1 = x.node) (h2 : u8 s.zp.rx 2 = kindAck)
    (hk : x.replies = [kindAck]) : ∃ (t u : State), exec (.replyReceived s.zp.rxCheck dt) s = .next t
      ∧ t.zone z = (valveResult z pos (if replyBusy kindAck (s.zp.rx.drop 4) then .failed else .ack) u).zone z
      ∧ (∀ y, u.zone y = s.zone y) ∧ u.dm.zones.length = s.dm.zones.length ∧ u.dm.circuit = s.dm.circuit
      ∧ u.selected = s.selected ∧ u.st.zones = s.st.zones ∧ u.latch = s.latch ∧ u.clock.now = s.clock.now + dt := by
  obtain ⟨v, vdm, vst, vpe, vzp, vlatch, vmp, vfm, vclock, hexec⟩ := exec_goodReply dt hin hdue h0 h1
    (by rw [hk, h2]; decide) (by rw [h2]; decide)
  rw [h2] at hexec
  obtain ⟨k1, k2, k3, k4, k5⟩ := commandHeard_kept x.node v
  obtain ⟨r1, -, -, r4, r5, -⟩ := reads_fields k4
  have hvsel : v.selected = s.selected := by
    refine selected_congr (fun y => ?_) (by rw [vdm]) (by rw [vdm]) (by rw [vst]) vlatch vmp
    rw [zone_of_zones (congrArg Dm.zones vdm)]
    exact ⟨rfl, rfl⟩
  refine ⟨_, commandHeard x.node v, hexec, command_zone v, fun y => (k1 y).trans (zone_of_zones (congrArg Dm.zones vdm) y),
    k2.trans (by rw [vdm]), k3.trans (by rw [vdm]), k5.trans hvsel, r1.trans (by rw [vst]), r4.trans vlatch, ?_⟩
  rw [r5, vclock]

/-- A good or busy ACK to a VALVE_COMMAND (R61, R162). -/
theorem ackReply_taken {x : Exchange} {z : Nat} {pos : Position} (dt : Nat) (hz : z < 8) (hlen : s.dm.zones.length = 8)
    (hv : s.hasValve z = true) (hin : InExchange s x (.valve z pos) .receiving) (hdue : s.zp.checkDue = true)
    (h0 : u8 s.zp.rx 0 = 0) (h1 : u8 s.zp.rx 1 = x.node) (h2 : u8 s.zp.rx 2 = kindAck) (hk : x.replies = [kindAck]) :
    (replyBusy kindAck (s.zp.rx.drop 4) = false → s.selected = s.dm.circuit → (s.zone z).desired = pos →
      (s.zone z).valve = (if pos = .opened then .opening else .closing) →
      (s.dm.circuit = .dhw ∨ s.desiredOf z = pos) →
      ∃ t, exec (.replyReceived s.zp.rxCheck dt) s = .next t
        ∧ (t.zone z).ack = true ∧ (t.zone z).valve = (s.zone z).valve
        ∧ (t.zone z).travelLength = (if zoneEndSwitch s.st.zones z then 2 else 1) * zoneRunTime s.st.zones z
        ∧ (t.zone z).travel = some (s.clock.now + dt + (t.zone z).travelLength * Config.second))
    ∧ (replyBusy kindAck (s.zp.rx.drop 4) = true → ∃ t, exec (.replyReceived s.zp.rxCheck dt) s = .next t
        ∧ (t.zone z).valve = .unknown ∧ (t.zone z).travel = none ∧ (t.zone z).ack = false) := by
  obtain ⟨t, u, hexec, ht, k1, k2, k3, k4, k5, k6, k7⟩ := ackReply_zone dt hin hdue h0 h1 h2 hk
  have huv : u.hasValve z = true := by rw [State.hasValve, k5]; exact hv
  have huz : z < u.dm.zones.length := by rw [k2, hlen]; exact hz
  refine ⟨fun hb hsel hdes hval hset => ⟨t, hexec, ?_⟩, fun hb => ⟨t, hexec, ?_⟩⟩
  · have hdu : u.desiredOf z = s.desiredOf z := Alike.desiredOf ⟨k3, k5, k6⟩ (by rw [k1])
    have hack := valveResult_ack (s := u) (p := pos) huv huz (by rw [k4, hsel, k3]) (by rw [k1, hdes]) (by rw [k1, hval])
      (by rw [k3, hdu]; exact hset)
    rw [hb] at ht
    rw [ht.trans hack, k1, k5]
    exact ⟨rfl, rfl, rfl, congrArg (fun n => some (n + _)) k7⟩
  · rw [hb] at ht
    rw [ht]
    exact valveResult_failed huv huz

/-- A VALVE_COMMAND whose exchange has no reply (R61, R138). -/
theorem noAckReply_taken {x : Exchange} {z d : Nat} {pos : Position} (hz : z < 8) (hlen : s.dm.zones.length = 8)
    (hv : s.hasValve z = true) (hin : InExchange s x (.valve z pos) .awaiting) (hd : x.reply = some d) (hl : s.lines.busDominant = false) :
    ∃ t, exec .treplyExpiry s = .next t ∧ (t.zone z).valve = .unknown ∧ (t.zone z).travel = none ∧ (t.zone z).ack = false := by
  obtain ⟨hp, hx, hf, hph, -, -, -⟩ := hin
  have hexec : exec .treplyExpiry s = .next (settle (replyWindowEnds (s.reach d))) :=
    exec_expire (c := .treplyExpiry) nofun rfl rfl hp (by rw [hx]; exact hd)
  let r := recordFailure .noReply (s.reach d)
  let w := removeInFlight (presenceMiss x.node r)
  have he : replyWindowEnds (s.reach d) = peContinue (.valve z pos) (valveResult z pos .failed w) := by
    have hl' : (s.reach d).lines.busDominant = false := hl
    have hx' : (s.reach d).zp.exch = some x := hx
    have hf' : (s.reach d).pe.round.inFlight = some (.valve z pos) := hf
    rw [replyWindowEnds, hl', failExchange, hx', hf']
    rfl
  have hacts : Acts false OnReset (s.reach d) (presenceMiss x.node r) :=
    presenceMiss_acts _ ⟨nofun, nofun⟩ ⟨nofun, nofun⟩ ⟨nofun, nofun⟩ ⟨nofun, nofun⟩ (recordFailure_acts _ ⟨nofun, nofun⟩ .refl)
  have hwv : w.hasValve z = true := by
    show (presenceMiss x.node r).hasValve z = true
    rw [State.hasValve, zoneTable_of_acts hacts]
    exact hv
  have hwz : z < w.dm.zones.length := by
    show z < (presenceMiss x.node r).dm.zones.length
    rw [hacts.zonesLength, show (s.reach d).dm.zones.length = 8 from hlen]
    exact hz
  have hfail := valveResult_failed (p := pos) hwv hwz
  rw [he] at hexec
  refine ⟨_, hexec, ?_⟩
  rw [settle_zone, zone_of_zones (congrArg Dm.zones (peContinue_dm _))]
  exact hfail

/-- A VALVE_STATE reply to a query of the zone's valve node (R62, R162). -/
theorem valveStateReply_taken {x : Exchange} {e : Taken} {z dt : Nat} (hz : z < 8) (hlen : s.dm.zones.length = 8)
    (hv : s.hasValve z = true) (hin : InExchange s x .entry .receiving) (hdue : s.zp.checkDue = true) (h0 : u8 s.zp.rx 0 = 0)
    (h1 : u8 s.zp.rx 1 = x.node) (h2 : u8 s.zp.rx 2 = kindValveState) (hk : x.replies = [kindValveState])
    (he : s.pe.round.cur = some e) (hkind : e.entry.kind = .valveQuery) (hblock : e.entry.block = z)
    (hsw : zoneEndSwitch s.st.zones z = true) (hnode : zoneValveNode s.st.zones z = x.node)
    (hb : replyBusy kindValveState (s.zp.rx.drop 4) = false) (ha : (s.zone z).ack = true) :
    (u8 (s.zp.rx.drop 4) 1 = 1 → (s.zone z).valve = .opening → (s.zone z).desired = .opened →
      zoneEnabled s.st.zones z = true → (s.zone z).call = .call → setMode s.latch.settings = .winter →
      ∃ t, exec (.replyReceived s.zp.rxCheck dt) s = .next t
        ∧ (t.zone z).valve = .opened ∧ (t.zone z).travel = none ∧ (t.zone z).ack = false)
    ∧ (u8 (s.zp.rx.drop 4) 1 = 2 → (s.zone z).valve = .closing → (s.zone z).desired = .closed →
      (s.zone z).call ≠ .call → s.dm.frost = false →
      ∃ t, exec (.replyReceived s.zp.rxCheck dt) s = .next t
        ∧ (t.zone z).valve = .closed ∧ (t.zone z).travel = none ∧ (t.zone z).ack = false) := by
  obtain ⟨v, vdm, vst, vpe, vzp, vlatch, vmp, vfm, vclock, hexec⟩ := exec_goodReply dt hin hdue h0 h1
    (by rw [hk, h2]; decide) (by rw [h2]; decide)
  rw [h2] at hexec
  generalize s.zp.rx.drop 4 = p at *
  obtain ⟨k1, k2⟩ := entryHeard_kept x.node p v
  have htake := takeReply_entry (kind := kindValveState) (node := x.node) (p := p) (s := v) (by rw [vpe]; exact he)
  obtain ⟨d1, -⟩ := delivered_kept .entry x.node kindValveState p v
  have hdel := plumbing_zone d1 z
  have hcont := peContinue_zone (z := z) .entry (s := delivered .entry x.node kindValveState p v)
  rw [htake] at hdel
  generalize entryHeard x.node p v = u at *
  obtain ⟨r1, r2, r3, r4, -⟩ := reads_fields k2
  have hrec : u.zone z = s.zone z := (plumbing_zone k1 z).trans (zone_of_zones (congrArg Dm.zones vdm) z)
  have hentry : takeEntryReply e x.node kindValveState p u = valveReport z x.node (u8 p 1) u := by
    rw [takeEntryReply, hb, hkind, hblock]
    rfl
  have hst : u.st.zones = s.st.zones := r1.trans (by rw [vst])
  have hlatch : u.latch = s.latch := r4.trans vlatch
  have hfrost : u.dm.frost = s.dm.frost := by
    rw [← vdm]
    simp only [State.plumbing, Prod.mk.injEq] at k1
    exact k1.2.2.2.2.1
  have huz : z < u.dm.zones.length := by
    rw [show u.dm.zones = s.dm.zones from (congrArg Prod.fst k1).trans (congrArg Dm.zones vdm), hlen]
    exact hz
  have huv : u.hasValve z = true := by rw [State.hasValve, hst]; exact hv
  rw [hentry] at hdel
  have hend : ∀ val : ValveState, val ≠ .unknown → (valveReport z x.node (u8 p 1) u).zone z
      = { u.zone z with valve := val, travel := none, ack := false, overrun := false } →
      ∃ t, exec (.replyReceived s.zp.rxCheck dt) s = .next t ∧ (t.zone z).valve = val ∧ (t.zone z).travel = none
        ∧ (t.zone z).ack = false := by
    intro val hne hrep
    rw [hrep] at hdel
    refine ⟨_, hexec, ?_⟩
    rw [settle_zone, hcont (by rw [hdel]; exact hne), hdel]
    exact ⟨rfl, rfl, rfl⟩
  refine ⟨fun hpos hval hdes hen hc hw => ?_, fun hpos hval hdes hc hf => ?_⟩
  · refine hend .opened nofun ?_
    rw [hpos]
    exact valveReport_opened huz huv (by rw [hst]; exact hsw) (by rw [hst]; exact hnode) (by rw [hrec]; exact ha)
      (by rw [hrec]; exact hval) (by rw [hrec]; exact hdes) (by rw [hst]; exact hen) (by rw [hrec]; exact hc) (by rw [hlatch]; exact hw)
  · refine hend .closed nofun ?_
    rw [hpos]
    exact valveReport_closed huz huv (by rw [hst]; exact hsw) (by rw [hst]; exact hnode) (by rw [hrec]; exact ha)
      (by rw [hrec]; exact hval) (by rw [hrec]; exact hdes) (by rw [hrec]; exact hc) (by rw [hfrost]; exact hf)

/-- Settles O48. -/
theorem valveCommandsAreSentAndTheirResultsTaken : Obligations.ValveCommandsAreSentAndTheirResultsTaken := by
  unfold Obligations.ValveCommandsAreSentAndTheirResultsTaken
  intro s x z dt pos hp hz hlen hv
  refine ⟨fun d hd hi hready hr hu hdue => periodExpiry_commands hp hv hd hi hready hr hu hdue,
    fun hin hdue h0 h1 h2 hk => ackReply_taken dt hz hlen hv hin hdue h0 h1 h2 hk,
    fun d hin hd hl => noAckReply_taken hz hlen hv hin hd hl,
    fun e hin hdue h0 h1 h2 hk he hkind hblock hsw hnode hb ha =>
      valveStateReply_taken hz hlen hv hin hdue h0 h1 h2 hk he hkind hblock hsw hnode hb ha⟩

end Sys2Proof.Machine

/-! SUPPORT. The stored pages as the load reads them: the images of the tables and of the safety block (R198, R199). -/

namespace Sys2Proof.Machine

variable {s t u v w : State}

/-! ### Pages of equal length -/

/-- `n` pages put together. -/
def joinPages {α : Type} (n : Nat) (g : Nat → List α) : List α := ((List.range n).map g).flatten

theorem joinPages_succ {α : Type} (n : Nat) (g : Nat → List α) : joinPages (n + 1) g = joinPages n g ++ g n := by
  simp [joinPages, List.range_succ]

theorem joinPages_length {α : Type} {g : Nat → List α} {c : Nat} (hg : ∀ k, (g k).length = c) (n : Nat) :
    (joinPages n g).length = c * n := by
  induction n with
  | zero => rfl
  | succ n ih => rw [joinPages_succ, List.length_append, ih, hg, Nat.mul_succ]

/-- An element of the pages put together. -/
theorem joinPages_getD {α : Type} {g : Nat → List α} {c : Nat} (hg : ∀ k, (g k).length = c) {n k j : Nat} (d : α) (hk : k < n)
    (hj : j < c) : (joinPages n g).getD (c * k + j) d = (g k).getD j d := by
  induction n with
  | zero => omega
  | succ n ih =>
    rw [joinPages_succ]
    by_cases h : k = n
    · subst h
      rw [List.getD_append_right _ _ _ _ (by rw [joinPages_length hg]; omega), joinPages_length hg]
      congr 1
      omega
    · have hle : c * (k + 1) ≤ c * n := Nat.mul_le_mul_left c (by omega)
      rw [Nat.mul_succ] at hle
      rw [List.getD_append _ _ _ _ (by rw [joinPages_length hg]; omega)]
      exact ih (by omega)

theorem slice_length (l : List Byte) (off n : Nat) : (slice l off n).length = n := by simp [slice]

theorem slice_eq_of_getD {l p : List Byte} {off : Nat} (h : ∀ j < p.length, l.getD (off + j) 0 = p.getD j 0) : slice l off p.length = p := by
  refine List.ext_getElem (slice_length _ _ _) fun j h1 h2 => ?_
  simp only [slice, List.getElem_map, List.getElem_range]
  rw [h j h2, List.getD_eq_getElem _ _ h2]

/-- One page of the pages put together. -/
theorem slice_joinPages {g : Nat → List Byte} (hg : ∀ k, (g k).length = 32) {n k : Nat} (hk : k < n) :
    slice (joinPages n g) (32 * k) 32 = g k := by
  have h := slice_eq_of_getD (l := joinPages n g) (p := g k) (off := 32 * k) fun j hj => joinPages_getD hg 0 hk (by rw [hg] at hj; exact hj)
  rwa [hg] at h

theorem readPage_length (m : Memory) (p : Nat) : (m.readPage p).length = 32 := by simp [Memory.readPage]

/-! ### The tables (R198) -/

theorem loadPage_length {m : Memory} {p : Nat} {b : List Byte} (hb : b.length = 32) : (m.loadPage p b).length = 32 := by
  rw [Memory.loadPage]
  split
  · exact readPage_length m p
  · exact hb

theorem loadTable_page (m : Memory) {first n k : Nat} (dflt : List Byte) (hk : k < n) :
    slice (m.loadTable first n dflt) (32 * k) 32 = if m.complete (first + k) then m.readPage (first + k) else slice dflt (32 * k) 32 :=
  slice_joinPages (g := fun i => m.loadPage (first + i) (slice dflt (32 * i) 32)) (fun _ => loadPage_length (slice_length _ _ _)) hk

theorem loadTable_single (m : Memory) {first : Nat} {dflt : List Byte} (hd : dflt.length = 32) :
    m.loadTable first 1 dflt = if m.complete first then m.readPage first else dflt := by
  have hs : slice dflt 0 32 = dflt := by
    have h := slice_eq_of_getD (l := dflt) (p := dflt) (off := 0) fun j _ => by rw [Nat.zero_add]
    rwa [hd] at h
  have hj : m.loadTable first 1 dflt = m.loadPage first (slice dflt 0 32) := by simp [Memory.loadTable]
  rw [hj, hs, Memory.loadPage]

/-- A table of which no page is complete loads as its defaults. -/
theorem loadTable_default {m : Memory} {first n : Nat} {dflt : List Byte} (hc : ∀ k < n, m.complete (first + k) = false)
    (hd : dflt.length = 32 * n) : m.loadTable first n dflt = dflt := by
  have hpage : ∀ k, (m.loadPage (first + k) (slice dflt (32 * k) 32)).length = 32 := fun k => loadPage_length (slice_length _ _ _)
  have hlen : (m.loadTable first n dflt).length = 32 * n := joinPages_length hpage n
  refine List.ext_getElem (hlen.trans hd.symm) fun i h1 h2 => ?_
  have hi : i < 32 * n := by omega
  have hdiv : 32 * (i / 32) + i % 32 = i := Nat.div_add_mod i 32
  have hmod : i % 32 < 32 := Nat.mod_lt _ (by decide)
  have hget := joinPages_getD hpage (n := n) (k := i / 32) (j := i % 32) 0 (by omega) hmod
  have hval : m.loadPage (first + i / 32) (slice dflt (32 * (i / 32)) 32) = slice dflt (32 * (i / 32)) 32 := by
    rw [Memory.loadPage, hc _ (by omega)]
    rfl
  rw [hdiv, hval, slice, List.getD_eq_getElem (n := i % 32) _ _ (by simpa using hmod), List.getElem_map, List.getElem_range, hdiv,
    List.getD_eq_getElem _ _ h2] at hget
  rw [← hget]
  exact (List.getD_eq_getElem _ _ h1).symm

/-- The images of the settings-class tables are those of the load. -/
def TablesLoaded (m : Memory) (t : State) : Prop := t.st.settings = m.loadTable 11 1 defaultSettings
  ∧ t.st.curve = m.loadTable 12 1 defaultCurve ∧ t.st.zones = m.loadTable 13 2 defaultZones
  ∧ t.st.nodes = m.loadTable 15 4 defaultNodes ∧ t.st.poll = m.loadTable 19 4 defaultPoll
  ∧ t.st.faultCodes = m.loadTable 23 4 defaultFaultCodes

/-- The image of each table page after the load (R198). -/
theorem TablesLoaded.pageImage {m : Memory} (h : TablesLoaded m t) {p : Nat} (h1 : 11 ≤ p) (h2 : p ≤ 26) :
    t.pageImage p = if m.complete p then m.readPage p else State.reset.pageImage p := by
  obtain ⟨hset, hcurve, hzones, hnodes, hpoll, hcodes⟩ := h
  have page : ∀ first n dflt, first ≤ p → p < first + n → slice (m.loadTable first n dflt) (32 * (p - first)) 32
      = if m.complete p then m.readPage p else slice dflt (32 * (p - first)) 32 := by
    intro first n dflt hf hn
    have hp := loadTable_page m (first := first) (n := n) (k := p - first) dflt (by omega)
    rwa [Nat.add_sub_cancel' hf] at hp
  have hlow : ∀ v : State, v.pageImage p = if p = 11 then v.st.settings else if p = 12 then v.st.curve
      else if p < 15 then slice v.st.zones (32 * (p - 13)) 32 else if p < 19 then slice v.st.nodes (32 * (p - 15)) 32
      else if p < 23 then slice v.st.poll (32 * (p - 19)) 32 else slice v.st.faultCodes (32 * (p - 23)) 32 := by
    intro v
    rw [State.pageImage, if_neg (by omega), if_neg (by omega), if_neg (by omega), if_neg (by omega), if_pos (c := p < 27) (by omega)]
  rw [hlow, hlow]
  split
  · subst p
    rw [hset]
    exact loadTable_single m (by decide)
  split
  · subst p
    rw [hcurve]
    exact loadTable_single m (by decide)
  split
  · rw [hzones]
    exact page 13 2 defaultZones (by omega) (by omega)
  split
  · rw [hnodes]
    exact page 15 4 defaultNodes (by omega) (by omega)
  split
  · rw [hpoll]
    exact page 19 4 defaultPoll (by omega) (by omega)
  · rw [hcodes]
    exact page 23 4 defaultFaultCodes (by omega) (by omega)

/-! ### The safety block (R198, R202) -/

theorem blankSafetyPage_length (p : Nat) : (blankSafetyPage p).length = 32 := by simp [blankSafetyPage]

theorem getD_splice {l bs : List Byte} {off i : Nat} (d : Byte) (h : off + bs.length ≤ l.length) :
    (splice l off bs).getD i d = if off ≤ i ∧ i < off + bs.length then bs.getD (i - off) d else l.getD i d := by
  have htake : (l.take off).length = off := by rw [List.length_take]; omega
  rw [splice, List.append_assoc]
  by_cases h1 : i < off
  · rw [if_neg (by omega), List.getD_append _ _ _ _ (by omega), List.getD_eq_getElem?_getD, List.getElem?_take_of_lt h1,
      List.getD_eq_getElem?_getD]
  · rw [List.getD_append_right _ _ _ _ (by omega), htake]
    by_cases h2 : i < off + bs.length
    · rw [if_pos ⟨by omega, h2⟩, List.getD_append _ _ _ _ (by omega)]
    · rw [if_neg (by omega), List.getD_append_right _ _ _ _ (by omega), List.getD_eq_getElem?_getD, List.getElem?_drop,
        List.getD_eq_getElem?_getD]
      congr 2
      omega

theorem safetyPages_length (m : Memory) : (joinPages 8 fun p => m.loadPage p (blankSafetyPage p)).length = 256 :=
  joinPages_length (fun _ => loadPage_length (blankSafetyPage_length _)) 8

theorem loadSafety_length (m : Memory) : m.loadSafety.length = 256 := by
  have h := safetyPages_length m
  show (splice (joinPages 8 fun p => m.loadPage p (blankSafetyPage p)) 156 (List.replicate 98 0)).length = 256
  rw [splice, List.length_append, List.length_append, List.length_take, List.length_drop, List.length_replicate, h]
  rfl

/-- A byte of the loaded safety block (R198, R202). -/
theorem loadSafety_getD (m : Memory) {i : Nat} (hi : i < 256) : m.loadSafety.getD i 0 = if 156 ≤ i ∧ i < 254 then 0
    else if m.complete (i / 32) then m.read i else erasedByte := by
  have hdiv : 32 * (i / 32) + i % 32 = i := Nat.div_add_mod i 32
  have hmod : i % 32 < 32 := Nat.mod_lt _ (by decide)
  have hpage := joinPages_getD (g := fun p => m.loadPage p (blankSafetyPage p)) (fun _ => loadPage_length (blankSafetyPage_length _))
    (n := 8) (k := i / 32) (j := i % 32) 0 (by omega) hmod
  rw [hdiv] at hpage
  show (splice (joinPages 8 fun p => m.loadPage p (blankSafetyPage p)) 156 (List.replicate 98 0)).getD i 0 = _
  rw [getD_splice 0 (by rw [safetyPages_length, List.length_replicate]; decide), List.length_replicate]
  by_cases hr : 156 ≤ i ∧ i < 254
  · rw [if_pos ⟨by omega, by omega⟩, if_pos hr, List.getD_eq_getElem?_getD, List.getElem?_replicate]
    split <;> rfl
  · rw [if_neg (by omega), if_neg hr, hpage, Memory.loadPage]
    split
    · rw [Memory.readPage, List.getD_eq_getElem _ _ (by simpa using hmod), List.getElem_map, List.getElem_range, hdiv]
    · rw [blankSafetyPage, List.getD_eq_getElem _ _ (by simpa using hmod), List.getElem_map, List.getElem_range, hdiv]
      exact if_neg (by omega)

/-! ### The outcome of the load (R199) -/

theorem loadOutcome_cases (m : Memory) : ((∃ p < 8, m.complete p = false) → m.loadOutcome = .blank)
    ∧ ((∀ p < 8, m.complete p = true) →
      ((blockCrc m.loadSafety).toNat = sbCrc m.loadSafety → m.loadOutcome = .valid)
        ∧ ((blockCrc m.loadSafety).toNat ≠ sbCrc m.loadSafety → m.loadOutcome = .failed)) := by
  refine ⟨fun ⟨p, hp, hc⟩ => ?_, fun h => ?_⟩
  · rw [Memory.loadOutcome, if_neg]
    intro hall
    have := List.all_eq_true.1 hall p (List.mem_range.2 hp)
    rw [hc] at this
    cases this
  · have hall : (List.range 8).all m.complete = true := List.all_eq_true.2 fun p hp => h p (List.mem_range.1 hp)
    rw [Memory.loadOutcome, if_pos hall]
    exact ⟨fun hc => if_pos hc, fun hc => if_neg hc⟩

/-! ### The history ring (R126, R198) -/

/-- The slots of a history page as loaded. -/
def Memory.loadSlots (m : Memory) (p : Nat) : List (Option Hist) :=
  if m.complete p then (List.range 4).map fun i => slotOfBytes (m.readPage p) (8 * i) else List.replicate 4 none

theorem loadSlots_length (m : Memory) (p : Nat) : (m.loadSlots p).length = 4 := by
  rw [Memory.loadSlots]
  split <;> simp

theorem loadRing_eq (m : Memory) : m.loadRing = joinPages 8 fun k => m.loadSlots (27 + k) := rfl

theorem loadRing_length (m : Memory) : m.loadRing.length = 32 :=
  (congrArg List.length (loadRing_eq m)).trans (joinPages_length (fun _ => loadSlots_length m _) 8)

theorem loadSlots_getD (m : Memory) (p : Nat) {i : Nat} (hi : i < 4) :
    (m.loadSlots p).getD i none = if m.complete p then slotOfBytes (m.readPage p) (8 * i) else none := by
  rw [Memory.loadSlots]
  split
  · rw [List.getD_eq_getElem _ _ (by simpa using hi), List.getElem_map, List.getElem_range]
  · rw [List.getD_eq_getElem?_getD, List.getElem?_replicate]
    split <;> rfl

/-- A slot of the loaded ring (R126). -/
theorem loadRing_getD (m : Memory) {k : Nat} (hk : k < 32) : m.loadRing.getD k none
    = if m.complete (27 + k / 4) then slotOfBytes (m.readPage (27 + k / 4)) (8 * (k % 4)) else none := by
  have hdiv : 4 * (k / 4) + k % 4 = k := Nat.div_add_mod k 4
  have hmod : k % 4 < 4 := Nat.mod_lt _ (by decide)
  have h := joinPages_getD (g := fun k => m.loadSlots (27 + k)) (fun _ => loadSlots_length m _) (n := 8) (k := k / 4) (j := k % 4)
    none (by omega) hmod
  rw [hdiv] at h
  rw [loadRing_eq, h, loadSlots_getD m _ hmod]

end Sys2Proof.Machine

/-! SUPPORT. The raisings found in the load: the lockout record, the head of the active list, the relays and BS through a raising (R43, R111, R117, R118). -/

namespace Sys2Proof.Machine

variable {s t u v w : State}

/-! ### The lockout record through a raising (R118) -/

theorem fmRaise_fm (src : Source) (detail : Nat) (s : State) :
    (fmRaise src detail s).fm = (raiseClass src (recorded src detail s)).fm := by
  obtain ⟨p, hp⟩ := fmRaise_eq src detail s
  rw [hp, State.onPe_fm, fmSync_fm]

theorem lockoutPath_lockout (src : Source) (h : s.fm.lockout.state = .active) : (lockoutPath src s).fm.lockout = s.fm.lockout := by
  simp only [lockoutPath, h]
  rw [lockoutEntry_fm]

/-- A standing lockout record is not changed by a further raising (R118). -/
theorem fmRaise_lockout (src : Source) (detail : Nat) (h : s.fm.lockout.state = .active) :
    (fmRaise src detail s).fm.lockout = s.fm.lockout := by
  have hrec : (recorded src detail s).fm.lockout = s.fm.lockout := (unlisted_fields (recorded_unlisted src detail s)).2.2
  rw [fmRaise_fm, ← hrec]
  rw [← hrec] at h
  generalize recorded src detail s = u at *
  have hpath : ∀ r : Record, (histAppend r (escalateRecord src u)).fm.lockout = u.fm.lockout := fun r =>
    (unlisted_fields (histAppend_unlisted r (escalateRecord src u))).2.2
  simp only [raiseClass]
  split
  · rfl
  split
  · exact lockoutPath_lockout src h
  split
  · rw [lockoutPath_lockout src (by rw [hpath]; exact h), hpath]
  · rfl

/-- A raising that locks out, with no lockout record standing, makes the record of its source (R116, R118). -/
theorem fmRaise_lockout_new {src : Source} (detail : Nat) (hl : LocksOut s src) (h : s.fm.lockout.state = .none) :
    (fmRaise src detail s).fm.lockout = { state := .active, source := some src, code := s.codeOf src, time := s.time } := by
  obtain ⟨r, hr, -, hc⟩ := recorded_record detail hl
  have hrec : (recorded src detail s).fm.lockout.state = .none := by rw [(unlisted_fields (recorded_unlisted src detail s)).2.2, h]
  obtain ⟨-, -, -, -, -, -, -, -, -, -, hcount, -, -, hcodes, -⟩ := (recorded_fmOnly src detail s).fields
  have hcode : (recorded src detail s).codeOf src = s.codeOf src := congrArg (fun c => fcCode c src) hcodes
  have htime : (recorded src detail s).time = s.time := congrArg (fun c => c.getD 0 0) hcount
  rw [fmRaise_fm, raiseClass_of_lockout hr hc, ← hcode, ← htime]
  generalize recorded src detail s = u at *
  simp only [lockoutPath, hrec]
  rw [lockoutEntry_fm, (queueLockoutPage (lockActive src u)).offerCounters_keeps.2.1, queueLockoutPage, offer_still]
  rfl

/-! ### The head of the active list -/

/-- The active list begins with the record of a lockout. -/
def HeadOf (src : Source) (time : Nat) (l : List Record) : Prop :=
  ∃ r q, l = r :: q ∧ r.source = src ∧ r.cls = .lockout ∧ r.first = time

theorem HeadOf.append {src : Source} {time : Nat} {l : List Record} (h : HeadOf src time l) (q : List Record) : HeadOf src time (l ++ q) := by
  obtain ⟨r, p, rfl, h1, h2, h3⟩ := h
  exact ⟨r, p ++ q, rfl, h1, h2, h3⟩

theorem HeadOf.map {src : Source} {time : Nat} {l : List Record} {f : Record → Record} (h : HeadOf src time l)
    (hf : ∀ r, (f r).source = r.source ∧ (f r).first = r.first ∧ (r.cls = .lockout → (f r).cls = .lockout)) :
    HeadOf src time (l.map f) := by
  obtain ⟨r, p, rfl, h1, h2, h3⟩ := h
  obtain ⟨k1, k2, k3⟩ := hf r
  exact ⟨f r, p.map f, rfl, k1.trans h1, k3 h2, k2.trans h3⟩

/-- The restored lockout's record stays at the head of the list through a raising (R110, R117). -/
theorem fmRaise_head {src x : Source} {time : Nat} (detail : Nat) (h : HeadOf x time s.fm.active) :
    HeadOf x time (fmRaise src detail s).fm.active := by
  have hrec : HeadOf x time (recorded src detail s).fm.active := by
    rw [(recorded_told src detail s).1, State.raisedList]
    split
    · exact h.append _
    · refine h.map fun r => ?_
      split <;> exact ⟨rfl, rfl, id⟩
  rw [fmRaise_fm]
  generalize recorded src detail s = u at *
  simp only [raiseClass]
  split
  · exact hrec
  split
  · rw [lockoutPath_active]
    exact hrec
  split
  · rw [lockoutPath_active, histAppend_active]
    refine hrec.map fun r => ?_
    split
    · exact ⟨rfl, rfl, fun _ => rfl⟩
    · exact ⟨rfl, rfl, id⟩
  · exact hrec

/-! ### The relays (R43) -/

/-- Since the load began at `now` a relay's timer, where it runs, has been started then, and no mark is set for a relay that reads energised. -/
def Watched (now : Nat) (s : State) : Prop := s.clock.now = now ∧ ∀ r, (s.bs.mismatch r = none ∨ s.bs.mismatch r = some (now + Config.tMismatch))
  ∧ (s.lines.readback r = true → s.bs.mark r = false)

theorem setMismatch_fields (r x : Relay) (d : Timer) (m : Bool) (s : State) :
    (setMismatch x d m s).bs.mismatch r = (if r = x then d else s.bs.mismatch r)
      ∧ (setMismatch x d m s).bs.mark r = (if r = x then m else s.bs.mark r)
      ∧ (setMismatch x d m s).lines = s.lines ∧ (setMismatch x d m s).clock = s.clock
      ∧ (setMismatch x d m s).bs.command r = s.bs.command r := by
  cases r <;> cases x <;> exact ⟨rfl, rfl, rfl, rfl, rfl⟩

theorem mismatchSync_watched {now : Nat} (x : Relay) (h : Watched now s) : Watched now (mismatchSync x s) := by
  obtain ⟨hc, hr⟩ := h
  have hset : ∀ d : Timer, (d = none ∨ d = some (now + Config.tMismatch)) → Watched now (setMismatch x d false s) := by
    intro d hd
    refine ⟨hc, fun r => ?_⟩
    obtain ⟨h1, h2, h3, -, -⟩ := setMismatch_fields r x d false s
    rw [h1, h2, h3]
    split
    · exact ⟨hd, fun _ => rfl⟩
    · exact hr r
  rw [mismatchSync]
  split
  · exact hset _ (.inl rfl)
  split
  · exact ⟨hc, hr⟩
  · exact hset _ (.inr (by rw [State.deadline, hc]))

theorem relaySync_watched {now : Nat} (h : Watched now s) : Watched now (relaySync s) :=
  mismatchSync_watched .gas2 (mismatchSync_watched .gas1 h)

/-- With the gas off, the comparison leaves the timer of each relay that reads energised running since the load (R43). -/
theorem relaySync_timers {now : Nat} (h : Watched now s) (h1 : s.bs.gas1 = false) (h2 : s.bs.gas2 = false) :
    (relaySync s).bs.mismatch1 = (if s.lines.relay1Fb then some (now + Config.tMismatch) else none)
      ∧ (relaySync s).bs.mismatch2 = (if s.lines.relay2Fb then some (now + Config.tMismatch) else none) := by
  have one : ∀ (x : Relay) (v : State), Watched now v → v.bs.command x = false →
      (mismatchSync x v).bs.mismatch x = if v.lines.readback x then some (now + Config.tMismatch) else none := by
    intro x v ⟨hc, hr⟩ hoff
    have hset : ∀ d m, (setMismatch x d m v).bs.mismatch x = d := fun d m => (setMismatch_fields x x d m v).1.trans (if_pos rfl)
    obtain ⟨hmis, hmark⟩ := hr x
    rw [mismatchSync, hoff]
    cases hfb : v.lines.readback x with
    | false => exact hset _ _
    | true =>
      rw [if_neg nofun, hmark hfb]
      rcases hmis with hmis | hmis
      · rw [hmis]
        exact (hset _ _).trans (by rw [State.deadline, hc]; rfl)
      · rw [hmis]
        exact hmis
  have other : ∀ v : State, (mismatchSync .gas2 v).bs.mismatch1 = v.bs.mismatch1 := by
    intro v
    rw [mismatchSync]
    repeat' split
    all_goals rfl
  have hcmd : (mismatchSync .gas1 s).bs.gas2 = s.bs.gas2 ∧ (mismatchSync .gas1 s).lines = s.lines := by
    rw [mismatchSync]
    repeat' split
    all_goals exact ⟨rfl, rfl⟩
  refine ⟨(other _).trans (one .gas1 s h h1), ?_⟩
  have h2' := one .gas2 (mismatchSync .gas1 s) (mismatchSync_watched .gas1 h) (hcmd.1.trans h2)
  rw [hcmd.2] at h2'
  exact h2'

theorem watched_of_bs {now : Nat} (h : Watched now u) (hm : ∀ r, v.bs.mismatch r = u.bs.mismatch r) (hk : ∀ r, v.bs.mark r = u.bs.mark r)
    (hl : v.lines = u.lines) (hc : v.clock = u.clock) : Watched now v := by
  refine ⟨by rw [hc]; exact h.1, fun r => ?_⟩
  rw [hm, hk, hl]
  exact h.2 r

theorem mismatch_of_core {a b : Bs} (h : a.core = b.core) (r : Relay) : a.mismatch r = b.mismatch r := by
  simp only [Bs.core, Bs.mk.injEq] at h
  cases r <;> simp [Bs.mismatch, h]

theorem safeOff_watched {now : Nat} (h : Watched now s) : Watched now (safeOff s) := by
  rw [safeOff]
  refine relaySync_watched ?_
  split <;> exact watched_of_bs h (fun r => by cases r <;> rfl) (fun r => by cases r <;> rfl) rfl rfl

theorem bsMove_watched {now : Nat} (st : BurnerState) (c : Cause) (o : Bool) (h : Watched now s) : Watched now (bsMove st c o s) := by
  simp only [bsMove]
  have hcore := fun (b : Bool) (v : State) => bsReport_core b c o v
  have hstill := fun (b : Bool) (v : State) => still_fields (bsReport_still b c o v)
  have hreport : ∀ b v, Watched now v → Watched now (bsReport b c o v) := fun b v hv =>
    watched_of_bs hv (fun r => mismatch_of_core (hcore b v) r) (fun r => mark_of_core (hcore b v) r) (hstill b v).2.1 (hstill b v).1
  refine hreport _ _ ?_
  split
  · exact watched_of_bs h (fun r => by cases r <;> rfl) (fun r => by cases r <;> rfl) rfl rfl
  · exact watched_of_bs (safeOff_watched h) (fun r => by cases r <;> rfl) (fun r => by cases r <;> rfl) rfl rfl

theorem lockoutEntry_watched {now : Nat} (src : Source) (h : Watched now s) : Watched now (lockoutEntry src s) := by
  simp only [lockoutEntry]
  split
  · exact h
  have hm := bsMove_watched .lockout .lockout false h
  generalize bsMove .lockout .lockout false s = v at *
  split <;> exact watched_of_bs hm (fun r => by cases r <;> rfl) (fun r => by cases r <;> rfl) rfl rfl

/-- A raising in a burner at rest leaves the relays watched as they were. -/
theorem fmRaise_watched {now : Nat} (src : Source) (detail : Nat) (hrest : Resting s) (h : Watched now s) :
    Watched now (fmRaise src detail s) := by
  obtain ⟨y, p, hy, ⟨q, -, -, -, -, hcase⟩, -⟩ := fmRaise_cases src detail s
  obtain ⟨hc, hl, -, -, hbs, -⟩ := hy.fields
  have hyw : Watched now y := watched_of_bs h (fun r => by rw [hbs]) (fun r => by rw [hbs]) hl hc
  have hsync : ∀ v : State, Resting v → Watched now v → Watched now ((fmSync v).onPe fun _ => p) := fun v hv hw => by
    rw [fmSync_resting hv]
    exact watched_of_bs hw (fun r => by cases r <;> rfl) (fun r => by cases r <;> rfl) rfl rfl
  rcases hcase with ⟨e, -⟩ | ⟨e, -⟩
  · rw [e]
    exact hsync y (by rwa [Resting, hbs]) hyw
  · rw [e]
    exact hsync _ (.inr (.inr (lockoutEntry_fan src y).1)) (lockoutEntry_watched src hyw)

end Sys2Proof.Machine

/-! SUPPORT. The load step by step: the images, FM's records, and the sources found (R117, R126, R198). -/

namespace Sys2Proof.Machine

variable {s t u v w : State}

/-! ### FM at the end of the load (R117, R126) -/

/-- The state with the images loaded. -/
def imagesLoaded (s : State) : State := latchTables (loadImages { s with power := .on })

/-- FM with its stored records taken. -/
def taken (s : State) : State := s.onFm fun f =>
  { f with lockout := s.nv.loadLockout, resets := s.nv.loadResets, ring := s.nv.loadRing, press := none, armed := !s.lines.resetLow }

theorem fmLoaded_eq (s : State) : fmLoaded s = locateHistory (restoreLockout (taken s)) := rfl

/-- The list that a restored lockout begins with (R117). -/
def Lockout.restored (l : Lockout) : List Record :=
  match l.source with
  | some src => [{ source := src, detail := noDetail, cls := .lockout, count := 1, first := l.time, last := l.time }]
  | none => []

theorem restoreLockout_none (h : s.fm.lockout.state = .none) : restoreLockout s = s := if_pos h

theorem restoreLockout_some (h : s.fm.lockout.state ≠ .none) : ∃ src, restoreLockout s
    = fmLead (lockoutEntry src (s.onFm fun f => { f with active := s.fm.lockout.restored })) := ⟨_, if_neg h⟩

theorem locateHistory_eq (s : State) : ∃ n q, locateHistory s = s.onFm fun f => { f with nextSlot := n, nextSeq := q } := by
  rw [locateHistory]
  split <;> exact ⟨_, _, rfl⟩

/-- Where the ring's newest entry is found (R126). -/
theorem newestSlot_unique {ring : List (Option Hist)} {k : Nat} (hk : k < 32) (he : endsRun ring k = true)
    (hu : ∀ j < 32, endsRun ring j = true → j = k) : newestSlot ring = some k := by
  let l := (List.range 32).filter (endsRun ring)
  have hmem : ∀ j ∈ l, j = k := by
    intro j hj
    obtain ⟨h1, h2⟩ := List.mem_filter.1 hj
    exact hu j (List.mem_range.1 h1) h2
  have hin : k ∈ l := List.mem_filter.2 ⟨List.mem_range.2 hk, he⟩
  have hall : (l.all fun j => j == k || seqAhead ring k j) = true := List.all_eq_true.2 fun j hj => by simp [hmem j hj]
  have hfind : (l.find? fun k => l.all fun j => j == k || seqAhead ring k j) = some k := by
    cases hf : l.find? fun k => l.all fun j => j == k || seqAhead ring k j with
    | none => exact absurd hall (List.find?_eq_none.1 hf k hin)
    | some j => rw [hmem j (List.mem_of_find?_eq_some hf)]
  show (match l.find? fun k => l.all fun j => j == k || seqAhead ring k j with
    | some k => some k
    | none => l.getLast?) = some k
  rw [hfind]

theorem newestSlot_empty : newestSlot (List.replicate 32 none) = none := by decide

theorem locateHistory_empty (h : s.fm.ring = List.replicate 32 none) : (locateHistory s).fm.nextSlot = 0 ∧ (locateHistory s).fm.nextSeq = 0 := by
  rw [locateHistory, h, newestSlot_empty]
  exact ⟨rfl, rfl⟩

theorem locateHistory_found {k : Nat} {h : Hist} (hk : k < 32) (hs : s.fm.ring.getD k none = some h) (he : endsRun s.fm.ring k = true)
    (hu : ∀ j < 32, endsRun s.fm.ring j = true → j = k) :
    (locateHistory s).fm.nextSlot = (k + 1) % 32 ∧ (locateHistory s).fm.nextSeq = (h.seq + 1) % 65536 := by
  rw [locateHistory, newestSlot_unique hk he hu]
  refine ⟨rfl, ?_⟩
  show ((seqAt s.fm.ring k).getD 0 + 1) % 65536 = _
  rw [seqAt, hs]
  rfl

/-- The outer part with STORE_FAULT's marker blotted out. -/
def State.shelf (s : State) : State := { s.outer with st := { s.outer.st with storeFault := false } }

theorem shelf_of_outer (h : u.outer = v.outer) : u.shelf = v.shelf := by rw [State.shelf, State.shelf, h]

/-- A part of the state that the blotting out of `shelf` does not reach is read off it. -/
theorem read_shelf {α : Type} (f : State → α) (h : t.shelf = s.shelf) (hf : ∀ v, f v.shelf = f v) : f t = f s := by
  rw [← hf t, h, hf s]

/-- What the load has done up to the sources it finds: FM's records, and a burner at rest, locked out where a lockout was stored. -/
structure RecordsLoaded (a b : State) : Prop where
  shelf : b.shelf = a.shelf
  counters : b.st.counters = a.st.counters
  lockout : b.fm.lockout = a.nv.loadLockout
  resets : b.fm.resets = a.nv.loadResets
  ring : b.fm.ring = a.nv.loadRing
  fresh : a.nv.loadLockout.state = .none → b.fm.active = a.fm.active ∧ b.bs = a.bs
  stored : a.nv.loadLockout.state ≠ .none → b.fm.active = a.nv.loadLockout.restored
  lead : LeadDelivered b
  rest : Resting b
  startUp : b.bs.inhibit.startUp = a.bs.inhibit.startUp
  circuit : b.dm.circuit = a.dm.circuit
  watched : ∀ now, Watched now a → Watched now b

theorem fmLoaded_records (hbs : s.bs.state = .standby) (hact : s.fm.active = []) (hcode : s.pe.leadCode = 0) :
    RecordsLoaded s (fmLoaded s) := by
  rw [fmLoaded_eq]
  obtain ⟨n, q, hloc⟩ := locateHistory_eq (restoreLockout (taken s))
  rw [hloc]
  by_cases h : s.nv.loadLockout.state = .none
  · rw [restoreLockout_none (s := taken s) h]
    refine ⟨rfl, rfl, rfl, rfl, rfl, fun _ => ⟨rfl, rfl⟩, fun h' => absurd h h', ⟨fun _ => hcode, fun i r hi => ?_⟩, .inl hbs, rfl, rfl,
      fun _ hw => hw⟩
    have hi' : s.fm.active[i]? = some r := hi
    rw [hact] at hi'
    cases hi'
  · obtain ⟨src, hres⟩ := restoreLockout_some (s := taken s) h
    let r := (taken s).onFm fun f => { f with active := s.nv.loadLockout.restored }
    have hr : restoreLockout (taken s) = fmLead (lockoutEntry src r) := hres
    have hfm : (lockoutEntry src r).fm = r.fm := lockoutEntry_fm src r
    have hacts : Acts false (fun _ => False) r (lockoutEntry src r) := lockoutEntry_acts src .refl
    have hlead := fmLead_delivered (lockoutEntry src r)
    have hst : (lockoutEntry src r).st = r.st := (still_fields (lockoutEntry_still src r)).2.2.2.2.2.2.2.2.1
    have hw : ∀ now, Watched now s → Watched now (lockoutEntry src r) := fun now hw =>
      lockoutEntry_watched src (watched_of_bs (v := r) hw (fun _ => rfl) (fun _ => rfl) rfl rfl)
    have hout : (lockoutEntry src r).outer = r.outer := lockoutEntry_outer src r
    have hstate := (lockoutEntry_fan src r).1
    have hstart := hacts.startUp.resolve_left id
    have hcirc := congrArg Prod.snd (hacts.demand.resolve_left id)
    rw [hr]
    generalize lockoutEntry src r = y at *
    refine ⟨shelf_of_outer hout, by exact congrArg St.counters hst, ?_, ?_, ?_, fun h' => absurd h' h, fun _ => ?_, hlead, .inr (.inr hstate), hstart,
      hcirc, fun now h' => watched_of_bs (hw now h') (fun _ => rfl) (fun _ => rfl) rfl rfl⟩
    · exact congrArg Fm.lockout hfm
    · exact congrArg Fm.resets hfm
    · exact congrArg Fm.ring hfm
    · exact congrArg Fm.active hfm

end Sys2Proof.Machine

/-! SUPPORT. The sources that the load finds (R197 to R199). -/

namespace Sys2Proof.Machine

variable {s t u v w : State}

/-- A property that a raising and STORE_FAULT's marker keep stands through the raisings of the load. -/
theorem raiseFound_rec {P : State → Prop} (hmark : ∀ v, P v → P (v.onSt fun t => { t with storeFault := true }))
    (hraise : ∀ src d v, P v → P (fmRaise src d v)) (h : P s) : P (raiseFound s) := by
  have htorn : ∀ v page, P v → P (raiseTorn v page) := by
    intro v page hv
    rw [raiseTorn]
    split
    · exact hraise _ _ _ (hmark _ hv)
    · exact hv
  have hfold : ∀ (l : List Nat) (v : State), P v → P (l.foldl raiseTorn v) := by
    intro l
    induction l with
    | nil => exact fun _ h => h
    | cons y r ih => exact fun v hv => ih _ (htorn v y hv)
  simp only [raiseFound]
  split
  · exact hraise _ _ _ (hfold _ _ h)
  · exact hfold _ _ h

/-- What a raising touches. -/
def Raised (x : Touch) : Prop := (∃ src, x = .raise src) ∨ x = .store

theorem not_raised {x : Touch} (h1 : ∀ src, x ≠ .raise src) (h2 : x ≠ .store) : ¬Raised x := fun h =>
  h.elim (fun ⟨src, h⟩ => h1 src h) h2

theorem raiseFound_touches (s : State) : Acts false Raised s (raiseFound s) :=
  raiseFound_rec (P := fun v => Acts false Raised s v)
    (fun v hv => hv.trans { (Acts.refl : Acts false Raised v v) with store := .inl (.inr rfl) })
    (fun src _ _ hv => fmRaise_acts src _ (.inl ⟨src, rfl⟩) hv) .refl

theorem raiseFound_shelf (s : State) : (raiseFound s).shelf = s.shelf :=
  raiseFound_rec (P := fun v => v.shelf = s.shelf) (fun _ hv => hv) (fun src d v hv => (shelf_of_outer (fmRaise_outer src d v)).trans hv) rfl

theorem raiseFound_rest (h : Resting s) : Resting (raiseFound s) := by
  refine raiseFound_rec (P := Resting) (fun _ hv => hv) (fun src d v hv => ?_) h
  rcases fmRaise_resting src d hv with h' | h'
  · rwa [Resting, h']
  · exact .inr (.inr h')

theorem raiseFound_watched {now : Nat} (hrest : Resting s) (h : Watched now s) : Watched now (raiseFound s) := by
  refine (raiseFound_rec (P := fun v => Resting v ∧ Watched now v) (fun v hv => ⟨hv.1, ?_⟩) (fun src d v hv => ⟨?_, ?_⟩) ⟨hrest, h⟩).2
  · exact watched_of_bs hv.2 (fun _ => rfl) (fun _ => rfl) rfl rfl
  · rcases fmRaise_resting src d hv.1 with h' | h'
    · rw [Resting, h']
      exact hv.1
    · exact .inr (.inr h')
  · exact fmRaise_watched src d hv.1 hv.2

/-- A stored lockout stands through the sources found in the load (R117, R118). -/
theorem raiseFound_lockout (h : s.fm.lockout.state = .active) : (raiseFound s).fm.lockout = s.fm.lockout :=
  raiseFound_rec (P := fun v => v.fm.lockout = s.fm.lockout) (fun _ hv => hv)
    (fun src d v hv => (fmRaise_lockout src d (by rw [hv]; exact h)).trans hv) rfl

theorem raiseFound_head {src : Source} {time : Nat} (h : HeadOf src time s.fm.active) : HeadOf src time (raiseFound s).fm.active :=
  raiseFound_rec (P := fun v => HeadOf src time v.fm.active) (fun _ hv => hv) (fun _ d _ hv => fmRaise_head d hv) h

/-- With no page torn the load raises PARAM_INTEGRITY at most. -/
theorem raiseFound_unblemished (ht : ∀ p < 35, s.nv.loadFault p = false) :
    raiseFound s = if s.st.paramFault then fmRaise .paramIntegrity noDetail s else s := by
  have hfold : ∀ l : List Nat, (∀ p ∈ l, p < 35) → l.foldl raiseTorn s = s := by
    intro l
    induction l with
    | nil => exact fun _ => rfl
    | cons y r ih =>
      intro hl
      have hy : raiseTorn s y = s := by
        rw [raiseTorn, ht y (hl y List.mem_cons_self)]
        rfl
      rw [List.foldl_cons, hy]
      exact ih fun p hp => hl p (List.mem_cons_of_mem _ hp)
  simp only [raiseFound, hfold (List.range 35) fun p hp => List.mem_range.1 hp]

/-- With no page torn and a VALID block the load finds nothing. -/
theorem raiseFound_nothing (ht : ∀ p < 35, s.nv.loadFault p = false) (hp : s.st.paramFault = false) : raiseFound s = s := by
  rw [raiseFound_unblemished ht, hp]
  rfl

/-- STORE_FAULT's marker and its record stand (R197). -/
def StoreFaultStands (s : State) : Prop := s.st.storeFault = true ∧ ∃ d, Stands s .storeFault d

theorem fmRaise_storeFault_stands {src : Source} (d : Nat) (h : StoreFaultStands s) : StoreFaultStands (fmRaise src d s) := by
  obtain ⟨h1, e, h2⟩ := h
  refine ⟨(read_outer (fun v : State => v.st.storeFault) (fmRaise_outer src d s) fun _ => rfl).trans h1, ?_⟩
  by_cases hs : src = .storeFault
  · subst hs
    exact ⟨d, fmRaise_stands _ _ _⟩
  · have hacts : Acts false (· = .raise src) s (fmRaise src d s) := fmRaise_acts _ _ rfl .refl
    refine ⟨e, stands_of_about ?_ h2⟩
    rcases hacts.about .storeFault with h' | h' | h' | h' | h'
    · cases h'
      exact absurd rfl hs
    · cases h'
    · cases h'.1
    · cases h'
    · exact h'

/-- A torn page raises STORE_FAULT (R198). -/
theorem raiseFound_torn {p : Nat} (hp : p < 35) (ht : s.nv.loadFault p = true) : StoreFaultStands (raiseFound s) := by
  have hkeep : ∀ v page, StoreFaultStands v → StoreFaultStands (raiseTorn v page) := by
    intro v page hv
    rw [raiseTorn]
    split
    · exact fmRaise_storeFault_stands page (s := v.onSt fun t => { t with storeFault := true }) ⟨rfl, hv.2⟩
    · exact hv
  have hrest : ∀ (l : List Nat) (v : State), StoreFaultStands v → StoreFaultStands (l.foldl raiseTorn v) := by
    intro l
    induction l with
    | nil => exact fun _ h => h
    | cons y r ih => exact fun v hv => ih _ (hkeep v y hv)
  have hnv : ∀ v page, (raiseTorn v page).nv = v.nv := by
    intro v page
    rw [raiseTorn]
    split
    · exact (read_outer State.nv (fmRaise_outer _ _ _) fun _ => rfl).trans rfl
    · rfl
  have hfold : ∀ (l : List Nat) (v : State), p ∈ l → v.nv.loadFault p = true → StoreFaultStands (l.foldl raiseTorn v) := by
    intro l
    induction l with
    | nil => exact fun _ h => nomatch h
    | cons y r ih =>
      intro v hm hv
      rw [List.foldl_cons]
      by_cases hy : p = y
      · subst hy
        refine hrest r _ ?_
        rw [raiseTorn, if_pos hv]
        exact ⟨read_outer (fun v : State => v.st.storeFault) (fmRaise_outer .storeFault p (v.onSt fun t => { t with storeFault := true })) fun _ => rfl,
          p, fmRaise_stands _ _ _⟩
      · exact ih _ ((List.mem_cons.1 hm).resolve_left hy) (by rw [hnv]; exact hv)
  have h := hfold (List.range 35) s (List.mem_range.2 hp) ht
  simp only [raiseFound]
  generalize (List.range 35).foldl raiseTorn s = u at *
  split
  · exact fmRaise_storeFault_stands _ h
  · exact h

/-- A block that is not VALID locks the burner out (R199). -/
theorem raiseFound_param (hs : SafeOn s) (hl : ListSound s.fm.active) (hp : s.st.paramFault = true) :
    LockedOut (raiseFound s) ∧ LockoutRecord (raiseFound s) .paramIntegrity noDetail := by
  have hsafe := foldl_safe raiseTorn raiseTorn_safe (List.range 35) s hs
  have hsound : ListSound ((List.range 35).foldl raiseTorn s).fm.active := by
    have hacts : Acts false anything s ((List.range 35).foldl raiseTorn s) := Acts.foldl (fun a h => raiseTorn_acts a h) _ .refl
    generalize (List.range 35).foldl raiseTorn s = u at *
    exact hacts.sound hl
  have hpar : ∀ (l : List Nat) (v : State), (l.foldl raiseTorn v).st.paramFault = v.st.paramFault := by
    intro l
    induction l with
    | nil => exact fun _ => rfl
    | cons y r ih =>
      intro v
      refine (ih _).trans ?_
      rw [raiseTorn]
      split
      · exact (read_outer (fun v : State => v.st.paramFault) (fmRaise_outer _ _ _) fun _ => rfl).trans rfl
      · rfl
  have hu := (hpar (List.range 35) s).trans hp
  simp only [raiseFound]
  generalize (List.range 35).foldl raiseTorn s = u at *
  rw [if_pos hu]
  refine fmRaise_lockedOut noDetail hsafe ⟨rfl, fun r hr => ?_⟩
  have hsrc : r.source = .paramIntegrity := by simpa using List.find?_some hr
  exact hsound.2 r (List.mem_of_find?_eq_some hr) (by rw [hsrc]; rfl)

end Sys2Proof.Machine

/-! SUPPORT. DM, the bus port and the scan at the end of the load (R3, R68, R79), and the state that the load ends in. -/

namespace Sys2Proof.Machine

variable {c s t u v w : State}

/-! ### DM's initial values (R79) -/

/-- A zone with no valve whose state is known moves nothing. -/
def State.unmoved (s : State) (z : Nat) : Prop := s.hasValve z = false ∨ (s.zone z).valve = .unknown

/-- The evaluation of an unmoved zone changes zone records at most (R59, R60). -/
theorem evaluateZone_unmoved {z : Nat} (h : s.unmoved z) : ∃ zs, evaluateZone s z = s.onDm fun d => { d with zones := zs } := by
  rw [evaluateZone]
  split
  · exact ⟨s.dm.zones, rfl⟩
  · have hv := congrArg Zone.valve (onZone_works (y := z) (z := z) (s.desiredOf z) s)
    rw [compareValve_rest (h.imp id fun h => .inl (hv.trans h))]
    exact ⟨_, rfl⟩

theorem evaluateZone_keeps_unmoved {y z : Nat} (h : ∀ x, x = y ∨ x = z → s.unmoved x) : (evaluateZone s y).unmoved z := by
  have hst : (evaluateZone s y).hasValve z = s.hasValve z := by rw [State.hasValve, State.hasValve, (evaluateZone_alike s y).2.1]
  rw [State.unmoved, hst]
  by_cases hyz : z = y
  · subst hyz
    have hworks := (evaluateZone_unknown (h z (.inl rfl))).1
    have hw : ((evaluateZone s z).zone z).valve = (s.zone z).valve := by have hv := congrArg Zone.valve hworks; exact hv
    rw [hw]
    exact h z (.inl rfl)
  · rw [evaluateZone_zone_ne hyz]
    exact h z (.inr rfl)

theorem evaluateZones_unmoved {l : List Nat} (h : ∀ z ∈ l, s.unmoved z) :
    ∃ zs, l.foldl evaluateZone s = s.onDm fun d => { d with zones := zs } := by
  induction l generalizing s with
  | nil => exact ⟨s.dm.zones, rfl⟩
  | cons y r ih =>
    obtain ⟨zs, hz⟩ := evaluateZone_unmoved (h y List.mem_cons_self)
    obtain ⟨zs', hr⟩ := ih (s := evaluateZone s y) fun z hm => evaluateZone_keeps_unmoved fun x hx => h x
      (hx.elim (fun e => e ▸ List.mem_cons_self) fun e => e ▸ List.mem_cons_of_mem _ hm)
    exact ⟨zs', by rw [List.foldl_cons, hr, hz]; rfl⟩

/-- The drive of the diverter to CH that begins with the load (R68). -/
def State.homing (s : State) : Diverter :=
  { state := .toCh, pos := setTravel s.st.settings * Config.second, travel := setTravel s.st.settings * Config.second, since := s.clock.now }

theorem select_none (hf : s.mp.firstFrame = false) (hc : s.dm.circuit = .none) : select s = s := by
  rw [select, State.selected, if_pos hf, changeCircuit, if_pos hc.symm]

/-- Before the first frame DM takes its initial values and commands no valve (R68, R79). -/
theorem dmLoaded_eq (hf : s.mp.firstFrame = false) (hc : s.dm.circuit = .none) :
    ∃ zs, dmLoaded s = s.onDm fun d => { d with zones := zs, diverter := s.homing } := by
  have hmem : ∀ z ∈ zoneNumbers, z < 8 := by decide
  let v := s.onDm fun d => { d with zones := zoneNumbers.map s.zoneInitial, diverter := s.homing }
  have hunmoved : ∀ z ∈ zoneNumbers, v.unmoved z := by
    intro z hz
    have hz8 := hmem z hz
    have hzone : v.zone z = s.zoneInitial z := by
      show (zoneNumbers.map s.zoneInitial).getD z {} = _
      interval_cases z <;> rfl
    have hval : v.hasValve z = s.hasValve z := rfl
    rw [State.unmoved, hzone, hval]
    cases h : s.hasValve z with
    | false => exact .inl rfl
    | true => exact .inr (by rw [State.zoneInitial]; simp only [h]; rfl)
  have hload : dmLoaded s = zoneNumbers.foldl evaluateZone (select v) := rfl
  rw [hload, select_none (s := v) hf hc]
  obtain ⟨zs, hzs⟩ := evaluateZones_unmoved hunmoved
  exact ⟨zs, hzs⟩

/-! ### The end of the load -/

/-- What stands at the end of the load, `c` being the state in which the sources have been raised. -/
structure LoadEnds (c t : State) : Prop where
  power : t.power = c.power
  nv : t.nv = c.nv
  fm : t.fm = c.fm
  leadCode : t.pe.leadCode = c.pe.leadCode
  bs : t.bs.unsynced = c.bs.unsynced
  st : t.st = { c.st with jobs := t.st.jobs, lockJob := t.st.lockJob, write := t.st.write }
  staging : t.mg.staging = c.st.safety
  unmodified : t.mg.modified = false
  port : t.zp.port = .settling
  settling : t.zp.settle = some (c.clock.now + Config.tSettle)
  diverter : t.dm.diverter = c.homing
  timer1 : t.bs.mismatch1 = (if c.lines.relay1Fb then some (c.clock.now + Config.tMismatch) else none)
  timer2 : t.bs.mismatch2 = (if c.lines.relay2Fb then some (c.clock.now + Config.tMismatch) else none)

/-- A burner at rest has the gas off. -/
theorem resting_gas_off (hs : SafeOn s) (hrest : Resting s) : s.bs.gas1 = false ∧ s.bs.gas2 = false := by
  obtain ⟨⟨hsame, hopen, -⟩, -⟩ := hs
  have hoff : s.bs.gas1 = false := by
    cases hg : s.bs.gas1 with
    | false => rfl
    | true =>
      have h := hopen.1 hg
      rcases hrest with h' | h' | h' <;> simp [h'] at h
  exact ⟨hoff, hsame ▸ hoff⟩

/-- The load's last steps, taken on what FM has raised. -/
theorem loadEnds (hf : c.mp.firstFrame = false) (hc : c.dm.circuit = .none) (hu : c.bs.inhibit.startUp = true) (hrest : Resting c)
    (hs : SafeOn c) (hw : Watched c.clock.now c) :
    LoadEnds c (settle (relaySync (scanStart (toSettling (dmLoaded (c.onMg fun m => { m with staging := c.st.safety, modified := false })))))) := by
  obtain ⟨zs, hdm⟩ := dmLoaded_eq (s := c.onMg fun m => { m with staging := c.st.safety, modified := false }) hf hc
  obtain ⟨hg1, hg2⟩ : c.bs.gas1 = false ∧ c.bs.gas2 = false := resting_gas_off hs hrest
  rw [hdm]
  let x := scanStart (toSettling ((c.onMg fun m => { m with staging := c.st.safety, modified := false }).onDm fun d =>
    { d with zones := zs, diverter := c.homing }))
  have hx : Watched c.clock.now x := ⟨hw.1, hw.2⟩
  obtain ⟨ht1, ht2⟩ := relaySync_timers hx hg1 hg2
  obtain ⟨hbs, hdm', -⟩ := relaySync_unsynced x
  obtain ⟨hclock, hlines, -, -, hfm, hzp, hpe, hmg, hst, hnv, hpower⟩ := still_fields (relaySync_still x)
  show LoadEnds c (settle (relaySync x))
  generalize relaySync x = e at *
  have hinh : e.bs.inhibit.startUp = true := by
    have h := congrArg (fun b : Bs => b.inhibit.startUp) hbs
    exact h.trans hu
  have hend := settle_atEnd e (by simp [State.mayStart, State.inhibited, hinh])
  generalize settle e = t at *
  have hwrite := startWrite_eq e
  rw [AtEnd] at hend
  subst hend
  refine ⟨hpower, hnv, hfm, congrArg Pe.leadCode hpe, hbs, ?_, congrArg Mg.staging hmg, congrArg Mg.modified hmg, congrArg Zp.port hzp,
    congrArg Zp.settle hzp, congrArg Dm.diverter hdm', ht1, ht2⟩
  show (startWrite e).st = _
  rw [show c.st = e.st from hst.symm]
  exact congrArg State.st hwrite

end Sys2Proof.Machine

/-! PROOFS. O14: LOAD_COMPLETE. -/

namespace Sys2Proof.Machine

variable {b c s t u v w : State}

/-! ### Stores that hold nothing -/

/-- No lockout stored: none is loaded. -/
theorem loadLockout_none {m : Memory} (hn : ∀ x, m.newest 8 = some x → u8 (m.readPage (physPage 8 x)) 0 = 0) : m.loadLockout = {} := by
  rw [Memory.loadLockout, Memory.newestCopy]
  cases hx : m.newest 8 with
  | none => rfl
  | some x => exact if_neg (by rw [hn x hx]; decide)

theorem loadFault_blank : ∀ p < 35, ({} : Memory).loadFault p = false := by decide

/-! ### The load as a whole -/

/-- The load of the part in state `s`: `b` once FM has taken its records, `c` once the sources found have been raised, `t` at its end. -/
structure LoadRun (s b c t : State) : Prop where
  records : RecordsLoaded (imagesLoaded s) b
  taken : b = fmLoaded (imagesLoaded s)
  raised : c = raiseFound b
  fresh : s.bs = {} ∧ s.fm.active = []
  safe : SafeOn b
  sound : ListSound b.fm.active
  ends : LoadEnds c t

theorem loadRun (h : s = s.volatileReset .loading) : ∃ b c, LoadRun s b c (settle (loadComplete s)) := by
  have hbs : s.bs = {} := congrArg State.bs h
  have hfm : s.fm = {} := congrArg State.fm h
  have hdm : s.dm = {} := congrArg State.dm h
  have hmp : s.mp = {} := congrArg State.mp h
  have hpe : s.pe = {} := congrArg State.pe h
  have hact : s.fm.active = [] := congrArg Fm.active hfm
  have hrec : RecordsLoaded (imagesLoaded s) (fmLoaded (imagesLoaded s)) :=
    fmLoaded_records (s := imagesLoaded s) (congrArg Bs.state hbs) hact (congrArg Pe.leadCode hpe)
  have hsafe : SafeOn (fmLoaded (imagesLoaded s)) :=
    (safeOn_of_drive (locateHistory_drive _)).2 (restoreLockout_safe (s := taken (imagesLoaded s)) hbs)
  have hsound : ListSound (fmLoaded (imagesLoaded s)).fm.active := fmLoaded_sound (s := imagesLoaded s) (by
    show ListSound s.fm.active
    rw [hact]
    exact ⟨List.nodup_nil, nofun⟩)
  have hwatch : Watched s.clock.now (imagesLoaded s) := ⟨rfl, fun r => by
    show (s.bs.mismatch r = none ∨ _) ∧ (_ → s.bs.mark r = false)
    rw [hbs]
    cases r <;> exact ⟨.inl rfl, fun _ => rfl⟩⟩
  refine ⟨fmLoaded (imagesLoaded s), raiseFound (fmLoaded (imagesLoaded s)), hrec, rfl, rfl, ⟨hbs, hact⟩, hsafe, hsound, ?_⟩
  rw [loadComplete_eq]
  have hb := hrec.watched _ hwatch
  have hrest := hrec.rest
  have hstart : (fmLoaded (imagesLoaded s)).bs.inhibit.startUp = true := hrec.startUp.trans (congrArg (fun b : Bs => b.inhibit.startUp) hbs)
  have hcirc : (fmLoaded (imagesLoaded s)).dm.circuit = .none := hrec.circuit.trans (congrArg Dm.circuit hdm)
  have hmpb : (fmLoaded (imagesLoaded s)).mp = (imagesLoaded s).mp := read_shelf State.mp hrec.shelf fun _ => rfl
  have hfirst : (fmLoaded (imagesLoaded s)).mp.firstFrame = false := (congrArg Mp.firstFrame hmpb).trans (congrArg Mp.firstFrame hmp)
  show LoadEnds (raiseFound (fmLoaded (imagesLoaded s))) (settle (loadRest (fmLoaded (imagesLoaded s))))
  generalize fmLoaded (imagesLoaded s) = b at *
  have hacts := raiseFound_touches b
  have hc := raiseFound_watched hrest hb
  have hnow := hc.1
  simp only [loadRest]
  have hrestc := raiseFound_rest hrest
  have hsafec := raiseFound_safe b hsafe
  generalize raiseFound b = c at *
  refine loadEnds ?_ ?_ ?_ hrestc hsafec (by rw [hnow]; exact hc)
  · rw [hacts.mp.resolve_left (not_raised nofun nofun)]
    exact hfirst
  · exact (congrArg Prod.snd (hacts.demand.resolve_left (not_raised nofun nofun))).trans hcirc
  · exact (hacts.startUp.resolve_left (not_raised nofun nofun)).trans hstart

namespace LoadRun

theorem acts (h : LoadRun s b c t) : Acts false Raised b c := h.raised ▸ raiseFound_touches b

theorem shelf (h : LoadRun s b c t) : c.shelf = (imagesLoaded s).shelf := by
  rw [h.raised]
  exact (raiseFound_shelf b).trans h.records.shelf

theorem safe_c (h : LoadRun s b c t) : SafeOn c := by
  rw [h.raised]
  exact raiseFound_safe b h.safe

theorem b_nv (h : LoadRun s b c t) : b.nv = s.nv := (read_shelf State.nv h.records.shelf fun _ => rfl).trans rfl

/-! ### The images (R198, R199) -/

theorem tables (h : LoadRun s b c t) : TablesLoaded s.nv t := by
  have hs := h.shelf
  have ht := h.ends.st
  have read : ∀ f : St → List Byte, (∀ x : St, f { x with jobs := t.st.jobs, lockJob := t.st.lockJob, write := t.st.write } = f x) →
      f t.st = f c.st := fun f hf => (congrArg f ht).trans (hf c.st)
  exact ⟨(read St.settings fun _ => rfl).trans (read_shelf (fun v : State => v.st.settings) hs fun _ => rfl),
    (read St.curve fun _ => rfl).trans (read_shelf (fun v : State => v.st.curve) hs fun _ => rfl),
    (read St.zones fun _ => rfl).trans (read_shelf (fun v : State => v.st.zones) hs fun _ => rfl),
    (read St.nodes fun _ => rfl).trans (read_shelf (fun v : State => v.st.nodes) hs fun _ => rfl),
    (read St.poll fun _ => rfl).trans (read_shelf (fun v : State => v.st.poll) hs fun _ => rfl),
    (read St.faultCodes fun _ => rfl).trans (read_shelf (fun v : State => v.st.faultCodes) hs fun _ => rfl)⟩

/-- The safety block, the counters and the outcome of the load. -/
theorem block (h : LoadRun s b c t) : t.st.safety = s.nv.loadSafety ∧ c.st.safety = s.nv.loadSafety
    ∧ t.st.counters = s.nv.loadCounters ∧ t.st.loaded = s.nv.loadOutcome ∧ t.st.paramFault = (s.nv.loadOutcome != .valid)
    ∧ t.st.storeFault = c.st.storeFault := by
  have hs := h.shelf
  have ht := h.ends.st
  have hsafety : c.st.safety = s.nv.loadSafety := read_shelf (fun v : State => v.st.safety) hs fun _ => rfl
  have hcount : c.st.counters = s.nv.loadCounters := (h.acts.counters.resolve_left (not_raised nofun nofun)).trans h.records.counters
  exact ⟨(congrArg St.safety ht).trans hsafety, hsafety, (congrArg St.counters ht).trans hcount,
    (congrArg St.loaded ht).trans (read_shelf (fun v : State => v.st.loaded) hs fun _ => rfl),
    (congrArg St.paramFault ht).trans (read_shelf (fun v : State => v.st.paramFault) hs fun _ => rfl), by rw [ht]⟩

theorem b_paramFault (h : LoadRun s b c t) : b.st.paramFault = (s.nv.loadOutcome != .valid) :=
  read_shelf (fun v : State => v.st.paramFault) h.records.shelf fun _ => rfl

/-! ### FM's records (R117, R126) -/

theorem lockedOut (h : LoadRun s b c t) (hc : LockedOut c) : LockedOut t := by
  obtain ⟨h1, h2, h3, h4, h5⟩ := hc
  have hbs := h.ends.bs
  exact ⟨(congrArg Bs.state hbs).trans h1, (congrArg Bs.gas1 hbs).trans h2, (congrArg Bs.gas2 hbs).trans h3,
    (congrArg Bs.spark hbs).trans h4, by rw [h.ends.fm]; exact h5⟩

/-- A block that is not VALID locks the burner out (R199). -/
theorem notValid (h : LoadRun s b c t) (hv : t.st.loaded ≠ .valid) :
    LockedOut t ∧ ∃ r ∈ t.fm.active, r.source = .paramIntegrity ∧ r.cls = .lockout := by
  obtain ⟨-, -, -, hl, -, -⟩ := h.block
  rw [hl] at hv
  have hp : b.st.paramFault = true := h.b_paramFault.trans (by simpa using hv)
  obtain ⟨h1, r, hr, hs, -, hc⟩ := raiseFound_param h.safe h.sound hp
  rw [← h.raised] at h1 hr
  rw [h.ends.fm]
  exact ⟨h.lockedOut h1, r, hr, hs, hc⟩

/-- A stored lockout is restored (R117). -/
theorem storedLockout (h : LoadRun s b c t) {x : Bool} (hx : s.nv.newest 8 = some x)
    (hst : u8 (s.nv.readPage (physPage 8 x)) 0 = 1 ∨ u8 (s.nv.readPage (physPage 8 x)) 0 = 2) :
    t.fm.lockout = { state := .active, source := Source.ofNum (u8 (s.nv.readPage (physPage 8 x)) 1)
                     code := u16 (s.nv.readPage (physPage 8 x)) 2, time := u32 (s.nv.readPage (physPage 8 x)) 4 }
      ∧ LockedOut t ∧ ∀ src, Source.ofNum (u8 (s.nv.readPage (physPage 8 x)) 1) = some src → ∃ r l, t.fm.active = r :: l
          ∧ r.source = src ∧ r.cls = .lockout ∧ r.first = u32 (s.nv.readPage (physPage 8 x)) 4 := by
  generalize hp : s.nv.readPage (physPage 8 x) = p at *
  have hload : s.nv.loadLockout = { state := .active, source := Source.ofNum (u8 p 1), code := u16 p 2, time := u32 p 4 } := by
    rw [Memory.loadLockout, Memory.newestCopy, hx, Option.map_some, hp]
    exact if_pos hst
  have hb : b.fm.lockout = s.nv.loadLockout := h.records.lockout
  have hc : c.fm.lockout = s.nv.loadLockout := by
    rw [h.raised, raiseFound_lockout (by rw [hb, hload]), hb]
  have hstate : s.nv.loadLockout.state ≠ .none := by simp [hload]
  refine ⟨by rw [h.ends.fm, hc, hload], h.lockedOut (lockedOut_of_safe h.safe_c (by rwa [hc])), fun src hsrc => ?_⟩
  have hhead : HeadOf src (u32 p 4) b.fm.active := by
    rw [h.records.stored hstate]
    show HeadOf src (u32 p 4) s.nv.loadLockout.restored
    rw [hload, Lockout.restored]
    simp only [hsrc]
    exact ⟨_, _, rfl, rfl, rfl, rfl⟩
  rw [h.ends.fm, h.raised]
  exact raiseFound_head hhead

/-- With a VALID block and no page torn the load raises nothing. -/
theorem sound_store (h : LoadRun s b c t) (hv : t.st.loaded = .valid) (hn : ∀ p < 35, s.nv.loadFault p = false) : c = b := by
  obtain ⟨-, -, -, hl, -, -⟩ := h.block
  rw [hl] at hv
  rw [h.raised]
  exact raiseFound_nothing (by rw [h.b_nv]; exact hn) (h.b_paramFault.trans (by rw [hv]; rfl))

/-- With nothing stored and nothing found the part is at rest in STANDBY (R198). -/
theorem nothing (h : LoadRun s b c t) (hcb : c = b) (hl : s.nv.loadLockout = {}) :
    t.fm.active = [] ∧ t.fm.lockout = {} ∧ t.bs.state = .standby := by
  obtain ⟨hact, hbs⟩ := h.records.fresh (congrArg Lockout.state hl)
  have hbs' : b.bs = {} := hbs.trans h.fresh.1
  rw [h.ends.fm, hcb]
  exact ⟨hact.trans h.fresh.2, h.records.lockout.trans hl,
    (congrArg Bs.state h.ends.bs).trans (by rw [hcb]; exact congrArg Bs.state hbs')⟩

/-- The loaded ring and its next slot (R126). -/
theorem ring (h : LoadRun s b c t) (hcb : c = b) : t.fm.ring = s.nv.loadRing
    ∧ (t.fm.ring = List.replicate 32 none → t.fm.nextSlot = 0 ∧ t.fm.nextSeq = 0)
    ∧ ∀ (k : Nat) (x : Hist), k < 32 → t.fm.ring.getD k none = some x → endsRun t.fm.ring k = true →
        (∀ j < 32, endsRun t.fm.ring j = true → j = k) → t.fm.nextSlot = (k + 1) % 32 ∧ t.fm.nextSeq = (x.seq + 1) % 65536 := by
  have hring : b.fm.ring = s.nv.loadRing := h.records.ring
  have htaken := h.taken
  rw [fmLoaded_eq] at htaken
  generalize restoreLockout (Sys2Proof.Machine.taken (imagesLoaded s)) = v at htaken
  have hv : b.fm.ring = v.fm.ring := by
    obtain ⟨n, q, hloc⟩ := locateHistory_eq v
    rw [htaken, hloc]
    rfl
  rw [h.ends.fm, hcb]
  refine ⟨hring, fun he => ?_, fun k x hk hs he hu => ?_⟩
  · rw [htaken]
    exact locateHistory_empty (hv.symm.trans he)
  · rw [hv] at hs he hu
    rw [htaken]
    exact locateHistory_found hk hs he hu

/-- A torn page is on record (R198). -/
theorem torn (h : LoadRun s b c t) {p : Nat} (hp : p < 35) (ht : s.nv.loadFault p = true) :
    t.st.storeFault = true ∧ ∃ r ∈ t.fm.active, r.source = .storeFault := by
  obtain ⟨h1, d, hst⟩ := raiseFound_torn (s := b) hp (by rw [h.b_nv]; exact ht)
  rw [← h.raised] at h1 hst
  obtain ⟨-, -, -, -, -, hsf⟩ := h.block
  obtain ⟨r, hr, hs, -⟩ := hst.mem
  rw [hsf, h.ends.fm]
  exact ⟨h1, r, hr, hs⟩

theorem resets (h : LoadRun s b c t) : t.fm.resets = s.nv.loadResets := by
  have hc := congrArg Prod.fst (h.acts.resets.resolve_left (not_raised nofun nofun))
  rw [h.ends.fm]
  exact hc.trans h.records.resets

/-- The code delivered at the end of the load is that of the lead fault (R113). -/
theorem lead (h : LoadRun s b c t) : LeadDelivered t := by
  have hcodes : c.st.faultCodes = b.st.faultCodes := h.acts.codes.resolve_left (not_raised nofun nofun)
  have hc : LeadDelivered c := by
    rcases h.acts.lead with ⟨h', -⟩ | ⟨-, h' | ⟨hl, hcode⟩ | h'⟩
    · cases h'
    · exact absurd h' (not_raised nofun nofun)
    · exact h.records.lead.of_listed hl hcode hcodes
    · exact h'
  exact hc.of_listed (by rw [State.listed, State.listed, h.ends.fm]) h.ends.leadCode (by rw [h.ends.st])

/-! ### A blank store -/

/-- Of a blank store all is the default, and the burner is locked out with code 120. -/
theorem blank (h : LoadRun s b c t) (hn : s.nv = {}) : t.st.loaded = .blank ∧ t.st.settings = defaultSettings
    ∧ t.st.poll = defaultPoll ∧ t.fm.lockout.source = some .paramIntegrity ∧ t.fm.lockout.code = 120 := by
  obtain ⟨hset, -, -, -, hpoll, -⟩ := h.tables
  obtain ⟨-, -, -, hl, -, -⟩ := h.block
  have hload : s.nv.loadLockout = {} := by rw [hn]; rfl
  have hlock : b.fm.lockout.state = .none := congrArg Lockout.state (h.records.lockout.trans hload)
  have hact : b.fm.active = [] := (h.records.fresh (congrArg Lockout.state hload)).1.trans h.fresh.2
  have hcodes : b.st.faultCodes = s.nv.loadTable 23 4 defaultFaultCodes := read_shelf (fun v : State => v.st.faultCodes) h.records.shelf fun _ => rfl
  have hraised : c = fmRaise .paramIntegrity noDetail b := by
    rw [h.raised, raiseFound_unblemished (by rw [h.b_nv, hn]; exact loadFault_blank), h.b_paramFault, hn]
    rfl
  have hnew := fmRaise_lockout_new (s := b) (src := .paramIntegrity) noDetail
    ⟨rfl, fun r hr => by rw [State.record, hact] at hr; cases hr⟩ hlock
  rw [← hraised, ← h.ends.fm] at hnew
  have hcode : fcCode (({} : Memory).loadTable 23 4 defaultFaultCodes) .paramIntegrity = 120 := rfl
  rw [hnew, hset, hpoll, hl, State.codeOf, hcodes, hn]
  exact ⟨by decide, loadTable_default (by decide) rfl, loadTable_default (by decide) rfl, rfl, hcode⟩

end LoadRun

/-- Settles O14: the load step by step (`RecordsLoaded`, the raisings of `raiseFound`, `LoadEnds`), then each clause from the step that sets it. -/
theorem loadCompleteTakesTheStoredPages : Obligations.LoadCompleteTakesTheStoredPages := by
  intro s h
  obtain ⟨b, c, hrun⟩ := loadRun h
  have hpow : s.power = .loading := congrArg State.power h
  have hshelf := hrun.shelf
  have hclock : c.clock = s.clock := (read_shelf State.clock hshelf fun _ => rfl).trans rfl
  have hlines : c.lines = s.lines := (read_shelf State.lines hshelf fun _ => rfl).trans rfl
  refine ⟨settle (loadComplete s), ?_, ?_⟩
  · show done (if s.power = .loading then settle (loadComplete s) else s) = _
    rw [if_pos hpow]
    rfl
  have hbs : s.bs = {} := congrArg State.bs h
  generalize settle (loadComplete s) = t at *
  obtain ⟨hsafety, hcs, hcount, hloaded, hparam, -⟩ := hrun.block
  have hends := hrun.ends
  obtain ⟨hblank, hvalid⟩ := loadOutcome_cases s.nv
  have hset : c.st.settings = t.st.settings := ((congrArg St.settings hends.st).trans rfl).symm
  have hstart : t.bs.inhibit.startUp = true := by
    have h1 := congrArg (fun b : Bs => b.inhibit.startUp) hends.bs
    have h2 := hrun.acts.startUp.resolve_left (not_raised nofun nofun)
    exact h1.trans (h2.trans (hrun.records.startUp.trans (congrArg (fun b : Bs => b.inhibit.startUp) hbs)))
  have hdiv : t.dm.diverter = { state := .toCh, pos := setTravel t.st.settings * Config.second
                                travel := setTravel t.st.settings * Config.second, since := s.clock.now } := by
    rw [hends.diverter, State.homing, hset, hclock]
  have hon : t.power = .on := hends.power.trans (read_shelf State.power hshelf fun _ => rfl)
  refine ⟨hon, hends.nv.trans ((read_shelf State.nv hshelf fun _ => rfl).trans rfl), hstart, fun p h1 h2 => hrun.tables.pageImage h1 h2,
    by rw [hsafety]; exact loadSafety_length _, fun i hi => by rw [hsafety]; exact loadSafety_getD _ hi,
    by rw [hends.staging, hcs, hsafety], hends.unmodified, hcount, fun hb => hloaded.trans (hblank hb), fun hall => ?_, ?_,
    hrun.notValid, fun x hx => hrun.storedLockout hx, fun hv hn => ?_, fun p hp h8 h9 ht => hrun.torn hp ?_, fun x hx => ?_,
    hrun.lead, hends.port, by rw [hends.settling, hclock], hdiv, ?_, by rw [hends.timer1, hclock, hlines],
    by rw [hends.timer2, hclock, hlines], hrun.blank⟩
  · obtain ⟨hgood, hbad⟩ := hvalid hall
    rw [hsafety, hloaded]
    exact ⟨hgood, hbad⟩
  · rw [hparam, hloaded]
    cases s.nv.loadOutcome <;> rfl
  · have hcb := hrun.sound_store hv hn
    obtain ⟨hring, hempty, hfound⟩ := hrun.ring hcb
    exact ⟨fun hnone => hrun.nothing hcb (loadLockout_none hnone), by rw [hring]; exact loadRing_length _,
      fun k hk => by rw [hring]; exact loadRing_getD _ hk, hempty, hfound⟩
  · rw [Memory.loadFault, if_neg (by omega)]
    exact ht
  · rw [hrun.resets, Memory.loadResets, Memory.newestCopy, hx]
    rfl
  · rw [State.divB, hon, hdiv]
    rfl

end Sys2Proof.Machine
